-- ==== Sys2Proof/Word.lean ====
section
/-! DEFINITION. The word types of the RA-960 (00 R7) and the plainest arithmetic on them. -/

namespace Sys2Proof

/-- One byte. -/
abbrev Byte := BitVec 8
/-- A 32-bit register value (01 R13). -/
abbrev Word := BitVec 32
/-- A 64-bit value: a register pair, a 64-bit special register or a window register (00 R7). -/
abbrev DWord := BitVec 64
/-- A 56-bit virtual address (01 R11). -/
abbrev VAddr := BitVec 56
/-- A register number field (03 R70). -/
abbrev Reg := BitVec 8

/-- Bits `lo + n - 1` down to `lo` of a natural number (00 R9, a slice). -/
def bitsAt (x lo n : Nat) : Nat := x / 2 ^ lo % 2 ^ n

/-- Bit `i` of a natural number. -/
def bitAt (x i : Nat) : Bool := x / 2 ^ i % 2 == 1

/-- `b2n` reads a truth value as 1 or 0. -/
def b2n (b : Bool) : Nat := if b then 1 else 0

/-- `x` with bits `lo + n - 1` to `lo` replaced by `v`. -/
def putBits (x lo n v : Nat) : Nat :=
  x - bitsAt x lo n * 2 ^ lo + v % 2 ^ n * 2 ^ lo

/-- The quotient rounded up. -/
def ceilDiv (a b : Nat) : Nat := (a + b - 1) / b

/-- The two's complement reading of the low `w` bits of `x` (02 R34). -/
def signedOf (w x : Nat) : Int :=
  let y := x % 2 ^ w
  if y ≥ 2 ^ (w - 1) then (y : Int) - (2 ^ w : Nat) else y

/-- An integer modulo `2 ^ w` (04 R86). -/
def wrapNat (w : Nat) (x : Int) : Nat := (x % ((2 ^ w : Nat) : Int)).toNat

/-- The 32-bit result of an exact integer (04 R86). -/
def wrap32 (x : Int) : Word := BitVec.ofInt 32 x
/-- The 64-bit result of an exact integer (04 R86). -/
def wrap64 (x : Int) : DWord := BitVec.ofInt 64 x

/-- The low half of a 64-bit value (00 R7). -/
def lo32 (x : DWord) : Word := x.setWidth 32
/-- The high half of a 64-bit value (00 R7). -/
def hi32 (x : DWord) : Word := (x >>> 32).setWidth 32
/-- A 64-bit value from its low and high halves (00 R7). -/
def pair64 (lo hi : Word) : DWord := hi ++ lo

end Sys2Proof
end

