-- ==== Sys2Proof/Syntax.lean ====
section
/-! DEFINITION. The instruction formats of 03 R69 and the one inductive of all rows of spec/opcode_table.json. -/

namespace Sys2Proof

/-- A64: two words, three register fields and a 10-bit modifier (03 R69). -/
structure FA64 where
  wait : BitVec 12
  dist : BitVec 3
  set : BitVec 4
  mod : BitVec 10
  vb : Reg
  va : Reg
  vd : Reg
  deriving DecidableEq, Repr

/-- I64: two words, a 20-bit immediate (03 R69, R71). -/
structure FI64 where
  wait : BitVec 12
  dist : BitVec 3
  m : BitVec 2
  imm : BitVec 20
  va : Reg
  vd : Reg
  deriving DecidableEq, Repr

/-- C64: two words, a constant-bank operand (03 R69, R72). -/
structure FC64 where
  wait : BitVec 12
  dist : BitVec 3
  mod : BitVec 6
  bank : BitVec 2
  woff : BitVec 14
  va : Reg
  vd : Reg
  deriving DecidableEq, Repr

/-- M64: two words, a register plus a 16-bit byte offset (03 R69, R73). -/
structure FM64 where
  wait : BitVec 12
  dist : BitVec 3
  set : BitVec 4
  mod : BitVec 2
  off : BitVec 16
  va : Reg
  vd : Reg
  deriving DecidableEq, Repr

/-- B64: two words, a guarded relative branch (03 R69, R74). -/
structure FB64 where
  wait : BitVec 12
  dist : BitVec 3
  link : BitVec 6
  off : BitVec 24
  pol : BitVec 1
  guard : BitVec 7
  deriving DecidableEq, Repr

/-- A96: three words, four register fields, a guard and a 26-bit modifier (03 R69). -/
structure FA96 where
  wait : BitVec 12
  dist : BitVec 3
  set : BitVec 4
  mod : BitVec 26
  vb : Reg
  va : Reg
  vd : Reg
  pol : BitVec 1
  guard : BitVec 7
  vc : Reg
  deriving DecidableEq, Repr

/-- I96: three words, a guard and a 32-bit literal (03 R69). `mod` holds MOD[9:8]. -/
structure FI96 where
  wait : BitVec 12
  dist : BitVec 3
  set : BitVec 4
  mod : BitVec 2
  pol : BitVec 1
  guard : BitVec 7
  vb : Reg
  va : Reg
  vd : Reg
  lit : Word
  deriving DecidableEq, Repr

/-- A128: four words, five register fields, a guard, an 18-bit modifier and the X word (03 R69). -/
structure FA128 where
  wait : BitVec 12
  dist : BitVec 3
  set : BitVec 4
  mod : BitVec 18
  vc : Reg
  vb : Reg
  va : Reg
  vd : Reg
  pol : BitVec 1
  guard : BitVec 7
  ve : Reg
  x : Word
  deriving DecidableEq, Repr

/-- The instructions and events of spec/opcode_table.json, one constructor per row:
first the instructions, then the events that happen by themselves, then those that need an input. -/
inductive Instr where
  /-- IADD_A64 (R90). Adds two registers, wrapping or saturating. -/
  | iaddA64 (f : FA64)
  /-- IADD_I64 (R90). Adds a register and a sign-extended 20-bit immediate. -/
  | iaddI64 (f : FI64)
  /-- IADD_C64 (R90). Adds a register and a constant-bank word. -/
  | iaddC64 (f : FC64)
  /-- IADD_I96 (R90). Adds a register and a 32-bit literal, with an optional guard. -/
  | iaddI96 (f : FI96)
  /-- ISUB (R90). Subtracts two registers. -/
  | isub (f : FA64)
  /-- IADDC (R91). Writes the carry out of an unsigned add, with an optional carry in. -/
  | iaddc (f : FA64)
  /-- IADD3 (R90). Adds three optionally negated registers, wrapping. -/
  | iadd3 (f : FA96)
  /-- IADD64 (R90). Adds two register pairs. -/
  | iadd64 (f : FA64)
  /-- ISUB64 (R90). Subtracts two register pairs. -/
  | isub64 (f : FA64)
  /-- IABS (R90). Writes the absolute value of a signed register. -/
  | iabs (f : FA64)
  /-- INEG (R90). Writes the negation of a signed register. -/
  | ineg (f : FA64)
  /-- IMUL_A64 (R92). Writes the low 32 bits of a register product. -/
  | imulA64 (f : FA64)
  /-- IMUL_I64 (R92). Multiplies a register by an immediate. -/
  | imulI64 (f : FI64)
  /-- IMUL_C64 (R92). Multiplies a register by a constant-bank word. -/
  | imulC64 (f : FC64)
  /-- IMUL_I96 (R92). Multiplies a register by a literal. -/
  | imulI96 (f : FI96)
  /-- IMULH (R92). Writes the high 32 bits of a signed or unsigned product. -/
  | imulh (f : FA64)
  /-- IMULW (R92). Writes the full 64-bit product to a pair. -/
  | imulw (f : FA64)
  /-- IMAD_A96 (R92). Multiplies two registers and adds a third. -/
  | imadA96 (f : FA96)
  /-- IMAD_I64 (R92). Tied multiply-add with an immediate addend. -/
  | imadI64 (f : FI64)
  /-- IMAD_C64 (R92). Tied multiply-add with a constant-bank addend. -/
  | imadC64 (f : FC64)
  /-- IMAD_I96 (R92). Multiplies two registers and adds a literal. -/
  | imadI96 (f : FI96)
  /-- IMADW (R92). Adds a 64-bit product to a pair. -/
  | imadw (f : FA96)
  /-- IMIN_A64 (R93). Writes the smaller of two registers. -/
  | iminA64 (f : FA64)
  /-- IMIN_I64 (R93). Writes the smaller of a register and an immediate. -/
  | iminI64 (f : FI64)
  /-- IMAX_A64 (R93). Writes the larger of two registers. -/
  | imaxA64 (f : FA64)
  /-- IMAX_I64 (R93). Writes the larger of a register and an immediate. -/
  | imaxI64 (f : FI64)
  /-- ICLAMP (R93). Clamps a register between two bounds. -/
  | iclamp (f : FA96)
  /-- ICMP_A64 (R93). Writes 1 or 0 from a comparison of two registers. -/
  | icmpA64 (f : FA64)
  /-- ICMP_C64 (R93). Compares a register with a constant-bank word. -/
  | icmpC64 (f : FC64)
  /-- ICMP64 (R93). Compares two register pairs. -/
  | icmp64 (f : FA64)
  /-- SEL (R93). Selects one of two registers by bit 0 of a third. -/
  | sel (f : FA96)
  /-- LOP_A64 (R94). Applies a bitwise operation to two registers. -/
  | lopA64 (f : FA64)
  /-- LOP_I64 (R94). Applies a bitwise operation to a register and an immediate. -/
  | lopI64 (f : FI64)
  /-- LOP_C64 (R94). Applies a bitwise operation to a register and a constant. -/
  | lopC64 (f : FC64)
  /-- LOP_I96 (R94). Applies a bitwise operation to a register and a literal. -/
  | lopI96 (f : FI96)
  /-- LUT3 (R94). Applies an 8-bit truth table bitwise to three registers. -/
  | lut3 (f : FA96)
  /-- SHL_A64 (R95). Shifts left by a register amount. -/
  | shlA64 (f : FA64)
  /-- SHL_I64 (R95). Shifts left by an immediate amount. -/
  | shlI64 (f : FI64)
  /-- SHR_A64 (R95). Shifts right, arithmetic or logical, by a register amount. -/
  | shrA64 (f : FA64)
  /-- SHR_I64 (R95). Shifts right by an immediate amount. -/
  | shrI64 (f : FI64)
  /-- ROL_A64 (R95). Rotates left by a register amount. -/
  | rolA64 (f : FA64)
  /-- ROL_I64 (R95). Rotates left by an immediate amount. -/
  | rolI64 (f : FI64)
  /-- ROR_A64 (R95). Rotates right by a register amount. -/
  | rorA64 (f : FA64)
  /-- ROR_I64 (R95). Rotates right by an immediate amount. -/
  | rorI64 (f : FI64)
  /-- FSHL (R96). Funnel-shifts a 64-bit pair left and writes the high word. -/
  | fshl (f : FA96)
  /-- FSHR (R96). Funnel-shifts a 64-bit pair right and writes the low word. -/
  | fshr (f : FA96)
  /-- BFE (R97). Extracts a bit field, signed or unsigned. -/
  | bfe (f : FA64)
  /-- BFI (R97). Inserts a bit field. -/
  | bfi (f : FA96)
  /-- BMSK (R97). Builds a bit mask from a position and a length. -/
  | bmsk (f : FA64)
  /-- POPC (R98). Counts 1 bits. -/
  | popc (f : FA64)
  /-- CLZ (R98). Counts leading zeros. -/
  | clz (f : FA64)
  /-- CTZ (R98). Counts trailing zeros. -/
  | ctz (f : FA64)
  /-- BREV (R98). Reverses the bit order. -/
  | brev (f : FA64)
  /-- BSEL (R99). Gathers, extends, reverses and complements bytes under per-byte control. -/
  | bsel (f : FA96)
  /-- LEA (R100). Adds a shifted, extended index to a base, for 32 or 64 bits. -/
  | lea (f : FA64)
  /-- IDOT (R101). Packed integer dot product with accumulate. -/
  | idot (f : FA96)
  /-- SAD (R101). Packed sum of absolute differences with accumulate. -/
  | sad (f : FA96)
  /-- MOV_A64 (R102). Copies a register or a pair. -/
  | movA64 (f : FA64)
  /-- MOV_I64 (R102). Writes a sign-extended immediate. -/
  | movI64 (f : FI64)
  /-- MOV_C64 (R102). Writes a constant-bank word. -/
  | movC64 (f : FC64)
  /-- MOV_I96 (R102). Writes a 32-bit literal. -/
  | movI96 (f : FI96)
  /-- ICVT (R103). Converts between integer widths and signedness. -/
  | icvt (f : FA64)
  /-- FADD_A64 (R109). FP32 add of two registers. -/
  | faddA64 (f : FA64)
  /-- FADD_I64 (R109). FP32 add of a register and a 20-bit immediate. -/
  | faddI64 (f : FI64)
  /-- FADD_C64 (R109). FP32 add of a register and a constant. -/
  | faddC64 (f : FC64)
  /-- FADD_I96 (R109). FP32 add of a register and a literal. -/
  | faddI96 (f : FI96)
  /-- FSUB (R109). FP32 subtract. -/
  | fsub (f : FA64)
  /-- FMUL_A64 (R109). FP32 multiply of two registers. -/
  | fmulA64 (f : FA64)
  /-- FMUL_I64 (R109). FP32 multiply by an immediate. -/
  | fmulI64 (f : FI64)
  /-- FMUL_C64 (R109). FP32 multiply by a constant. -/
  | fmulC64 (f : FC64)
  /-- FMUL_I96 (R109). FP32 multiply by a literal. -/
  | fmulI96 (f : FI96)
  /-- FFMA_A96 (R110). FP32 fused multiply-add of three registers. -/
  | ffmaA96 (f : FA96)
  /-- FFMA_I64 (R110). Tied FP32 fused multiply-add with an immediate. -/
  | ffmaI64 (f : FI64)
  /-- FFMA_C64 (R110). Tied FP32 fused multiply-add with a constant. -/
  | ffmaC64 (f : FC64)
  /-- FFMA_I96 (R110). FP32 fused multiply-add with a literal addend. -/
  | ffmaI96 (f : FI96)
  /-- DADD_A64 (R109). FP64 add of two pairs. -/
  | daddA64 (f : FA64)
  /-- DADD_C64 (R109). FP64 add of a pair and a 64-bit constant. -/
  | daddC64 (f : FC64)
  /-- DSUB (R109). FP64 subtract. -/
  | dsub (f : FA64)
  /-- DMUL_A64 (R109). FP64 multiply of two pairs. -/
  | dmulA64 (f : FA64)
  /-- DMUL_C64 (R109). FP64 multiply by a constant. -/
  | dmulC64 (f : FC64)
  /-- DFMA_A96 (R110). FP64 fused multiply-add of three pairs. -/
  | dfmaA96 (f : FA96)
  /-- DFMA_C64 (R110). Tied FP64 fused multiply-add with a constant. -/
  | dfmaC64 (f : FC64)
  /-- FMIN_A64 (R111). FP32 minimum of two registers. -/
  | fminA64 (f : FA64)
  /-- FMIN_I64 (R111). FP32 minimum with an immediate. -/
  | fminI64 (f : FI64)
  /-- FMIN_C64 (R111). FP32 minimum with a constant. -/
  | fminC64 (f : FC64)
  /-- FMAX_A64 (R111). FP32 maximum of two registers. -/
  | fmaxA64 (f : FA64)
  /-- FMAX_I64 (R111). FP32 maximum with an immediate. -/
  | fmaxI64 (f : FI64)
  /-- FMAX_C64 (R111). FP32 maximum with a constant. -/
  | fmaxC64 (f : FC64)
  /-- DMIN (R111). FP64 minimum. -/
  | dmin (f : FA64)
  /-- DMAX (R111). FP64 maximum. -/
  | dmax (f : FA64)
  /-- FCMP_A64 (R112). FP32 comparison of two registers, writing 1 or 0. -/
  | fcmpA64 (f : FA64)
  /-- FCMP_C64 (R112). FP32 comparison with a constant. -/
  | fcmpC64 (f : FC64)
  /-- DCMP (R112). FP64 comparison, writing 1 or 0. -/
  | dcmp (f : FA64)
  /-- FCLASS (R113). Classifies an FP32 value into a one-hot mask. -/
  | fclass (f : FA64)
  /-- DCLASS (R113). Classifies an FP64 value into a one-hot mask. -/
  | dclass (f : FA64)
  /-- FRND (R114). Rounds an FP32 value to an integral value. -/
  | frnd (f : FA64)
  /-- DRND (R114). Rounds an FP64 value to an integral value. -/
  | drnd (f : FA64)
  /-- FSCALE (R115). Scales an FP32 value by a power of two. -/
  | fscale (f : FA64)
  /-- DSCALE (R115). Scales an FP64 value by a power of two. -/
  | dscale (f : FA64)
  /-- FRCP (R116). Correctly rounded reciprocal. -/
  | frcp (f : FA64)
  /-- FRSQ (R116). Correctly rounded reciprocal square root. -/
  | frsq (f : FA64)
  /-- FSQRT (R116). Correctly rounded square root. -/
  | fsqrt (f : FA64)
  /-- FDIV (R116). Correctly rounded division. -/
  | fdiv (f : FA64)
  /-- FEXP2 (R116). Correctly rounded power of two. -/
  | fexp2 (f : FA64)
  /-- FLOG2 (R116). Correctly rounded base-2 logarithm. -/
  | flog2 (f : FA64)
  /-- FSIN (R116). Correctly rounded sine of a half-turn argument. -/
  | fsin (f : FA64)
  /-- FCOS (R116). Correctly rounded cosine of a half-turn argument. -/
  | fcos (f : FA64)
  /-- HADD2 (R119). Packed 16-bit float add. -/
  | hadd2 (f : FA96)
  /-- HMUL2 (R119). Packed 16-bit float multiply. -/
  | hmul2 (f : FA96)
  /-- HFMA2 (R119). Packed 16-bit fused multiply-add. -/
  | hfma2 (f : FA96)
  /-- HMIN2 (R119). Packed 16-bit minimum. -/
  | hmin2 (f : FA96)
  /-- HMAX2 (R119). Packed 16-bit maximum. -/
  | hmax2 (f : FA96)
  /-- HCMP2 (R119). Packed 16-bit comparison. -/
  | hcmp2 (f : FA96)
  /-- HDOT2 (R120). Two-element 16-bit dot product added exactly to FP32. -/
  | hdot2 (f : FA96)
  /-- FCVT (R123). Converts between float formats. -/
  | fcvt (f : FA96)
  /-- F2I (R123). Converts a float to a saturated integer. -/
  | f2i (f : FA96)
  /-- I2F (R123). Converts an integer to a float. -/
  | i2f (f : FA96)
  /-- MFPACK (R125). Packs FP32 values into scaled mini-float elements. -/
  | mfpack (f : FA96)
  /-- MFUNPACK (R126). Unpacks mini-float elements into FP32 registers. -/
  | mfunpack (f : FA96)
  /-- BRA (R129). Branches to a PC-relative target after checking it. -/
  | bra (f : FB64)
  /-- CALL (R130). Branches and writes the link pair. -/
  | call (f : FB64)
  /-- BRX (R129). Branches to an address in a pair. -/
  | brx (f : FA64)
  /-- CALLX (R130). Calls through a pair and writes a link. -/
  | callx (f : FA64)
  /-- RET (R129). Returns through a link pair. -/
  | ret (f : FA64)
  /-- EXIT (R132). Stops the thread from issuing. -/
  | exit (f : FA64)
  /-- NOP (R132). Does nothing but retire. -/
  | nop (f : FA64)
  /-- GETS (R133). Reads a special register. -/
  | gets (f : FA64)
  /-- SETS (R134). Writes a special register at completion. -/
  | sets (f : FA64)
  /-- ICINV (R135). Invalidates instruction memory over a range and scope. -/
  | icinv (f : FA64)
  /-- ERET (R140). Leaves trap mode and resumes at EPC. -/
  | eret (f : FA64)
  /-- BKPT (R139). Halts under debug capture or raises BREAKPOINT. -/
  | bkpt (f : FA64)
  /-- TRAP (R139). Raises the SOFTWARE trap with a code. -/
  | trap (f : FI64)
  /-- SLEEP (R132). Delays the thread's next issue by n cycles. -/
  | sleep (f : FI64)
  /-- ADR (R131). Writes a PC-relative address to a pair. -/
  | adr (f : FI64)
  /-- LDS (R168). Loads 32, 64 or 128 bits from scratchpad. -/
  | lds (f : FM64)
  /-- LDS_NARROW (R168). Loads 8 or 16 bits from scratchpad with extension. -/
  | ldsNarrow (f : FM64)
  /-- STS (R168). Stores 32, 64 or 128 bits to scratchpad. -/
  | sts (f : FM64)
  /-- STS_NARROW (R168). Stores 8 or 16 bits to scratchpad. -/
  | stsNarrow (f : FM64)
  /-- LDC (R169). Loads a 32-bit word from a constant bank. -/
  | ldc (f : FM64)
  /-- LDC_B64 (R169). Loads a 64-bit value from a constant bank. -/
  | ldcB64 (f : FM64)
  /-- LDP (R322). Loads from a cohort peer's scratchpad. -/
  | ldp (f : FM64)
  /-- STP (R322). Stores to a cohort peer's scratchpad. -/
  | stp (f : FM64)
  /-- BINIT (R181). Initialises a buoy's expectations and clears it. -/
  | binit (f : FM64)
  /-- BEXP (R181). Sets or adds expected bytes of a buoy and tests the phase. -/
  | bexp (f : FM64)
  /-- BARR (R181). Releases and arrives at a buoy. -/
  | barr (f : FM64)
  /-- BWAIT (R182). Waits for a buoy phase and acquires. -/
  | bwait (f : FM64)
  /-- BTRY (R182). Tests a buoy phase without waiting. -/
  | btry (f : FM64)
  /-- SHFL (R175). Exchanges register values among lanes of a segment. -/
  | shfl (f : FA96)
  /-- VOTE (R176). Computes lane-mask votes over a segment. -/
  | vote (f : FA96)
  /-- REDW (R177). Reduces values over a segment. -/
  | redw (f : FA96)
  /-- SCANW (R177). Computes a prefix scan over a segment. -/
  | scanw (f : FA96)
  /-- MATCH (R176). Finds lanes with equal values in a segment. -/
  | matchL (f : FA96)
  /-- BAR (R178). Team barrier with cohort-scope release and acquire. -/
  | bar (f : FA96)
  /-- FENCES (R173). Orders the thread's scratchpad accesses as a release or acquire fence. -/
  | fences (f : FA96)
  /-- ATOMS (R171). Scratchpad atomic read-modify-write. -/
  | atoms (f : FA96)
  /-- CASS (R172). Scratchpad compare-and-swap. -/
  | cass (f : FA96)
  /-- ATOMP (R323). Atomic on a cohort peer's scratchpad. -/
  | atomp (f : FA96)
  /-- BARC (R324). Cohort barrier across the teams of a cohort. -/
  | barc (f : FA96)
  /-- CFENCE (R267). Orders the thread's earlier commands before its later ones. -/
  | cfence (f : FA96)
  /-- XBEGIN (R279). Opens or nests the team's transaction bracket. -/
  | xbegin (f : FA96)
  /-- XCOMMIT (R280). Closes a bracket level, committing at the outermost. -/
  | xcommit (f : FA96)
  /-- XABORT (R279). Aborts the open bracket with a code. -/
  | xabort (f : FA96)
  /-- XSTAT (R278). Reads the team's transaction word. -/
  | xstat (f : FA96)
  /-- TLEAD (R286). Returns the team leader or tests leadership. -/
  | tlead (f : FA96)
  /-- TARG (R394). Reads a task argument word or the task identifier. -/
  | targ (f : FA96)
  /-- TDEP (R394). Decrements a task's dependence count. -/
  | tdep (f : FA96)
  /-- TQRY (R394). Queries a task entry's state and count. -/
  | tqry (f : FA96)
  /-- TRACE (R472). Posts a TRACE record when tracing is on. -/
  | trace (f : FA96)
  /-- TZERO (R215). Zeroes a tile and sets its tag. -/
  | tzero (f : FA128)
  /-- TLOAD (R216). Loads a tile from scratchpad. -/
  | tload (f : FA128)
  /-- TSTORE (R216). Stores a tile to scratchpad. -/
  | tstore (f : FA128)
  /-- TMOVV_READ (R217). Reads a tile word into a register per thread. -/
  | tmovvRead (f : FA128)
  /-- TMOVV_WRITE (R217). Writes a register into a tile word per thread. -/
  | tmovvWrite (f : FA128)
  /-- TMOV (R217). Copies a tile with its side-band and tag. -/
  | tmov (f : FA128)
  /-- TTAG (R218). Reinterprets a tile's tag. -/
  | ttag (f : FA128)
  /-- TSTAT (R218). Reads a tile's tag and number. -/
  | tstat (f : FA128)
  /-- TFMT (R218). Writes an entry of the slot's format-record table. -/
  | tfmt (f : FA128)
  /-- TCVT (R219). Converts a tile into another format. -/
  | tcvt (f : FA128)
  /-- TSCALE (R220). Scales a tile by a power of two. -/
  | tscale (f : FA128)
  /-- TCHK (R221). Scrubs a tile through its ECC and reports. -/
  | tchk (f : FA128)
  /-- MMA (R223). Queues a real matrix multiply-accumulate step. -/
  | mma (f : FA128)
  /-- MMAC (R223). Queues a complex matrix multiply-accumulate step. -/
  | mmac (f : FA128)
  /-- MMA_G (R224). Enters the gang rendezvous for a real step. -/
  | mmaG (f : FA128)
  /-- MMAC_G (R224). Enters the gang rendezvous for a complex step. -/
  | mmacG (f : FA128)
  /-- DRAIN_S (R229). Converts an accumulator into scratchpad. -/
  | drainS (f : FA128)
  /-- DRAIN_H (R230). Hands a converted accumulator to the copy engine under a handle. -/
  | drainH (f : FA128)
  /-- DRAIN_ROUTE (R497). Hands a converted accumulator to a route table. -/
  | drainRoute (f : FA128)
  /-- SEAL (R238). Validates a record and enters it in the handle table. -/
  | seal (f : FA128)
  /-- UNSEAL (R240). Invalidates a handle. -/
  | unseal (f : FA128)
  /-- CPY (R246). Issues a tensor copy command. -/
  | cpy (f : FA128)
  /-- CPYG (R249). Issues a gather copy command. -/
  | cpyg (f : FA128)
  /-- CPYS (R250). Issues a scatter or reduction copy command. -/
  | cpys (f : FA128)
  /-- CPYF (R251). Issues a fill command. -/
  | cpyf (f : FA128)
  /-- CPYPF (R252). Issues a prefetch into the gather cache. -/
  | cpypf (f : FA128)
  /-- CPYRC (R253). Issues a re-encode of device-memory lines. -/
  | cpyrc (f : FA128)
  /-- CATOM (R254). Issues a device-memory atomic command. -/
  | catom (f : FA128)
  /-- CPYQ (R259). Queries a command's state and count. -/
  | cpyq (f : FA128)
  /-- CPYCAN (R260). Cancels a command by ticket. -/
  | cpycan (f : FA128)
  /-- CPYST (R271). Binds a ring stream command. -/
  | cpyst (f : FA128)
  /-- RINGACQ (R274). Requests a grant of the next ring chunk. -/
  | ringacq (f : FA128)
  /-- RINGREL (R275). Releases a ring chunk. -/
  | ringrel (f : FA128)
  /-- TURN (R290). Team barrier that attempts a tide turn at release. -/
  | turn (f : FA128)
  /-- LAUNCH (R386). Launches a child grid. -/
  | launch (f : FA128)
  /-- LAUNCH_J (R388). Launches a continuation grid. -/
  | launchJ (f : FA128)
  /-- TRIGGER (R390). Fixes the team's trigger set. -/
  | trigger (f : FA128)
  /-- TSPAWN (R393). Spawns a lane task into the task store. -/
  | tspawn (f : FA128)
  /-- FETCH_BLOCK_ARRIVAL (R143). An instruction fetch block arrives for a waiting thread. -/
  | fetchBlockArrival (thread : Nat) (wordError : Bool)
  /-- BARC_RELEASE (R324). The cluster barrier unit releases a cohort. -/
  | barcRelease (grid : Nat) (cohort : Nat)
  /-- INSTRUCTION_COMPLETION (R24). A long-latency instruction completes and decrements its flag. -/
  | instructionCompletion (thread : Nat) (entry : Nat)
  /-- EXIT_COMPLETION (R30). An exiting thread's flags reach 0 and it stops being live. -/
  | exitCompletion (thread : Nat)
  /-- BUOY_WAITER_SAMPLE (R182). A held BWAIT samples its buoy again after a write. -/
  | buoyWaiterSample (thread : Nat)
  /-- GANG_FIRE (R205). The ENG unit accepts a full gang pass. -/
  | gangFire (team : Nat) (latch : Nat)
  /-- STEP_START (R197). A queued matrix step starts its run on the array. -/
  | stepStart (core : Nat)
  /-- STEP_RUN_END (R197). A run ends and frees the array. -/
  | stepRunEnd (core : Nat)
  /-- STEP_COMPLETION (R197). A step writes its results, decrements its flag and adds counters. -/
  | stepCompletion (core : Nat)
  /-- COMMAND_ACCEPTANCE (R243). A copy command is accepted and its ticket written. -/
  | commandAcceptance (core : Nat) (cmd : Nat)
  /-- COMMAND_ACTIVATE (R257). A queued command becomes active on the copy engine. -/
  | commandActivate (core : Nat)
  /-- POSITION_PERFORMED (R246). The copy engine performs a command's positions. -/
  | positionPerformed (core : Nat) (cmd : Nat)
  /-- RING_CHUNK_START (R273). The engine starts the next ring chunk. -/
  | ringChunkStart (core : Nat) (cmd : Nat)
  /-- XCOMMIT_COMPLETE (R280). An outermost commit performs or discards the held writes. -/
  | xcommitComplete (team : Nat)
  /-- TEAM_PLACEMENT (R383). The dispatcher places a team or cohort in free slots. -/
  | teamPlacement (grid : Nat)
  /-- TURN_SUCCESSION (R292). A successful turn scrubs and creates successor threads once non-crossing commands are gone. -/
  | turnSuccession (team : Nat)
  /-- TEAM_SAVE (R299). A team stops issuing and begins a pre-emption save. -/
  | teamSave (team : Nat)
  /-- TEAM_SAVE_COMPLETE (R299). A save image is written and the slot scrubbed. -/
  | teamSaveComplete (team : Nat)
  /-- TEAM_RESUME (R305). A saved team is restored into a slot. -/
  | teamResume (team : Nat)
  /-- TEAM_KILL (R306). A team is killed and its commands cancelled. -/
  | teamKill (team : Nat)
  /-- RETENTION_END (R327). A cohort's retained regions are scrubbed and released. -/
  | retentionEnd (team : Nat)
  /-- HOST_RECORD_READ (R382). The I/O die reads a launch record from a host queue. -/
  | hostRecordRead (part : Nat)
  /-- PROGRESS_TIMER_EXPIRY (R385). The progress timer expires and a resident cohort is saved. -/
  | progressTimerExpiry (grid : Nat)
  /-- QUIESCENCE_SAMPLE (R397). The I/O die samples grid idle signals and message counts. -/
  | quiescenceSample (grid : Nat)
  /-- CHILD_START (R389). A child grid's first team is placed after the launcher's commands are gone. -/
  | childStart (grid : Nat)
  /-- CONTINUATION_START (R388). A continuation starts after earlier children complete. -/
  | continuationStart (grid : Nat)
  /-- TRIGGER_POINT (R390). A team's trigger set is gone and it releases at device scope. -/
  | triggerPoint (team : Nat)
  /-- TASK_THREAD_CREATE (R395). A READY task becomes a thread in a free lane slot. -/
  | taskThreadCreate (core : Nat)
  /-- WATCHDOG_EXPIRY (R448). A queue watchdog expires and starts partition recovery. -/
  | watchdogExpiry (queue : Nat)
  /-- RECOVERY_RESUME (R448). After the drain, the partition is reset and resumed. -/
  | recoveryResume (part : Nat)
  /-- SHOOTDOWN_COMPLETE (R367). A shootdown finishes and SHOOTSEQ increments. -/
  | shootdownComplete (part : Nat)
  /-- PROMOTION_COMPLETE (R372). A promotion writes the leaf and sends PROMOTED. -/
  | promotionComplete (part : Nat)
  /-- BOOT (R452). The security processor verifies firmware and boots the package. -/
  | boot (badCores : List Nat) (badLinks : List Nat)
  /-- TILE_FIRE (R499). A ready route tile fires in its round. -/
  | tileFire (team : Nat) (handle : Nat) (tile : Nat)
  /-- SLOT_COMPLETE_REDUCE (R501). Landed contributions are reduced into the result. -/
  | slotCompleteReduce (team : Nat) (handle : Nat) (tile : Nat)
  /-- RECONFIGURATION_DONE (R148). A core's reconfiguration ends with the bank images loaded and the new configuration word written, so its threads may issue. -/
  | reconfigurationDone (core : Nat)
  /-- KEY_OPERATION_DONE (R441). A KEYCTL generate or clear finishes its flush and erasure, clearing BUSY and setting STATUS. -/
  | keyOperationDone (part : Nat)
  /-- REPORT_WRITTEN (R454). An attestation report finishes being signed and written, and ATTCTL BUSY clears or ERR is set. -/
  | reportWritten (part : Nat)
  /-- CONVERGENCE_ARRIVAL (R156). A thread arrives at a collective, BAR, BARC or TURN and is held. -/
  | convergenceArrival (thread : Nat)
  /-- COLLECTIVE_RELEASE (R157). A wave's collective is released as one issue set. -/
  | collectiveRelease (team : Nat) (wave : Nat)
  /-- BAR_RELEASE (R157). A team barrier releases and issues for all participants. -/
  | barRelease (team : Nat)
  /-- GANG_ARRIVAL (R204). A wave arrives at a gang rendezvous latch. -/
  | gangArrival (thread : Nat)
  /-- CHECKSUM_COMPARE (R201). A run's checksum residues are compared. -/
  | checksumCompare (core : Nat) (mismatch : Bool)
  /-- L2_EVICTION (R350). A slice evicts a line, encoding and writing it if modified. -/
  | l2Eviction (die : Nat) (line : Nat)
  /-- EPOCH_SERVE_REQUEST (R423). A die writes back visitor lines up to a requested epoch. -/
  | epochServeRequest (die : Nat) (part : Nat) (epoch : Nat)
  /-- QCTL_WRITE (R374). Writes a queue's control, enabling it if valid. -/
  | qctlWrite (queue : Nat) (value : Nat)
  /-- DOORBELL_WRITE (R375). Writes a queue's tail index. -/
  | doorbellWrite (queue : Nat) (value : Nat)
  /-- QWDOG_WRITE (R446). Writes a queue's watchdog limit or clears FIRED. -/
  | qwdogWrite (queue : Nat) (value : Nat)
  /-- REGISTER_WRITE (R8). Writes a register that has no behaviour of its own. -/
  | registerWrite (addr : Nat) (value : Nat)
  /-- SHOOTDOWN_START (R367). A SHOOTLEN write starts a TLB shootdown. -/
  | shootdownStart (part : Nat) (value : Nat)
  /-- PROMOFREE_WRITE (R363). Adds a free 2 MiB block to the promotion list. -/
  | promofreeWrite (part : Nat) (value : Nat)
  /-- PROMOTION_START (R371). The walker begins promoting a region to a 2 MiB page. -/
  | promotionStart (part : Nat) (va : Nat)
  /-- FAULTRESP_RESUME (R370). Re-walks and resumes commands parked on a page. -/
  | faultrespResume (part : Nat) (value : Nat)
  /-- FAULTRESP_FAIL (R370). Fails the command named by a FAULTID. -/
  | faultrespFail (part : Nat) (value : Nat)
  /-- MGMT_READ_REQUEST (R435). A management read request is served. -/
  | mgmtReadRequest (datagram : List Byte)
  /-- MGMT_WRITE_REQUEST (R435). A management write request is served. -/
  | mgmtWriteRequest (datagram : List Byte)
  /-- PARTCTL_CREATE (R438). Creates a partition. -/
  | partctlCreate (value : Nat)
  /-- PARTCTL_TEARDOWN (R438). Tears down a partition. -/
  | partctlTeardown (value : Nat)
  /-- PGRANT_WRITE (R439). Grants or releases memory blocks, scrubbing released ones. -/
  | pgrantWrite (part : Nat) (word : Nat) (value : Nat)
  /-- KEYCTL_GEN (R441). Generates a job key in an empty slot. -/
  | keyctlGen (part : Nat) (value : Nat)
  /-- KEYCTL_CLEAR (R441). Flushes lines of a key slot and erases the key. -/
  | keyctlClear (part : Nat) (value : Nat)
  /-- SAVEREQ_WRITE (R440). Requests a save of a team and its cohort. -/
  | savereqWrite (part : Nat) (value : Nat)
  /-- OWNERKEY_WRITE (R437). Writes the owner key, burning it at the last word. -/
  | ownerkeyWrite (word : Nat) (value : Nat)
  /-- PKGRESET (R437). Resets the package. -/
  | pkgreset (value : Nat)
  /-- FWCTL_COMMIT (R451). Makes the next boot try the inactive bank first. -/
  | fwctlCommit (value : Nat)
  /-- PACKAGE_REPORT_START (R454). Writes a signed package attestation report. -/
  | packageReportStart (value : Nat)
  /-- PARTITION_REPORT_START (R454). Writes a signed partition report to a page. -/
  | partitionReportStart (part : Nat) (value : Nat)
  /-- CONNCMD_STORE (R484). Stores a connection context. -/
  | conncmdStore (value : Nat)
  /-- CONNCMD_LOAD (R484). Loads a connection context into CONNCTX. -/
  | conncmdLoad (value : Nat)
  /-- DBGCTL_WRITE (R459). Writes debug control, ignoring forbidden changes. -/
  | dbgctlWrite (part : Nat) (value : Nat)
  /-- DBGCMD_HALT (R468). Halts every thread of the target team. -/
  | dbgcmdHalt (part : Nat) (value : Nat)
  /-- DBGCMD_RESUME (R468). Lets halted threads of the team run on. -/
  | dbgcmdResume (part : Nat) (value : Nat)
  /-- DBGCMD_STEP (R469). Steps halted threads by one issue set. -/
  | dbgcmdStep (part : Nat) (value : Nat)
  /-- DBGCMD_GO (R468). Ends a tidemark hold. -/
  | dbgcmdGo (part : Nat) (value : Nat)
  /-- DBGCMD_ROLLBACK (R464). Rolls the partition back to the current tidemark. -/
  | dbgcmdRollback (part : Nat) (value : Nat)
  /-- DBGCMD_ARMSTOP (R465). Arms a precise stop at a retired-work count. -/
  | dbgcmdArmstop (part : Nat) (value : Nat)
  /-- CLUSTER_IDLE_TIMEOUT (R455). An idle cluster enters a gated state. -/
  | clusterIdleTimeout (cluster : Nat)
  /-- POWER_STATE_ENTRY (R456). An idle package enters the deepest allowed power state. -/
  | powerStateEntry (state : Nat)
  /-- WAKE (R457). A request wakes the package and clusters. -/
  | wake (reason : Nat)
  /-- CLOCK_STEP (R458). Every 1 ms a die steps its clock against the power limit. -/
  | clockStep (die : Nat)
  /-- THERMAL_EVENT (R458). Junction temperature holds a die at step 8 or powers off. -/
  | thermalEvent (die : Nat) (celsius : Nat)
  /-- LINK_CRC_FAILURE (R434). A flit CRC fails, is resent, and may take the link down. -/
  | linkCrcFailure (link : Nat) (toDie : Nat) (resendFails : Bool)
  /-- RDMA_WRITE_IN (R487). An inbound RDMA WRITE is checked and performed. -/
  | rdmaWriteIn (conn : Nat) (rkey : Nat) (addr : Nat) (data : List Byte)
  /-- RDMA_READ_IN (R488). An inbound RDMA READ is answered from home. -/
  | rdmaReadIn (conn : Nat) (rkey : Nat) (addr : Nat) (len : Nat)
  /-- SEND_DOORBELL_BATCH (R488). An inbound SEND performs doorbell writes. -/
  | sendDoorbellBatch (conn : Nat) (data : List Byte)
  /-- FETCH_ADD_IN (R491). An inbound 64-bit FETCH_ADD is performed. -/
  | fetchAddIn (conn : Nat) (rkey : Nat) (addr : Nat) (value : Nat)
  /-- CMP_SWAP_IN (R491). An inbound 64-bit CMP_SWAP is performed. -/
  | cmpSwapIn (conn : Nat) (rkey : Nat) (addr : Nat) (compare : Nat) (swap : Nat)
  /-- WRITE_IMM_LANDING (R504). An inbound WRITE with immediate lands in a landing window. -/
  | writeImmLanding (conn : Nat) (rkey : Nat) (addr : Nat) (imm : Nat) (data : List Byte)
  /-- INVALID_REQUEST_IN (R483). An unsupported inbound opcode is NAKed and errors the connection. -/
  | invalidRequestIn (conn : Nat) (opcode : Nat)
  /-- FABRIC_RESPONSE (R490). An acknowledgement or read response performs fabric positions. -/
  | fabricResponse (conn : Nat) (data : List Byte)
  /-- ACK_TIMEOUT (R486). An ack timeout retries or puts the connection in error. -/
  | ackTimeout (conn : Nat)
  /-- CNP_RECEIVED (R482). A congestion notification halves a connection's rate. -/
  | cnpReceived (conn : Nat)
  /-- ENGINE_RESET (R281). An engine reset fails bracketed and running commands with reason RESET and aborts open brackets. -/
  | engineReset (core : Nat)
  /-- RDMA_NAK_RECEIVED (R492). A NAK arrives for a request the device sent, stopping or failing the command and possibly erroring the connection. -/
  | rdmaNakReceived (conn : Nat) (kind : Nat)
  /-- PFC_PAUSE_FRAME (R482). A priority flow control frame received on a port pauses or resumes sending on that priority. -/
  | pfcPauseFrame (port : Nat) (priority : Nat) (pause : Bool)
  /-- PORT_LINK_STATE_CHANGE (R482). An Ethernet port trains to its medium or loses its link. -/
  | portLinkStateChange (port : Nat) (up : Bool)
  /-- PARTITION_OPERATION_DONE (R438). A PARTCTL create or teardown finishes, clearing BUSY and setting STATUS. -/
  | partitionOperationDone
  deriving DecidableEq, Repr

end Sys2Proof
end

