-- ==== Sys2Proof/Decode.lean ====
section
/-! DEFINITION. The decoder of 03 R61 to R77, total on any words, and the encoder written from the same
tables. An encoding that R77 details 0x04 to 0x08 make illegal still decodes to the instruction that
raises ILLEGAL-INSTRUCTION; details 0x01 to 0x03 name no instruction. -/

namespace Sys2Proof

/-- The eight formats with their fields (03 R69). -/
inductive Form where
  | a64 (f : FA64) | i64 (f : FI64) | c64 (f : FC64) | m64 (f : FM64) | b64 (f : FB64)
  | a96 (f : FA96) | i96 (f : FI96) | a128 (f : FA128)
  deriving DecidableEq, Repr

/-- The field of `n` bits at bit `lo` of a word (03 R69). -/
def fld (w : Word) (lo n : Nat) : BitVec n := w.extractLsb' lo n

/-- The common prefix of a first word: length code, opcode, distance and wait mask (03 R65). -/
def headBits (hi : BitVec 6) (wait : BitVec 12) (dist : BitVec 3) (opc : BitVec 9) (len : BitVec 2) : Word :=
  hi ++ wait ++ dist ++ opc ++ len

/-- The A64 fields of two words (03 R69). -/
def readA64 (w0 w1 : Word) : FA64 :=
  { wait := fld w0 14 12, dist := fld w0 11 3, set := fld w0 26 4, mod := fld w0 30 2 ++ fld w1 24 8,
    vb := fld w1 16 8, va := fld w1 8 8, vd := fld w1 0 8 }

/-- The I64 fields of two words (03 R69). -/
def readI64 (w0 w1 : Word) : FI64 :=
  { wait := fld w0 14 12, dist := fld w0 11 3, m := fld w0 30 2, imm := fld w0 26 4 ++ fld w1 16 16,
    va := fld w1 8 8, vd := fld w1 0 8 }

/-- The C64 fields of two words (03 R69). -/
def readC64 (w0 w1 : Word) : FC64 :=
  { wait := fld w0 14 12, dist := fld w0 11 3, mod := fld w0 26 6, bank := fld w1 30 2, woff := fld w1 16 14,
    va := fld w1 8 8, vd := fld w1 0 8 }

/-- The M64 fields of two words (03 R69). -/
def readM64 (w0 w1 : Word) : FM64 :=
  { wait := fld w0 14 12, dist := fld w0 11 3, set := fld w0 26 4, mod := fld w0 30 2, off := fld w1 16 16,
    va := fld w1 8 8, vd := fld w1 0 8 }

/-- The B64 fields of two words (03 R69). -/
def readB64 (w0 w1 : Word) : FB64 :=
  { wait := fld w0 14 12, dist := fld w0 11 3, link := fld w0 26 6, off := fld w1 8 24, pol := fld w1 7 1,
    guard := fld w1 0 7 }

/-- The A96 fields of three words (03 R69). -/
def readA96 (w0 w1 w2 : Word) : FA96 :=
  { wait := fld w0 14 12, dist := fld w0 11 3, set := fld w0 26 4,
    mod := fld w2 16 16 ++ fld w0 30 2 ++ fld w1 24 8,
    vb := fld w1 16 8, va := fld w1 8 8, vd := fld w1 0 8,
    pol := fld w2 15 1, guard := fld w2 8 7, vc := fld w2 0 8 }

/-- The I96 fields of three words (03 R69). -/
def readI96 (w0 w1 w2 : Word) : FI96 :=
  { wait := fld w0 14 12, dist := fld w0 11 3, set := fld w0 26 4, mod := fld w0 30 2,
    pol := fld w1 31 1, guard := fld w1 24 7, vb := fld w1 16 8, va := fld w1 8 8, vd := fld w1 0 8, lit := w2 }

/-- The A128 fields of four words (03 R69). -/
def readA128 (w0 w1 w2 w3 : Word) : FA128 :=
  { wait := fld w0 14 12, dist := fld w0 11 3, set := fld w0 26 4, mod := fld w2 16 16 ++ fld w0 30 2,
    vc := fld w1 24 8, vb := fld w1 16 8, va := fld w1 8 8, vd := fld w1 0 8,
    pol := fld w2 15 1, guard := fld w2 8 7, ve := fld w2 0 8, x := w3 }

/-- TMOVV with MOD[0] = 0 reads a tile, with MOD[0] = 1 writes one (10 R217). -/
def ofTmovvRead (f : FA128) : Instr := if f.mod.getLsbD 0 then .tmovvWrite f else .tmovvRead f

/-- MMA with MOD[1] = 1 is the gang form MMA.G (10 R222). -/
def ofMma (f : FA128) : Instr := if f.mod.getLsbD 1 then .mmaG f else .mma f

/-- MMAC with MOD[1] = 1 is the gang form MMAC.G (10 R222). -/
def ofMmac (f : FA128) : Instr := if f.mod.getLsbD 1 then .mmacG f else .mmac f

/-- DRAIN's destination is X[24:23]: 0 scratchpad, 1 device memory, 2 route (10 R226). The reserved value 3
reads as the scratchpad form, which raises ILLEGAL-INSTRUCTION with DETAIL 0x08. -/
def ofDrainS (f : FA128) : Instr :=
  if f.x.extractLsb' 23 2 = 1#2 then .drainH f else if f.x.extractLsb' 23 2 = 2#2 then .drainRoute f else .drainS f

/-- LAUNCH with MOD[0] = 1 is the continuation form LAUNCH.J (19 R386, R388). -/
def ofLaunch (f : FA128) : Instr := if f.mod.getLsbD 0 then .launchJ f else .launch f

/-- The operations of the A64 opcodes in ascending order from 0x000 (03 R76). -/
def tableA64 : List (FA64 → Instr) :=
  [.iaddA64, .isub, .iaddc, .iadd64, .isub64, .imulA64, .imulh, .imulw] ++
  [.iminA64, .imaxA64, .iabs, .ineg, .icmpA64, .icmp64, .lopA64, .shlA64] ++
  [.shrA64, .rolA64, .rorA64, .bfe, .bmsk, .popc, .clz, .ctz] ++
  [.brev, .lea, .movA64, .icvt, .faddA64, .fsub, .fmulA64, .fminA64] ++
  [.fmaxA64, .fcmpA64, .fclass, .frnd, .frcp, .frsq, .fsqrt, .fdiv] ++
  [.fexp2, .flog2, .fsin, .fcos, .daddA64, .dsub, .dmulA64, .dcmp] ++
  [.dmin, .dmax, .drnd, .dclass, .fscale, .dscale, .brx, .callx] ++
  [.ret, .exit, .nop, .gets, .sets, .icinv, .eret, .bkpt]

/-- The operations of the I64 opcodes in ascending order from 0x040 (03 R76). -/
def tableI64 : List (FI64 → Instr) :=
  [.iaddI64, .imulI64, .imadI64, .iminI64, .imaxI64, .lopI64, .shlI64, .shrI64] ++
  [.rolI64, .rorI64, .movI64, .faddI64, .fmulI64, .ffmaI64, .fminI64, .fmaxI64] ++
  [.trap, .sleep, .adr]

/-- The operations of the C64 opcodes in ascending order from 0x080 (03 R76). -/
def tableC64 : List (FC64 → Instr) :=
  [.iaddC64, .imulC64, .imadC64, .icmpC64, .lopC64, .movC64, .faddC64, .fmulC64] ++
  [.ffmaC64, .fminC64, .fmaxC64, .fcmpC64, .daddC64, .dmulC64, .dfmaC64]

/-- The operations of the M64 opcodes in ascending order from 0x0C0 (03 R76). -/
def tableM64 : List (FM64 → Instr) :=
  [.lds, .ldsNarrow, .sts, .stsNarrow, .ldc, .ldcB64, .ldp, .stp] ++
  [.binit, .bexp, .barr, .bwait, .btry]

/-- The operations of the B64 opcodes in ascending order from 0x100 (03 R76). -/
def tableB64 : List (FB64 → Instr) :=
  [.bra, .call]

/-- The operations of the A96 opcodes in ascending order from 0x140 (03 R76). -/
def tableA96 : List (FA96 → Instr) :=
  [.iadd3, .imadA96, .imadw, .iclamp, .sel, .lut3, .fshl, .fshr] ++
  [.bfi, .bsel, .idot, .sad, .ffmaA96, .dfmaA96, .hadd2, .hmul2] ++
  [.hfma2, .hmin2, .hmax2, .hcmp2, .hdot2, .fcvt, .f2i, .i2f] ++
  [.mfpack, .mfunpack, .shfl, .vote, .redw, .scanw, .matchL, .bar] ++
  [.fences, .atoms, .cass, .atomp, .barc, .cfence, .xbegin, .xcommit] ++
  [.xabort, .xstat, .tlead, .targ, .tdep, .tqry, .trace]

/-- The operations of the I96 opcodes in ascending order from 0x180 (03 R76). -/
def tableI96 : List (FI96 → Instr) :=
  [.iaddI96, .imulI96, .imadI96, .lopI96, .movI96, .faddI96, .fmulI96, .ffmaI96]

/-- The operations of the A128 opcodes in ascending order from 0x1C0 (03 R76). -/
def tableA128 : List (FA128 → Instr) :=
  [.tzero, .tload, .tstore, ofTmovvRead, .tmov, .ttag, .tstat, .tfmt] ++
  [.tcvt, .tscale, ofMma, ofMmac, ofDrainS, .tchk, .seal, .unseal] ++
  [.cpy, .cpyg, .cpys, .cpyf, .cpypf, .cpyrc, .catom, .cpyq] ++
  [.cpycan, .cpyst, .ringacq, .ringrel, .turn, ofLaunch, .trigger, .tspawn]

/-- The opcode of each instruction (03 R76); event rows have none. -/
def opcodeOf : Instr → Option Nat
  | .iaddA64 _ => some 0x000
  | .iaddI64 _ => some 0x040
  | .iaddC64 _ => some 0x080
  | .iaddI96 _ => some 0x180
  | .isub _ => some 0x001
  | .iaddc _ => some 0x002
  | .iadd3 _ => some 0x140
  | .iadd64 _ => some 0x003
  | .isub64 _ => some 0x004
  | .iabs _ => some 0x00A
  | .ineg _ => some 0x00B
  | .imulA64 _ => some 0x005
  | .imulI64 _ => some 0x041
  | .imulC64 _ => some 0x081
  | .imulI96 _ => some 0x181
  | .imulh _ => some 0x006
  | .imulw _ => some 0x007
  | .imadA96 _ => some 0x141
  | .imadI64 _ => some 0x042
  | .imadC64 _ => some 0x082
  | .imadI96 _ => some 0x182
  | .imadw _ => some 0x142
  | .iminA64 _ => some 0x008
  | .iminI64 _ => some 0x043
  | .imaxA64 _ => some 0x009
  | .imaxI64 _ => some 0x044
  | .iclamp _ => some 0x143
  | .icmpA64 _ => some 0x00C
  | .icmpC64 _ => some 0x083
  | .icmp64 _ => some 0x00D
  | .sel _ => some 0x144
  | .lopA64 _ => some 0x00E
  | .lopI64 _ => some 0x045
  | .lopC64 _ => some 0x084
  | .lopI96 _ => some 0x183
  | .lut3 _ => some 0x145
  | .shlA64 _ => some 0x00F
  | .shlI64 _ => some 0x046
  | .shrA64 _ => some 0x010
  | .shrI64 _ => some 0x047
  | .rolA64 _ => some 0x011
  | .rolI64 _ => some 0x048
  | .rorA64 _ => some 0x012
  | .rorI64 _ => some 0x049
  | .fshl _ => some 0x146
  | .fshr _ => some 0x147
  | .bfe _ => some 0x013
  | .bfi _ => some 0x148
  | .bmsk _ => some 0x014
  | .popc _ => some 0x015
  | .clz _ => some 0x016
  | .ctz _ => some 0x017
  | .brev _ => some 0x018
  | .bsel _ => some 0x149
  | .lea _ => some 0x019
  | .idot _ => some 0x14A
  | .sad _ => some 0x14B
  | .movA64 _ => some 0x01A
  | .movI64 _ => some 0x04A
  | .movC64 _ => some 0x085
  | .movI96 _ => some 0x184
  | .icvt _ => some 0x01B
  | .faddA64 _ => some 0x01C
  | .faddI64 _ => some 0x04B
  | .faddC64 _ => some 0x086
  | .faddI96 _ => some 0x185
  | .fsub _ => some 0x01D
  | .fmulA64 _ => some 0x01E
  | .fmulI64 _ => some 0x04C
  | .fmulC64 _ => some 0x087
  | .fmulI96 _ => some 0x186
  | .ffmaA96 _ => some 0x14C
  | .ffmaI64 _ => some 0x04D
  | .ffmaC64 _ => some 0x088
  | .ffmaI96 _ => some 0x187
  | .daddA64 _ => some 0x02C
  | .daddC64 _ => some 0x08C
  | .dsub _ => some 0x02D
  | .dmulA64 _ => some 0x02E
  | .dmulC64 _ => some 0x08D
  | .dfmaA96 _ => some 0x14D
  | .dfmaC64 _ => some 0x08E
  | .fminA64 _ => some 0x01F
  | .fminI64 _ => some 0x04E
  | .fminC64 _ => some 0x089
  | .fmaxA64 _ => some 0x020
  | .fmaxI64 _ => some 0x04F
  | .fmaxC64 _ => some 0x08A
  | .dmin _ => some 0x030
  | .dmax _ => some 0x031
  | .fcmpA64 _ => some 0x021
  | .fcmpC64 _ => some 0x08B
  | .dcmp _ => some 0x02F
  | .fclass _ => some 0x022
  | .dclass _ => some 0x033
  | .frnd _ => some 0x023
  | .drnd _ => some 0x032
  | .fscale _ => some 0x034
  | .dscale _ => some 0x035
  | .frcp _ => some 0x024
  | .frsq _ => some 0x025
  | .fsqrt _ => some 0x026
  | .fdiv _ => some 0x027
  | .fexp2 _ => some 0x028
  | .flog2 _ => some 0x029
  | .fsin _ => some 0x02A
  | .fcos _ => some 0x02B
  | .hadd2 _ => some 0x14E
  | .hmul2 _ => some 0x14F
  | .hfma2 _ => some 0x150
  | .hmin2 _ => some 0x151
  | .hmax2 _ => some 0x152
  | .hcmp2 _ => some 0x153
  | .hdot2 _ => some 0x154
  | .fcvt _ => some 0x155
  | .f2i _ => some 0x156
  | .i2f _ => some 0x157
  | .mfpack _ => some 0x158
  | .mfunpack _ => some 0x159
  | .bra _ => some 0x100
  | .call _ => some 0x101
  | .brx _ => some 0x036
  | .callx _ => some 0x037
  | .ret _ => some 0x038
  | .exit _ => some 0x039
  | .nop _ => some 0x03A
  | .gets _ => some 0x03B
  | .sets _ => some 0x03C
  | .icinv _ => some 0x03D
  | .eret _ => some 0x03E
  | .bkpt _ => some 0x03F
  | .trap _ => some 0x050
  | .sleep _ => some 0x051
  | .adr _ => some 0x052
  | .lds _ => some 0x0C0
  | .ldsNarrow _ => some 0x0C1
  | .sts _ => some 0x0C2
  | .stsNarrow _ => some 0x0C3
  | .ldc _ => some 0x0C4
  | .ldcB64 _ => some 0x0C5
  | .ldp _ => some 0x0C6
  | .stp _ => some 0x0C7
  | .binit _ => some 0x0C8
  | .bexp _ => some 0x0C9
  | .barr _ => some 0x0CA
  | .bwait _ => some 0x0CB
  | .btry _ => some 0x0CC
  | .shfl _ => some 0x15A
  | .vote _ => some 0x15B
  | .redw _ => some 0x15C
  | .scanw _ => some 0x15D
  | .matchL _ => some 0x15E
  | .bar _ => some 0x15F
  | .fences _ => some 0x160
  | .atoms _ => some 0x161
  | .cass _ => some 0x162
  | .atomp _ => some 0x163
  | .barc _ => some 0x164
  | .cfence _ => some 0x165
  | .xbegin _ => some 0x166
  | .xcommit _ => some 0x167
  | .xabort _ => some 0x168
  | .xstat _ => some 0x169
  | .tlead _ => some 0x16A
  | .targ _ => some 0x16B
  | .tdep _ => some 0x16C
  | .tqry _ => some 0x16D
  | .trace _ => some 0x16E
  | .tzero _ => some 0x1C0
  | .tload _ => some 0x1C1
  | .tstore _ => some 0x1C2
  | .tmovvRead _ => some 0x1C3
  | .tmovvWrite _ => some 0x1C3
  | .tmov _ => some 0x1C4
  | .ttag _ => some 0x1C5
  | .tstat _ => some 0x1C6
  | .tfmt _ => some 0x1C7
  | .tcvt _ => some 0x1C8
  | .tscale _ => some 0x1C9
  | .tchk _ => some 0x1CD
  | .mma _ => some 0x1CA
  | .mmac _ => some 0x1CB
  | .mmaG _ => some 0x1CA
  | .mmacG _ => some 0x1CB
  | .drainS _ => some 0x1CC
  | .drainH _ => some 0x1CC
  | .drainRoute _ => some 0x1CC
  | .seal _ => some 0x1CE
  | .unseal _ => some 0x1CF
  | .cpy _ => some 0x1D0
  | .cpyg _ => some 0x1D1
  | .cpys _ => some 0x1D2
  | .cpyf _ => some 0x1D3
  | .cpypf _ => some 0x1D4
  | .cpyrc _ => some 0x1D5
  | .catom _ => some 0x1D6
  | .cpyq _ => some 0x1D7
  | .cpycan _ => some 0x1D8
  | .cpyst _ => some 0x1D9
  | .ringacq _ => some 0x1DA
  | .ringrel _ => some 0x1DB
  | .turn _ => some 0x1DC
  | .launch _ => some 0x1DD
  | .launchJ _ => some 0x1DD
  | .trigger _ => some 0x1DE
  | .tspawn _ => some 0x1DF
  | .fetchBlockArrival _ _ => none
  | .convergenceArrival _ => none
  | .collectiveRelease _ _ => none
  | .barRelease _ => none
  | .barcRelease _ _ => none
  | .instructionCompletion _ _ => none
  | .exitCompletion _ => none
  | .buoyWaiterSample _ => none
  | .gangArrival _ => none
  | .gangFire _ _ => none
  | .stepStart _ => none
  | .stepRunEnd _ => none
  | .checksumCompare _ _ => none
  | .stepCompletion _ => none
  | .commandAcceptance _ _ => none
  | .commandActivate _ => none
  | .positionPerformed _ _ => none
  | .ringChunkStart _ _ => none
  | .xcommitComplete _ => none
  | .l2Eviction _ _ => none
  | .epochServeRequest _ _ _ => none
  | .teamPlacement _ => none
  | .turnSuccession _ => none
  | .teamSave _ => none
  | .teamSaveComplete _ => none
  | .teamResume _ => none
  | .teamKill _ => none
  | .retentionEnd _ => none
  | .hostRecordRead _ => none
  | .progressTimerExpiry _ => none
  | .quiescenceSample _ => none
  | .childStart _ => none
  | .continuationStart _ => none
  | .triggerPoint _ => none
  | .taskThreadCreate _ => none
  | .qctlWrite _ _ => none
  | .doorbellWrite _ _ => none
  | .qwdogWrite _ _ => none
  | .watchdogExpiry _ => none
  | .recoveryResume _ => none
  | .registerWrite _ _ => none
  | .shootdownStart _ _ => none
  | .shootdownComplete _ => none
  | .promofreeWrite _ _ => none
  | .promotionStart _ _ => none
  | .promotionComplete _ => none
  | .faultrespResume _ _ => none
  | .faultrespFail _ _ => none
  | .mgmtReadRequest _ => none
  | .mgmtWriteRequest _ => none
  | .partctlCreate _ => none
  | .partctlTeardown _ => none
  | .pgrantWrite _ _ _ => none
  | .keyctlGen _ _ => none
  | .keyctlClear _ _ => none
  | .savereqWrite _ _ => none
  | .ownerkeyWrite _ _ => none
  | .pkgreset _ => none
  | .fwctlCommit _ => none
  | .packageReportStart _ => none
  | .partitionReportStart _ _ => none
  | .conncmdStore _ => none
  | .conncmdLoad _ => none
  | .dbgctlWrite _ _ => none
  | .dbgcmdHalt _ _ => none
  | .dbgcmdResume _ _ => none
  | .dbgcmdStep _ _ => none
  | .dbgcmdGo _ _ => none
  | .dbgcmdRollback _ _ => none
  | .dbgcmdArmstop _ _ => none
  | .boot _ _ => none
  | .clusterIdleTimeout _ => none
  | .powerStateEntry _ => none
  | .wake _ => none
  | .clockStep _ => none
  | .thermalEvent _ _ => none
  | .linkCrcFailure _ _ _ => none
  | .rdmaWriteIn _ _ _ _ => none
  | .rdmaReadIn _ _ _ _ => none
  | .sendDoorbellBatch _ _ => none
  | .fetchAddIn _ _ _ _ => none
  | .cmpSwapIn _ _ _ _ _ => none
  | .writeImmLanding _ _ _ _ _ => none
  | .invalidRequestIn _ _ => none
  | .fabricResponse _ _ => none
  | .ackTimeout _ => none
  | .cnpReceived _ => none
  | .tileFire _ _ _ => none
  | .slotCompleteReduce _ _ _ => none
  | .engineReset _ => none
  | .rdmaNakReceived _ _ => none
  | .pfcPauseFrame _ _ _ => none
  | .portLinkStateChange _ _ => none
  | .reconfigurationDone _ => none
  | .partitionOperationDone => none
  | .keyOperationDone _ => none
  | .reportWritten _ => none

/-- The fields of an instruction by format (03 R69); event rows have none. -/
def formOf : Instr → Option Form
  | .iaddA64 f => some (.a64 f)
  | .iaddI64 f => some (.i64 f)
  | .iaddC64 f => some (.c64 f)
  | .iaddI96 f => some (.i96 f)
  | .isub f => some (.a64 f)
  | .iaddc f => some (.a64 f)
  | .iadd3 f => some (.a96 f)
  | .iadd64 f => some (.a64 f)
  | .isub64 f => some (.a64 f)
  | .iabs f => some (.a64 f)
  | .ineg f => some (.a64 f)
  | .imulA64 f => some (.a64 f)
  | .imulI64 f => some (.i64 f)
  | .imulC64 f => some (.c64 f)
  | .imulI96 f => some (.i96 f)
  | .imulh f => some (.a64 f)
  | .imulw f => some (.a64 f)
  | .imadA96 f => some (.a96 f)
  | .imadI64 f => some (.i64 f)
  | .imadC64 f => some (.c64 f)
  | .imadI96 f => some (.i96 f)
  | .imadw f => some (.a96 f)
  | .iminA64 f => some (.a64 f)
  | .iminI64 f => some (.i64 f)
  | .imaxA64 f => some (.a64 f)
  | .imaxI64 f => some (.i64 f)
  | .iclamp f => some (.a96 f)
  | .icmpA64 f => some (.a64 f)
  | .icmpC64 f => some (.c64 f)
  | .icmp64 f => some (.a64 f)
  | .sel f => some (.a96 f)
  | .lopA64 f => some (.a64 f)
  | .lopI64 f => some (.i64 f)
  | .lopC64 f => some (.c64 f)
  | .lopI96 f => some (.i96 f)
  | .lut3 f => some (.a96 f)
  | .shlA64 f => some (.a64 f)
  | .shlI64 f => some (.i64 f)
  | .shrA64 f => some (.a64 f)
  | .shrI64 f => some (.i64 f)
  | .rolA64 f => some (.a64 f)
  | .rolI64 f => some (.i64 f)
  | .rorA64 f => some (.a64 f)
  | .rorI64 f => some (.i64 f)
  | .fshl f => some (.a96 f)
  | .fshr f => some (.a96 f)
  | .bfe f => some (.a64 f)
  | .bfi f => some (.a96 f)
  | .bmsk f => some (.a64 f)
  | .popc f => some (.a64 f)
  | .clz f => some (.a64 f)
  | .ctz f => some (.a64 f)
  | .brev f => some (.a64 f)
  | .bsel f => some (.a96 f)
  | .lea f => some (.a64 f)
  | .idot f => some (.a96 f)
  | .sad f => some (.a96 f)
  | .movA64 f => some (.a64 f)
  | .movI64 f => some (.i64 f)
  | .movC64 f => some (.c64 f)
  | .movI96 f => some (.i96 f)
  | .icvt f => some (.a64 f)
  | .faddA64 f => some (.a64 f)
  | .faddI64 f => some (.i64 f)
  | .faddC64 f => some (.c64 f)
  | .faddI96 f => some (.i96 f)
  | .fsub f => some (.a64 f)
  | .fmulA64 f => some (.a64 f)
  | .fmulI64 f => some (.i64 f)
  | .fmulC64 f => some (.c64 f)
  | .fmulI96 f => some (.i96 f)
  | .ffmaA96 f => some (.a96 f)
  | .ffmaI64 f => some (.i64 f)
  | .ffmaC64 f => some (.c64 f)
  | .ffmaI96 f => some (.i96 f)
  | .daddA64 f => some (.a64 f)
  | .daddC64 f => some (.c64 f)
  | .dsub f => some (.a64 f)
  | .dmulA64 f => some (.a64 f)
  | .dmulC64 f => some (.c64 f)
  | .dfmaA96 f => some (.a96 f)
  | .dfmaC64 f => some (.c64 f)
  | .fminA64 f => some (.a64 f)
  | .fminI64 f => some (.i64 f)
  | .fminC64 f => some (.c64 f)
  | .fmaxA64 f => some (.a64 f)
  | .fmaxI64 f => some (.i64 f)
  | .fmaxC64 f => some (.c64 f)
  | .dmin f => some (.a64 f)
  | .dmax f => some (.a64 f)
  | .fcmpA64 f => some (.a64 f)
  | .fcmpC64 f => some (.c64 f)
  | .dcmp f => some (.a64 f)
  | .fclass f => some (.a64 f)
  | .dclass f => some (.a64 f)
  | .frnd f => some (.a64 f)
  | .drnd f => some (.a64 f)
  | .fscale f => some (.a64 f)
  | .dscale f => some (.a64 f)
  | .frcp f => some (.a64 f)
  | .frsq f => some (.a64 f)
  | .fsqrt f => some (.a64 f)
  | .fdiv f => some (.a64 f)
  | .fexp2 f => some (.a64 f)
  | .flog2 f => some (.a64 f)
  | .fsin f => some (.a64 f)
  | .fcos f => some (.a64 f)
  | .hadd2 f => some (.a96 f)
  | .hmul2 f => some (.a96 f)
  | .hfma2 f => some (.a96 f)
  | .hmin2 f => some (.a96 f)
  | .hmax2 f => some (.a96 f)
  | .hcmp2 f => some (.a96 f)
  | .hdot2 f => some (.a96 f)
  | .fcvt f => some (.a96 f)
  | .f2i f => some (.a96 f)
  | .i2f f => some (.a96 f)
  | .mfpack f => some (.a96 f)
  | .mfunpack f => some (.a96 f)
  | .bra f => some (.b64 f)
  | .call f => some (.b64 f)
  | .brx f => some (.a64 f)
  | .callx f => some (.a64 f)
  | .ret f => some (.a64 f)
  | .exit f => some (.a64 f)
  | .nop f => some (.a64 f)
  | .gets f => some (.a64 f)
  | .sets f => some (.a64 f)
  | .icinv f => some (.a64 f)
  | .eret f => some (.a64 f)
  | .bkpt f => some (.a64 f)
  | .trap f => some (.i64 f)
  | .sleep f => some (.i64 f)
  | .adr f => some (.i64 f)
  | .lds f => some (.m64 f)
  | .ldsNarrow f => some (.m64 f)
  | .sts f => some (.m64 f)
  | .stsNarrow f => some (.m64 f)
  | .ldc f => some (.m64 f)
  | .ldcB64 f => some (.m64 f)
  | .ldp f => some (.m64 f)
  | .stp f => some (.m64 f)
  | .binit f => some (.m64 f)
  | .bexp f => some (.m64 f)
  | .barr f => some (.m64 f)
  | .bwait f => some (.m64 f)
  | .btry f => some (.m64 f)
  | .shfl f => some (.a96 f)
  | .vote f => some (.a96 f)
  | .redw f => some (.a96 f)
  | .scanw f => some (.a96 f)
  | .matchL f => some (.a96 f)
  | .bar f => some (.a96 f)
  | .fences f => some (.a96 f)
  | .atoms f => some (.a96 f)
  | .cass f => some (.a96 f)
  | .atomp f => some (.a96 f)
  | .barc f => some (.a96 f)
  | .cfence f => some (.a96 f)
  | .xbegin f => some (.a96 f)
  | .xcommit f => some (.a96 f)
  | .xabort f => some (.a96 f)
  | .xstat f => some (.a96 f)
  | .tlead f => some (.a96 f)
  | .targ f => some (.a96 f)
  | .tdep f => some (.a96 f)
  | .tqry f => some (.a96 f)
  | .trace f => some (.a96 f)
  | .tzero f => some (.a128 f)
  | .tload f => some (.a128 f)
  | .tstore f => some (.a128 f)
  | .tmovvRead f => some (.a128 f)
  | .tmovvWrite f => some (.a128 f)
  | .tmov f => some (.a128 f)
  | .ttag f => some (.a128 f)
  | .tstat f => some (.a128 f)
  | .tfmt f => some (.a128 f)
  | .tcvt f => some (.a128 f)
  | .tscale f => some (.a128 f)
  | .tchk f => some (.a128 f)
  | .mma f => some (.a128 f)
  | .mmac f => some (.a128 f)
  | .mmaG f => some (.a128 f)
  | .mmacG f => some (.a128 f)
  | .drainS f => some (.a128 f)
  | .drainH f => some (.a128 f)
  | .drainRoute f => some (.a128 f)
  | .seal f => some (.a128 f)
  | .unseal f => some (.a128 f)
  | .cpy f => some (.a128 f)
  | .cpyg f => some (.a128 f)
  | .cpys f => some (.a128 f)
  | .cpyf f => some (.a128 f)
  | .cpypf f => some (.a128 f)
  | .cpyrc f => some (.a128 f)
  | .catom f => some (.a128 f)
  | .cpyq f => some (.a128 f)
  | .cpycan f => some (.a128 f)
  | .cpyst f => some (.a128 f)
  | .ringacq f => some (.a128 f)
  | .ringrel f => some (.a128 f)
  | .turn f => some (.a128 f)
  | .launch f => some (.a128 f)
  | .launchJ f => some (.a128 f)
  | .trigger f => some (.a128 f)
  | .tspawn f => some (.a128 f)
  | .fetchBlockArrival _ _ => none
  | .convergenceArrival _ => none
  | .collectiveRelease _ _ => none
  | .barRelease _ => none
  | .barcRelease _ _ => none
  | .instructionCompletion _ _ => none
  | .exitCompletion _ => none
  | .buoyWaiterSample _ => none
  | .gangArrival _ => none
  | .gangFire _ _ => none
  | .stepStart _ => none
  | .stepRunEnd _ => none
  | .checksumCompare _ _ => none
  | .stepCompletion _ => none
  | .commandAcceptance _ _ => none
  | .commandActivate _ => none
  | .positionPerformed _ _ => none
  | .ringChunkStart _ _ => none
  | .xcommitComplete _ => none
  | .l2Eviction _ _ => none
  | .epochServeRequest _ _ _ => none
  | .teamPlacement _ => none
  | .turnSuccession _ => none
  | .teamSave _ => none
  | .teamSaveComplete _ => none
  | .teamResume _ => none
  | .teamKill _ => none
  | .retentionEnd _ => none
  | .hostRecordRead _ => none
  | .progressTimerExpiry _ => none
  | .quiescenceSample _ => none
  | .childStart _ => none
  | .continuationStart _ => none
  | .triggerPoint _ => none
  | .taskThreadCreate _ => none
  | .qctlWrite _ _ => none
  | .doorbellWrite _ _ => none
  | .qwdogWrite _ _ => none
  | .watchdogExpiry _ => none
  | .recoveryResume _ => none
  | .registerWrite _ _ => none
  | .shootdownStart _ _ => none
  | .shootdownComplete _ => none
  | .promofreeWrite _ _ => none
  | .promotionStart _ _ => none
  | .promotionComplete _ => none
  | .faultrespResume _ _ => none
  | .faultrespFail _ _ => none
  | .mgmtReadRequest _ => none
  | .mgmtWriteRequest _ => none
  | .partctlCreate _ => none
  | .partctlTeardown _ => none
  | .pgrantWrite _ _ _ => none
  | .keyctlGen _ _ => none
  | .keyctlClear _ _ => none
  | .savereqWrite _ _ => none
  | .ownerkeyWrite _ _ => none
  | .pkgreset _ => none
  | .fwctlCommit _ => none
  | .packageReportStart _ => none
  | .partitionReportStart _ _ => none
  | .conncmdStore _ => none
  | .conncmdLoad _ => none
  | .dbgctlWrite _ _ => none
  | .dbgcmdHalt _ _ => none
  | .dbgcmdResume _ _ => none
  | .dbgcmdStep _ _ => none
  | .dbgcmdGo _ _ => none
  | .dbgcmdRollback _ _ => none
  | .dbgcmdArmstop _ _ => none
  | .boot _ _ => none
  | .clusterIdleTimeout _ => none
  | .powerStateEntry _ => none
  | .wake _ => none
  | .clockStep _ => none
  | .thermalEvent _ _ => none
  | .linkCrcFailure _ _ _ => none
  | .rdmaWriteIn _ _ _ _ => none
  | .rdmaReadIn _ _ _ _ => none
  | .sendDoorbellBatch _ _ => none
  | .fetchAddIn _ _ _ _ => none
  | .cmpSwapIn _ _ _ _ _ => none
  | .writeImmLanding _ _ _ _ _ => none
  | .invalidRequestIn _ _ => none
  | .fabricResponse _ _ => none
  | .ackTimeout _ => none
  | .cnpReceived _ => none
  | .tileFire _ _ _ => none
  | .slotCompleteReduce _ _ _ => none
  | .engineReset _ => none
  | .rdmaNakReceived _ _ => none
  | .pfcPauseFrame _ _ _ => none
  | .portLinkStateChange _ _ => none
  | .reconfigurationDone _ => none
  | .partitionOperationDone => none
  | .keyOperationDone _ => none
  | .reportWritten _ => none

/-- What stands at a word that a PC reaches (03 R77). -/
inductive Decoded where
  /-- A pad word (03 R62). -/
  | pad
  /-- An instruction and its length in words. -/
  | instr (i : Instr) (words : Nat)
  /-- No instruction: DETAIL 0x01, 0x02 or 0x03 of R77. -/
  | illegal (detail : Nat)
  deriving DecidableEq, Repr

/-- The length code's number of words (03 R61); a pad word is one. -/
def lengthOf (w0 : Word) : Nat :=
  match (fld w0 0 2).toNat with
  | 0 => 2 | 1 => 3 | 2 => 4 | _ => 1

/-- The instruction of an opcode from its words (03 R68, R69, R76); `none` where the opcode is unassigned. -/
def instrOf (opc : Nat) (w0 w1 w2 w3 : Word) : Option Instr :=
  if opc < 0x040 then (tableA64[opc]?).map (· (readA64 w0 w1))
  else if opc < 0x080 then (tableI64[opc - 0x040]?).map (· (readI64 w0 w1))
  else if opc < 0x0C0 then (tableC64[opc - 0x080]?).map (· (readC64 w0 w1))
  else if opc < 0x100 then (tableM64[opc - 0x0C0]?).map (· (readM64 w0 w1))
  else if opc < 0x140 then (tableB64[opc - 0x100]?).map (· (readB64 w0 w1))
  else if opc < 0x180 then (tableA96[opc - 0x140]?).map (· (readA96 w0 w1 w2))
  else if opc < 0x1C0 then (tableI96[opc - 0x180]?).map (· (readI96 w0 w1 w2))
  else (tableA128[opc - 0x1C0]?).map (· (readA128 w0 w1 w2 w3))

/-- The length in words that an opcode's format class requires (03 R68). -/
def wordsOfOpc (opc : Nat) : Nat := if opc < 0x140 then 2 else if opc < 0x1C0 then 3 else 4

/-- Word `k` of a list, zero past its end. -/
def wordAt (ws : List Word) (k : Nat) : Word := ws.getD k 0

/-- The decoder: the words from a PC on and the number of words left in its fetch block (03 R77). -/
def decodeWords (room : Nat) (ws : List Word) : Decoded :=
  let w0 := wordAt ws 0
  let n := lengthOf w0
  let opc := (fld w0 2 9).toNat
  if n = 1 then .pad
  else if room < n then .illegal 1
  else match instrOf opc w0 (wordAt ws 1) (wordAt ws 2) (wordAt ws 3) with
    | none => .illegal 2
    | some i => if wordsOfOpc opc = n then .instr i n else .illegal 3

/-- Little-endian words of a byte list (00 R7); missing bytes read as zero. -/
def wordsOfBytes (bs : List Byte) : Nat → List Word
  | 0 => []
  | n + 1 =>
    (bs.getD 3 0 ++ bs.getD 2 0 ++ bs.getD 1 0 ++ bs.getD 0 0) :: wordsOfBytes (bs.drop 4) n

/-- The decoder on the bytes of a fetch block from an instruction's first byte (03 R61 to R63). -/
def decodeBytes (room : Nat) (bs : List Byte) : Decoded := decodeWords room (wordsOfBytes bs 4)

/-- The words of a format with an opcode (03 R65, R68, R69). -/
def Form.words (opc : BitVec 9) : Form → List Word
  | .a64 f => [headBits (f.mod.extractLsb' 8 2 ++ f.set) f.wait f.dist opc 0,
      f.mod.extractLsb' 0 8 ++ f.vb ++ f.va ++ f.vd]
  | .i64 f => [headBits (f.m ++ f.imm.extractLsb' 16 4) f.wait f.dist opc 0,
      f.imm.extractLsb' 0 16 ++ f.va ++ f.vd]
  | .c64 f => [headBits f.mod f.wait f.dist opc 0, f.bank ++ f.woff ++ f.va ++ f.vd]
  | .m64 f => [headBits (f.mod ++ f.set) f.wait f.dist opc 0, f.off ++ f.va ++ f.vd]
  | .b64 f => [headBits f.link f.wait f.dist opc 0, f.off ++ f.pol ++ f.guard]
  | .a96 f => [headBits (f.mod.extractLsb' 8 2 ++ f.set) f.wait f.dist opc 1,
      f.mod.extractLsb' 0 8 ++ f.vb ++ f.va ++ f.vd, f.mod.extractLsb' 10 16 ++ f.pol ++ f.guard ++ f.vc]
  | .i96 f => [headBits (f.mod ++ f.set) f.wait f.dist opc 1, f.pol ++ f.guard ++ f.vb ++ f.va ++ f.vd, f.lit]
  | .a128 f => [headBits (f.mod.extractLsb' 0 2 ++ f.set) f.wait f.dist opc 2,
      f.vc ++ f.vb ++ f.va ++ f.vd, f.mod.extractLsb' 2 16 ++ f.pol ++ f.guard ++ f.ve, f.x]

/-- The words of an instruction; an event row has none. -/
def encode (i : Instr) : List Word :=
  match formOf i, opcodeOf i with
  | some f, some o => f.words (BitVec.ofNat 9 o)
  | _, _ => []

/-- The words of a number whose bits follow spec/opcode_table.json: word 0 in the low 32 bits. -/
def wordsOfNat (w : Nat) : List Word :=
  [BitVec.ofNat 32 w, BitVec.ofNat 32 (w / 2 ^ 32), BitVec.ofNat 32 (w / 2 ^ 64), BitVec.ofNat 32 (w / 2 ^ 96)]

/-- The instruction the decoder reads from an instruction whose bits are `w`; bits above `nbits` are zero. -/
def decodeTableWord (nbits w : Nat) : Option Instr :=
  match decodeWords 8 (wordsOfNat (w % 2 ^ nbits)) with
  | .instr i _ => some i
  | _ => none

/-- The first words 0 and 1 of an instruction, word 0 in the low half (03 R77, TRAPADDR). -/
def words01 (i : Instr) : DWord := wordAt (encode i) 1 ++ wordAt (encode i) 0

end Sys2Proof
end

