-- ==== Sys2Proof/Config.lean ====
section
/-! DEFINITION. What the manual leaves open: free values. Every constant here is opaque, so no proof can
lean on a value of it; each is named in the assumption log. -/

namespace Sys2Proof.Config

/-- Which of `n` allowed values a read inside a latency window returns (01 R27, 06 R134, 05 R118).
The arguments are the model's issue count, the thread, and the register or selector. Log 2. -/
opaque staleChoice (count thread reg : Nat) : Nat

/-- A fresh free number for each value of the counter it is applied to. Log 2. -/
opaque freeNat (count : Nat) : Nat

/-- Words drawn from the security processor's CTR_DRBG (23 R441). Log 10. -/
opaque drbg (count : Nat) : BitVec 512

/-- The fused device secret (23 R453). Log 8. -/
opaque uds : BitVec 256

/-- The digest of the firmware public key held in the boot ROM (23 R452). Log 8. -/
opaque romDigest : BitVec 256

/-- The bytes of the firmware banks as the module was shipped (23 R451). Log 8. -/
opaque flashByte (bank offset : Nat) : Byte

/-- The bytes of the certificate of IDPUB, which stand in flash outside the firmware banks (23 R453). Log 8. -/
opaque certificateByte (offset : Nat) : Byte

/-- The fused media access control address of port `n` (26 R482). Log 8. -/
opaque portMac (n : Nat) : BitVec 48

/-- Package power in watts, 1 ms running average, at a sample (23 R437, PWREST). Log 11. -/
opaque packagePower (count : Nat) : Nat

/-- The hash by which the gather cache chooses the set of a virtual line (15 R329). Log 24. -/
opaque gatherHash (vline : Nat) : Nat

/-- The die that draws the most power at a sample (23 R458). Log 11. -/
opaque hungriestDie (count : Nat) : Nat

/-- The byte that a read of pool register storage through an on-chip window sees (01 register storage form, 18 R364). Log 12. -/
opaque storedFormByte (core addr count : Nat) : Byte

/-- The place that a sampling generator draws for a run (24 R471). Log 13. -/
opaque samplePlace (seed : Word) (run : Nat) : Nat

/-- The seed of a sampling port's generator outside deterministic mode (24 R471). Log 13. -/
opaque sampleSeed (core port : Nat) : Word

/-- The clk of its die after which a thread other than the target of a stop halts (24 R465). Log 82. -/
opaque stopDelay : Nat

end Sys2Proof.Config
end

