-- ==== Sys2Proof/Machine/State.lean ====
section
/-! DEFINITION. The state of the package: every thread, team, core, die, partition, grid, queue and register
window the manual names, as plain data. Collections are lists of (key, value) pairs with strictly rising keys. -/

namespace Sys2Proof.Machine

open Sys2Proof

/-- Bytes by address: the one canonical form (addresses strictly rising, no entry equal to 0, which is what
an unlisted address reads as). -/
abbrev Memory := List Host.Cell

/-- Entries by number, numbers strictly rising. -/
abbrev Table (α : Type) := List (Nat × α)

/-- Why a step stops. -/
inductive Fault where
  /-- The package has powered off over 115 C and lost all state (23 R458). Raised by `step` alone. Safe: the
  manual gives the powered-off package no further step. -/
  | poweredOff
  deriving DecidableEq, Repr

/-- Why the model gives an instruction no meaning. -/
inductive Refusal where
  /-- The instruction's meaning is not written. Raised by an arm of `exec` alone. Safe. -/
  | notModelled (mnemonic : String)
  deriving DecidableEq, Repr

/-- The convergence states of a thread (07 R158). -/
inductive Conv where
  | run | heldColl | heldBar | heldBarc | heldBuoy | heldGang | trapEntry | exiting
  deriving DecidableEq, Repr

/-- The latency classes (01 R25). -/
inductive LatClass where
  | s | m | l | v
  deriving DecidableEq, Repr

/-- What the completion of a class V result waits for: nothing but its unpublished latency; a scratchpad access, which it
performs; the accesses that a fence orders; a tile instruction's turn; a step; a command's acceptance, due by a die clk; the
acceptance of an outermost commit. -/
inductive FlightWait where
  | free
  | access (key : Nat)
  | fence (keys : List Nat)
  | tile (key : Nat)
  | step (key : Nat)
  | accept (key ready : Nat)
  | commit (key : Nat)
  deriving DecidableEq, Repr

/-- What a scratchpad access does at the instant at which it is performed (08 R164). `bad` says that a peer transfer met an error
that persists (15 R334). -/
inductive AccessOp where
  /-- Registers loaded: register, first byte, number of bytes, and whether the sign is extended (08 R168). -/
  | load (regs : List (Nat × Nat × Nat × Bool)) (bad : Bool)
  /-- Bytes stored (08 R168). -/
  | store (bytes : List Byte) (bad : Bool)
  /-- An atomic's OP, 14 for compare and swap, its operands, and the register of the old element (08 R171, R172, 15 R323). -/
  | atomic (op b c dest : Nat) (bad : Bool)
  -- BINIT, BEXP and BARR (08 R181)
  | binit (bytes arrivals : Nat)
  | bexp (set : Bool) (bytes : Nat)
  | barr (dest : Nat)
  deriving DecidableEq, Repr

/-- A scratchpad access of a thread between its issue and its performing (08 R164, R165): the storage's core, the pool bytes, and
the accesses that are performed before it. -/
structure Access where
  thread : Nat
  team : Nat
  core : Nat
  off : Nat
  size : Nat
  op : AccessOp
  prior : List Nat := []
  deriving DecidableEq, Repr

/-- A result in flight: what an issued instruction has still to write (01 R24 to R28). `ready` is the die
clk at which a fixed class completes; class V completes by INSTRUCTION_COMPLETION. -/
structure InFlight where
  cls : LatClass
  ready : Nat
  /-- The set flag to decrement (01 R24). -/
  flag : Option Nat
  /-- Register writes. -/
  regs : List (Nat × Word)
  /-- Registers that receive a poisoned word (08 R168, 13 R309). -/
  poison : List Nat
  /-- A SETS write: selector and value (06 R134). -/
  sreg : Option (Nat × DWord)
  /-- What its completion waits for. -/
  wait : FlightWait := .free
  deriving DecidableEq, Repr

/-- A CFENCE of the thread as its later commands see it (12 R267). -/
structure Fence where
  /-- Earlier commands that later ones wait for. -/
  cmds : List Nat
  /-- AFTER kinds that are held back: bit 0 reads, bit 1 writes. -/
  after : Nat
  /-- Scopes at which the later command acquires and releases; 0 for none. -/
  acq : Nat
  rel : Nat
  deriving DecidableEq, Repr

/-- Why a thread is halted (24 R466): not at all, at BKPT or a breakpoint, or otherwise. -/
inductive Halt where
  | none | atBreak | other
  deriving DecidableEq, Repr

/-- A thread (01). -/
structure Thread where
  /-- The team (a key of `State.teams`). -/
  team : Nat
  /-- Core of the package, 192 x die + 64 x cluster + core. -/
  core : Nat
  /-- Thread number in the team (01 R12). -/
  num : Nat
  /-- Lane slot of the home lane (07 R144). -/
  laneSlot : Nat
  /-- Creation sequence number (07 R150). -/
  seq : Nat
  /-- Declared register count N (01 R13). -/
  nregs : Nat
  pc : VAddr
  /-- V0 to V254; an unlisted register is zero (01 R13, R29). -/
  regs : Table Word := []
  /-- Registers whose poison bit is set, rising (13 R309). -/
  poison : List Nat := []
  /-- F0 to F11 (01 R22). -/
  flags : Table Nat := []
  -- identity registers (01 R15 to R17)
  lane : Word
  wave : Word
  teamIdx : Word
  teamDim : Word
  gridId : Word
  cohort : Word
  coreNo : Word
  clusterNo : Word
  dieNo : Word
  depth : Word
  -- writable and trap registers (01 R18, R19)
  gang : Word := 0
  trapCause : Word := 0
  trapPc : DWord := 0
  trapAddr : DWord := 0
  trapMask : Word := 0
  epc : DWord := 0
  -- counters (01 R20, R21)
  retired : DWord := 0
  terms : DWord := 0
  termCyc : DWord := 0
  termSkew : DWord := 0
  conv : Conv := .run
  /-- The wait at the instruction at the PC is over and the instruction has still to issue: a collective's set is released, or a
  BWAIT has found its phase (07 R157, 08 R182). -/
  released : Bool := false
  /-- Accesses that are performed before every later access of the thread (08 R165). -/
  before : List Nat := []
  /-- The instruction a HELD state waits at (07 R156). -/
  held : Option Instr := none
  /-- GANG as sampled by the waiting MMA.G (10 R224). -/
  gangSample : Word := 0
  /-- Die clk of the last issue, and the least distance after it (01 R23). `none` before the first issue. -/
  lastIssue : Option Nat := none
  /-- No issue before this die clk: SLEEP (06 R132). -/
  notBefore : Nat := 0
  /-- Results in flight, oldest first (01 R24 to R28). -/
  flight : List InFlight := []
  /-- Cycles as a candidate without issuing (07 R150). -/
  starve : Nat := 0
  /-- Halted by the debugger (24 R466). -/
  halted : Halt := .none
  /-- A halt that takes place before the thread's next issue (24 R466, R469). -/
  haltNext : Bool := false
  /-- The die clk from which a stop of the partition halts the thread before its next issue (24 R465). -/
  haltAt : Option Nat := none
  /-- The next issue makes no breakpoint check (24 R467). -/
  pastBreak : Bool := false
  /-- A member of a selection of a STEP whose record is still to be posted (24 R469). -/
  stepping : Bool := false
  /-- The task-store entry of a lane-task thread (19 R395). -/
  task : Option Nat := none
  /-- The thread's CFENCEs, and the access kinds of the commands it has issued: bit 0 reads, bit 1 writes (12 R267). -/
  fences : List Fence := []
  cmdKinds : Nat := 0
  deriving DecidableEq, Repr

/-- The states of a team (13 R283); a RELEASED or SAVED team is not resident. -/
inductive TeamState where
  | starting | live | turning | ended | saving | saved | killed | released
  deriving DecidableEq, Repr

/-- A gang rendezvous latch: mask, address and arrived waves (09 R204). -/
structure Latch where
  mask : Nat
  addr : VAddr
  waves : List Nat
  deriving DecidableEq, Repr

/-- A tensor record or route table as sealed (11 R234, 27 R494). -/
abbrev Rec := BitVec 1024

/-- An entry of the failure list (11 R259). -/
structure FailEntry where
  ticket : Nat
  st : Nat
  reason : Nat
  c : Nat
  deriving DecidableEq, Repr

/-- The engine's state of a ring (12 R270 to R276). -/
structure Ring where
  cmd : Nat
  dir : Nat
  n : Nat
  relt : Nat
  stride : Nat
  chunks : Nat
  /-- Bytes of a chunk. -/
  bytes : Nat
  ticket : Nat
  state : Nat := 1
  next : Nat := 0
  done : Nat := 0
  /-- REL and CHUNK of each slot, and the chunks freed and not yet stored (drain). -/
  rel : List Nat
  chunk : List Nat
  freed : List Nat := []
  /-- The chunk being moved. -/
  cur : Option Nat := none
  deriving DecidableEq, Repr

/-- The fault at which a command stopped (11 R258, 18 R369): its FAULTID and CONTEXT, 0 to 15 a parked context, 16
STALLED. -/
structure Park where
  va : Nat
  kind : Nat
  level : Nat
  write : Bool
  id : Nat
  ctx : Nat
  deriving DecidableEq, Repr

/-- The engine's state of a route table's tile in a round (27 R498 to R502). -/
structure RouteTile where
  /-- Fired in the current round; result complete in the current round. -/
  fired : Bool := false
  done : Bool := false
  /-- Bytes landed by parity (27 R498). -/
  arr0 : Nat := 0
  arr1 : Nat := 0
  /-- Bytes landed by slot, as 2 x slot + parity (one-shot), or by step, as 2 x step + parity (ring). -/
  got : Table Nat := []
  /-- Poisoned chunks of the slots or steps, as M x (2 x slot + parity) + chunk. -/
  bad : List Nat := []
  /-- Members sent to (one-shot); the next step to send and to take, 0 to 2M - 2 (ring, 27 R502). -/
  sent : Nat := 0
  taken : Nat := 0
  /-- Poisoned chunks of the staging slot and of the result. -/
  badStage : List Nat := []
  badResult : List Nat := []
  deriving DecidableEq, Repr

/-- The engine's state of a sealed route table (27 R498). -/
structure Route where
  snap : Rec
  round : Nat := 0
  failed : Bool := false
  /-- The fault at which an access of the route's own stopped, and the tile it was for. -/
  park : Option (Park × Nat) := none
  tiles : Table RouteTile := []
  deriving DecidableEq, Repr

/-- The transaction word's fields (12 R277, R278) and the bytes held. -/
structure Tx where
  depth : Nat := 0
  aborted : Bool := false
  code : Nat := 0
  reason : Nat := 0
  /-- Held bytes by physical address; by line, the virtual line it was written at and the poison mark. -/
  held : Table Byte := []
  lines : Table (Nat × Bool) := []
  /-- A bracketed command has failed or been cancelled (12 R280). -/
  failed : Bool := false
  /-- An outermost XCOMMIT in flight: its scope, operation key and the instance's threads (12 R280). -/
  commit : Option (Nat × Nat × List Nat) := none
  /-- The fault that the write-back of a held line met and that its record told: address, kind and level (18 R365). -/
  fault : Option (Nat × Nat × Nat) := none
  deriving DecidableEq, Repr

/-- An entry of the handle table (11 R237). -/
structure Handle where
  gen : Nat := 0
  valid : Bool := false
  rcd : Rec := 0
  deriving DecidableEq, Repr

/-- The states of a command that is not gone (11 R259). -/
inductive CmdState where
  | queued | active | parked | stalled
  deriving DecidableEq, Repr

/-- A copy command that is not gone (11 R243), the drains to the copy engine and bound rings among them. -/
structure Command where
  team : Nat
  thread : Nat
  num : Nat
  instr : Instr
  ticket : Nat
  /-- VA, VB and VC as read at issue, then the origin registers (13 R304). -/
  regs : List Word
  /-- Snapshots in the order VA, VB, index handle (11 R243). -/
  snaps : List Rec
  /-- Source and destination origins and the index origin (11 R242). -/
  os : List Int := []
  od : List Int := []
  oi : Int := 0
  /-- Scratchpad address of the buoy. -/
  buoy : Option Nat
  /-- Die clk of acceptance (11 R243). -/
  ready : Nat
  accepted : Bool := false
  state : CmdState := .queued
  /-- Performed positions and counted bytes (11 R255, R257); of the current chunk for a ring's bytes. -/
  c : Nat := 0
  counted : Nat := 0
  park : Option Park := none
  fences : List Fence := []
  /-- Accesses of the issuing thread that are performed before its own, and the tile operation that it takes its data from (11 R256,
  10 R227). -/
  prior : List Nat := []
  source : Option Nat := none
  /-- The acquire has been performed; the release epoch taken (12 R262). -/
  begun : Bool := false
  epoch : Option Nat := none
  /-- Issued inside the open bracket; issued after an outermost XCOMMIT still in flight (12 R277, R280). -/
  bracketed : Bool := false
  afterCommit : Bool := false
  /-- A DRAIN's converted elements, or a CATOM's operands. -/
  data : List Nat := []
  poi : Bool := false
  /-- The team tiles that a DRAIN reads (13 R293). -/
  tiles : List Nat := []
  /-- Bytes read from a fabric window for the next positions, by virtual address (26 R490). -/
  got : Table Byte := []
  /-- A message of the command is outstanding (26 R490). -/
  waiting : Bool := false
  /-- The place in the queue that a resume has given it (13 R305). -/
  requeued : Option Nat := none
  /-- Watches that have posted a record, and RETIRED at issue (24 R470). -/
  watched : List Nat := []
  retired : DWord := 0
  deriving DecidableEq, Repr

/-- A task-store entry (19 R392). The state is 0 FREE, 1 WAITING, 2 READY, 3 RUNNING, 4 POISONED. -/
structure Task where
  gen : Nat := 0
  state : Nat := 0
  count : Nat := 0
  entry : DWord := 0
  notify : Nat := 0
  lane : Nat := 0
  laneSlot : Nat := 0
  args : List Word := []
  /-- The order in which entries became READY (19 R395). -/
  order : Nat := 0
  deriving DecidableEq, Repr

/-- What a save keeps of a team's storage beside its image (13 R300; log 26): threads by key, region and tiles from
offset 0, handles and tasks by team-relative entry, commands by key. -/
structure Saved where
  threads : Table Thread := []
  region : Memory := []
  poison : List Nat := []
  tiles : Memory := []
  sideBand : Memory := []
  tags : Table Nat := []
  handles : Table Handle := []
  tasks : Table Task := []
  cmds : Table Command := []
  deriving DecidableEq, Repr

/-- A team: resident on a core, or SAVED (13 R283, R284). -/
structure Team where
  /-- The grid (a key of `State.grids`). -/
  grid : Nat
  part : Nat
  core : Nat
  slot : Nat
  /-- Linear index in the grid (01 R15). -/
  idx : Nat
  /-- Cohort size (15 R317). -/
  cohort : Nat := 1
  state : TeamState := .live
  -- the team's own declared shape (07 R147)
  threads : Nat
  waves : Nat
  regs : Nat
  /-- Region in 4 KiB pages (08 R162). -/
  spadP : Nat := 0
  tiles : Nat := 0
  gcg : Nat := 0
  /-- Team handler, 56 bits (13 R284). -/
  handler : VAddr := 0
  /-- A double fault or a watchdog kill has stopped the team; TEAM_KILL follows (06 R140, 13 R306). -/
  killReq : Bool := false
  /-- GRIDID of the grid (19 R378). -/
  gridId : Word := 0
  /-- Format-record table (09 R187). -/
  tfmt : Table Word := []
  /-- Gang latches that are open (09 R204). -/
  latches : List Latch := []
  /-- Next ticket (11 R243) and the failure list, oldest first (11 R259). -/
  ticket : Nat := 0
  fails : List FailEntry := []
  tx : Tx := {}
  /-- Rings by RCB address (12 R274) and route tables by handle index (27 R498). -/
  rings : Table Ring := []
  routes : Table Route := []
  /-- Commands of the trigger set still not gone, once a TRIGGER fixed it, and whether the trigger point is past (19 R390). -/
  trigger : Option (List Nat) := none
  triggered : Bool := false
  /-- Grids that the team launched and that have not completed (19 R388). -/
  children : List Nat := []
  /-- The turn record of a turn in progress: its bits, and the commands that must be gone first (13 R288, R292). -/
  turn : Option Nat := none
  turnWait : List Nat := []
  /-- The state a SAVED team resumes in, and its image slot (13 R302, 19 R380). -/
  savedAs : TeamState := .live
  image : Option Nat := none
  saved : Option Saved := none
  /-- A resume has failed on the image's header (13 R305). -/
  resumeBad : Bool := false
  /-- Lines whose release record, another die's and not served, stood when a command without an acquire read them (12 R267). -/
  readRel : List Nat := []
  /-- Counted in the trigger condition of its grid (19 R391). -/
  trigDone : Bool := false
  /-- Halt requested for every thread: a HALT record is still to be posted (24 R468). -/
  haltAsked : Bool := false
  /-- A save of the team has been requested, or it belongs to a tidemark (13 R298). -/
  saveReq : Bool := false
  deriving DecidableEq, Repr

/-- A range of bytes to be written: its first offset, its length and its nonzero cells. -/
abbrev Patch := Nat × Nat × Memory

/-- A tile instruction or step that has issued and not completed: the core tiles it reads and writes, and the bytes it
writes in the tile store and in the side-bands (09 R193). -/
structure TileOp where
  key : Nat
  step : Bool
  reads : List Nat
  writes : List Nat
  data : List Patch := []
  side : List Patch := []
  /-- Its results are poisoned (09 R203). -/
  poi : Bool := false
  /-- The threads whose scratchpad accesses it makes, and what is performed before those (10 R216). -/
  threads : List Nat := []
  prior : List Nat := []
  /-- A TLOAD that has not read: the pool bytes of its chunks, and of its side-band (10 R216). -/
  load : Option (List Nat × Option Nat) := none
  /-- Scratchpad bytes that it writes when it completes, by pool byte (10 R216, R229). -/
  stores : List (Nat × List Byte) := []
  /-- The command that takes what it reads (10 R227). -/
  cmd : Option Nat := none
  /-- A TCHK, whose result tells the poison (10 R221). -/
  check : Bool := false
  deriving DecidableEq, Repr

/-- One member of a step: the whole of a plain step, or one wave of a gang pass (09 R206). -/
structure StepMember where
  /-- The key of its tile operation. -/
  op : Nat
  /-- Threads that took part. -/
  parts : List Nat
  -- C_run, C_run - C_min, the idle group cycles and the terms of a run (09 R196, R199, R200)
  run : Nat
  skew : Nat
  idle : Nat
  terms : Nat
  /-- Runs made. -/
  runs : Nat := 0
  deriving DecidableEq, Repr

/-- An accepted step of the matrix engine (09 R192). -/
structure EngStep where
  key : Nat
  team : Nat
  /-- First die clk of its start (09 R197). -/
  ready : Nat
  members : List StepMember
  /-- Members still to run, the passes being made one member after another (09 R206). -/
  todo : List Nat
  /-- Die clk at which its last run ended; `none` before. -/
  ended : Option Nat := none
  deriving DecidableEq, Repr

/-- A run of a step's member on the array (09 R197, R201). -/
structure EngRun where
  step : Nat
  member : Nat
  start : Nat
  stop : Nat
  rerun : Bool
  deriving DecidableEq, Repr

/-- The pool configuration word's fields (07 R145). -/
structure PoolConfig where
  slots : Nat := 0
  waves : Nat := 0
  regs : Nat := 0
  spadP : Nat := 0
  tiles : Nat := 0
  regG : Nat := 0
  spadG : Nat := 0
  gcG : Nat := 0
  deriving DecidableEq, Repr

/-- The execution units (07 R152). -/
inductive ExUnit where
  | alu | mul | dfp | sfu | lsu | eng
  deriving DecidableEq, Repr

/-- A cached translation (15 R332, 18 R366): a leaf and the level it was found at. -/
structure TlbEntry where
  leaf : DWord
  level : Nat
  deriving DecidableEq, Repr

/-- A gather-cache block (15 R329, R330): its virtual line and first and number of 16-byte words, its bytes, the physical
line it was filled from and whether that was poisoned; its first word of its set, the predictor entry that named its size,
and the words that have been served from it, rising. -/
structure GcBlock where
  vline : Nat
  first : Nat
  n : Nat
  bytes : List Byte
  pline : Nat
  bad : Bool
  place : Nat := 0
  pred : Nat := 0
  served : List Nat := []
  deriving DecidableEq, Repr

/-- A selection of a STEP: its team, address, members, whether it has issued, and the mask of its lanes (24 R469). -/
structure StepSet where
  team : Nat
  pc : VAddr
  members : List Nat
  mask : Nat
  issued : Bool := false
  deriving DecidableEq, Repr

/-- A core (07 R142). -/
structure Core where
  cfg : PoolConfig := {}
  /-- The grid whose teams the core holds (07 R147). -/
  grid : Option Nat := none
  /-- Pool bytes by pool offset; register storage is held by the threads (07 R142, R145). -/
  pool : Memory := []
  /-- Pool words (offset / 8) whose poison bit is set, rising (13 R310). -/
  poolPoison : List Nat := []
  /-- Bank bytes at bank x 65,536 + offset (03 R72). -/
  banks : Memory := []
  /-- Bank words (offset / 4) that are poisoned, rising (13 R308). -/
  bankPoison : List Nat := []
  /-- Tile store bytes at 8,192 x tile + offset, side-band bytes at 512 x tile + offset, tags by tile (09 R185). -/
  tiles : Memory := []
  sideBand : Memory := []
  tags : Table Nat := []
  /-- Errors that tile-store words hold, by 1,088 x tile + word, side-band words from 1,024 on: 1 correctable, 2 cleared
  by the re-read, 3 persistent (09 R190). Hardware faults are inputs; none at reset. -/
  tileErr : Table Nat := []
  /-- Tile instructions and steps in flight, in issue order (09 R193). -/
  tileOps : List TileOp := []
  /-- Accepted steps, the run on the array, ended runs not yet compared, and reruns waiting (09 R192, R201, R202). -/
  steps : List EngStep := []
  onArray : Option EngRun := none
  ended : List EngRun := []
  reruns : List (Nat × Nat) := []
  /-- Instruction cache: fetch blocks of 8 words by block number (07 R142, R143). -/
  icache : Table (List Word) := []
  /-- Fetch translations by 64 KiB page number (18 R366). -/
  fetchTlb : Table TlbEntry := []
  /-- Loop buffer, 32 fetch blocks (07 R143). -/
  loopBuf : Table (List Word) := []
  /-- Next creation sequence number (07 R150). -/
  nextSeq : Nat := 0
  /-- Scratchpad accesses of the core's threads that are still to be performed, in issue order (08 R164). -/
  accs : Table Access := []
  -- issue in the current cycle (07 R152, R153)
  /-- Arrivals, releases or issues of the cycle have begun, its completions being past (07 R159). -/
  begun : Bool := false
  /-- The place in R153's order of each set that issued on a port. -/
  ports : List Nat := []
  aluUsed : Nat := 0
  mulUsed : Nat := 0
  lsuUsed : Nat := 0
  engUsed : Nat := 0
  /-- Die clk from which DFP and SFU accept a set again. -/
  dfpFree : Nat := 0
  sfuFree : Nat := 0
  /-- Counters of the core counter window by offset (07 R155, 09 R200, 11 R261, 27 R509). -/
  counters : Table DWord := []
  withdrawn : Bool := false
  /-- Fault and debugger record sequences, 22 bits (18 R369, 24 R473). -/
  faultSeq : Nat := 0
  dbgSeq : Nat := 0
  /-- Handle table and task store by core entry (11 R237, 19 R392), and the order of the next READY entry. -/
  handles : Table Handle := []
  tasks : Table Task := []
  taskOrder : Nat := 0
  /-- The die clk in which an entry took the order before `taskOrder`, until a resume places others (19 R395). -/
  taskClk : Option Nat := none
  /-- Lanes in which a task's thread was created in the current cycle (19 R395). -/
  taskLanes : List Nat := []
  /-- Commands that are not gone, by key in acceptance order (11 R243). -/
  cmds : Table Command := []
  /-- Gather-cache blocks, the least recently used first, and the predictor's size codes by entry (15 R329, R330). -/
  gcache : List GcBlock := []
  gcPred : Table Nat := []
  /-- A reconfiguration in progress: the grid whose banks are loading (07 R148). -/
  loading : Bool := false
  /-- Issues counted, the tagged place of the current run and the run's number, by issue port (24 R471). -/
  sample : Table (Nat × Nat × Nat) := []
  /-- Selections of a STEP that have not issued, or whose record is still to be posted, in order (24 R469). -/
  stepSets : List StepSet := []
  deriving DecidableEq, Repr

/-- A line resident at its home slice (17 R344, 22 R422). The bytes are in `DevMem.home`. -/
structure HomeMeta where
  mod : Bool := false
  rawPend : Bool := false
  nc : Bool := false
  key : Nat := 0
  poison : Bool := false
  part : Nat := 0
  rv : Bool := false
  rdie : Nat := 0
  rsc : Nat := 0
  rep : Nat := 0
  deriving DecidableEq, Repr

/-- A line's HBM4 image apart from its payload (17 R348): TAG and POISON. -/
structure HbmMeta where
  tag : Nat := 1
  poison : Bool := false
  deriving DecidableEq, Repr

/-- A visitor copy of a line (17 R344, 22 R423). The bytes are in the die's `vis`. -/
structure VisMeta where
  dirty : BitVec 128 := 0
  poison : Bool := false
  key : Nat := 0
  part : Nat := 0
  /-- The page's compressible flag was clear at the last write. -/
  nc : Bool := false
  dep : Nat := 0
  deriving DecidableEq, Repr

/-- A die (17, 22). -/
structure Die where
  /-- CYCLES (01 R15, 00 R4). -/
  clk : Nat := 0
  /-- Visitor lines' bytes by physical address, and their state by line number. -/
  vis : Memory := []
  visMeta : Table VisMeta := []
  /-- Valid table entries that name a further table and that the walker keeps, by partition, level and first address that
  they lead to (18 R366). -/
  walks : Table DWord := []
  /-- EP per partition, and one more than WBE once an epoch has been served (22 R423, log 14). -/
  ep : Table Nat := []
  wbe : Table Nat := []
  /-- Counters of the die counter window by offset (17 R358, 22 R432, 23 R445). -/
  counters : Table DWord := []
  /-- Clock step 0 to 8 (23 R458). -/
  step : Nat := 0
  /-- Sequence of RETIRE records, 22 bits (18 R369). -/
  retireSeq : Nat := 0
  /-- Junction temperature at or under 105 C, over it, as last reported (23 R458). -/
  hot : Bool := false
  deriving DecidableEq, Repr

/-- A cluster (15). -/
structure Cluster where
  /-- Cached translations by the number of their first 64 KiB page, of the cluster's partition (15 R332). -/
  tlb : Table TlbEntry := []
  /-- Counters of the cluster counter window by offset (15 R335). -/
  counters : Table DWord := []
  /-- Power state: 0 ACTIVE, 1 CG, 2 PG; the clk of the last activity (23 R455). -/
  power : Nat := 0
  active : Nat := 0
  /-- The next peer transfer meets an error: 1 that its retry clears, 2 that persists (15 R334). -/
  netErr : Nat := 0
  deriving DecidableEq, Repr

/-- A partition (23 R438 to R441, 18 R363, 19 R381). -/
structure Partition where
  exist : Bool := false
  noCmp : Bool := false
  /-- CLUSTERS, bit 3 x die + cluster. -/
  clusters : BitVec 12 := 0
  ptroot : DWord := 0
  xlctl : DWord := 0
  /-- Key slots by number; an unlisted slot is empty (17 R354). -/
  keys : Table (BitVec 512) := []
  /-- Granted blocks, 192 x die + block, rising (23 R439). -/
  grant : List Nat := []
  fqaddr : DWord := 0
  fqctl : DWord := 0
  /-- Fault records acknowledged, and sent or waiting to be (18 R369, 26 R493). -/
  fqidx : Word := 0
  fqsent : Nat := 0
  /-- DBGCTL.DET (24 R459). -/
  det : Bool := false
  /-- The other bits of DBGCTL. -/
  dbgctl : DWord := 0
  /-- The registers of the partition window that hold what was written and have no other behaviour (00 R8), by offset:
  SHOOTVA, LATTOL, ATTNONCE, DBGQADDR, DBGQCTL, DBGTGT, STOPCNT, BRKn, WATCHw, RKTAG and the window entries. -/
  regs : Table DWord := []
  /-- PDISP (19 R381). -/
  pdisp : DWord := 1
  /-- KEYCTL: the slot last written, STATUS, and the operation in progress as 1 GEN or 2 CLEAR (23 R441). -/
  keySlot : Nat := 0
  keyStatus : Nat := 0
  keyOp : Nat := 0
  /-- RECOV, the recovery in progress with its start in us and its WATCHDOG records still to be sent as queue, grids and
  teams of step 2 (23 R440, R448). -/
  recov : Nat := 0
  recovering : Option (Nat × List (Nat × Nat × Nat)) := none
  /-- Teams saved and killed in the drain. -/
  recovSaved : Nat := 0
  recovKilled : Nat := 0
  /-- ATTCTL: the page of the report in progress or last started, BUSY and ERR, and the report (23 R440, R454). -/
  attPage : Nat := 0
  attBusy : Bool := false
  attErr : Bool := false
  attReport : List Byte := []
  /-- Free 2 MiB blocks, and the promotion in progress: region, block and the region's 32 pages (18 R363, R371). -/
  promoFree : List Nat := []
  promo : Option (Nat × Nat × List Nat) := none
  /-- SHOOTLEN, the shootdown that runs and those queued behind it as first page and pages, and SHOOTSEQ (18 R367). -/
  shootLen : DWord := 0
  shoots : List (Nat × Nat) := []
  shootSeq : DWord := 0
  /-- Next acceptance sequence S (19 R378). -/
  gridSeq : Nat := 1
  /-- DBGSTAT: HOLD, PERTURB, STATUS of the last DBGCMD, current tidemark number (24 R459); DBGQIDX and records sent. -/
  hold : Bool := false
  perturb : Bool := false
  dbgStatus : Nat := 0
  tide : Nat := 0
  dbgqidx : Word := 0
  dbgsent : Nat := 0
  /-- The armed stop: thread key, thread number and count (24 R465). -/
  stop : Option (Nat × Nat × Nat) := none
  /-- A tidemark being taken for a grid, its teams being saved (24 R463). -/
  tiding : Option Nat := none
  tideSaved : Nat := 0
  /-- Landing windows: bound team and handle index, and arrivals held (27 R496, R504). -/
  lands : Table (Nat × Nat) := []
  pend : Table (List (Nat × Nat × Nat)) := []
  /-- Reads left to the partition in the current round (19 R382). -/
  deficit : Nat := 0
  deriving DecidableEq, Repr

/-- Device memory (17): home copies and HBM4 images by physical address. -/
structure DevMem where
  home : Memory := []
  homeMeta : Table HomeMeta := []
  hbm : Memory := []
  hbmMeta : Table HbmMeta := []
  /-- Errors that HBM4 sectors hold (sector number, PA / 32): 1 correctable, 2 cleared by the re-read, 3
  persistent (17 R353). Hardware faults are inputs; none at reset. -/
  sectorErr : Table Nat := []
  deriving DecidableEq, Repr

/-- What the device sends to a host that asked: the answer to an RDMA request, or a management response (26 R487, 23
R435). -/
structure Reply where
  /-- 0 acknowledgement or response, 1 NAK "remote access error", 2 NAK "invalid request", 3 NAK "remote operational
  error", 4 management response, 5 congestion notification. -/
  kind : Nat
  /-- The connection. -/
  conn : Nat
  bytes : List Byte
  deriving DecidableEq, Repr

/-- What a message that the device sends is for: a record of the fault queue, completion ring or debugger queue of a
partition or queue (0, 1, 2), a command of a core (its key and the positions it covers), or a route tile (team, handle
index). -/
inductive MsgFor where
  | record (kind owner : Nat)
  | command (core cmd positions : Nat)
  | route (team handle : Nat)
  deriving DecidableEq, Repr

/-- A request the device has still to see acknowledged on a connection (26 R483, R490, R493): 0 WRITE, 1 WRITE with
immediate, 2 READ, 3 FETCH_ADD, 4 CMP_SWAP. -/
structure Msg where
  op : Nat
  rkey : Nat
  addr : Nat
  len : Nat
  data : List Byte
  imm : Nat := 0
  what : MsgFor
  /-- The virtual address of the first byte of a READ, and the grid the message counts for (19 R397). -/
  va : Nat := 0
  grid : Option Nat := none
  deriving DecidableEq, Repr

/-- A connection (26 R484 to R486): its context, its PSNs, retries made, the us from which its ack timeout runs, rate in 1/256 of
full, and its unacknowledged requests, oldest first. -/
structure Conn where
  ctx : BitVec 512 := 0
  sendPsn : Nat := 0
  recvPsn : Nat := 0
  retries : Nat := 0
  since : Nat := 0
  rate : Nat := 256
  queue : List Msg := []
  deriving DecidableEq, Repr

/-- A port (26 R482, R484): link up, the priorities paused, and the counters of PORTSTAT by offset. -/
structure Port where
  up : Bool := true
  paused : List Nat := []
  stat : Table DWord := []
  deriving DecidableEq, Repr

/-- A host queue (19 R373 to R375, 23 R446). -/
structure Queue where
  qctl : DWord := 0
  qbase : DWord := 0
  doorbell : Nat := 0
  head : Nat := 0
  cqaddr : DWord := 0
  cqconn : DWord := 0
  /-- Completion records acknowledged, and sent or waiting to be. -/
  cqidx : Word := 0
  cqsent : Nat := 0
  limit : Nat := 0
  fired : Bool := false
  /-- Watchdog count in us, and the limit it counts to (23 R447). -/
  timer : Nat := 0
  bound : Nat := 0
  /-- us for which the queue has been eligible (19 R382), and the grid of the record read last (19 R384). -/
  waited : Nat := 0
  prev : Option Nat := none
  deriving DecidableEq, Repr

/-- A grid that has been accepted and has not completed (19 R378). -/
structure Grid where
  part : Nat
  /-- Entry of the grid table, and GRIDID. -/
  entryNo : Nat
  gridId : Word
  /-- Queue and record index of a host grid; the root grid's queue (19 R386). -/
  host : Option Nat := none
  queue : Nat
  /-- The launching team's key and grid. -/
  launcher : Option (Nat × Nat) := none
  depth : Nat := 1
  rank : Nat := 0
  entry : VAddr
  handler : VAddr
  -- the declared shape (13 R288)
  threads : Nat
  regs : Nat
  spadP : Nat
  tiles : Nat
  gcg : Nat
  teams : Nat
  cohort : Nat
  order : Nat := 0
  tag : DWord := 0
  saveBase : Nat := 0
  saveSlots : Nat := 0
  /-- Bank images: address and length (19 R376). -/
  banks : List (Nat × Nat) := []
  /-- The configuration of cores for the grid (07 R146). -/
  config : PoolConfig
  /-- Teams placed at least once; teams that ended, by index; those that satisfy the trigger condition for good. -/
  placed : Nat := 0
  done : List Nat := []
  trigs : Nat := 0
  /-- Commands of the launching team that come first, as the team and their keys; grids that come first (19 R388, R389, R391). -/
  waitCmds : Option (Nat × List Nat) := none
  waitGrids : List Nat := []
  /-- It may place teams (19 R388, R389). -/
  started : Bool := true
  /-- The tidemark that comes before its first team is past (24 R463). -/
  tided : Bool := true
  -- the fields of its completion record (19 R398)
  ok : Nat := 0
  killed : Nat := 0
  orphaned : Nat := 0
  poisonTasks : Nat := 0
  fails : Nat := 0
  /-- Messages sent and received, by die (19 R397), and the first sample's sums. -/
  sent : Table Nat := []
  recv : Table Nat := []
  sample : Option (Nat × Nat × Nat) := none
  /-- Progress timer in us and the team index it runs for (19 R385). -/
  progress : Nat := 0
  progressFor : Nat := 0
  deriving DecidableEq, Repr

/-- The dispatcher's copy of a partition's state at a tidemark (24 R463). -/
structure TideCopy where
  grids : Table Grid
  teams : Table Team
  /-- Queue number, HEAD, timer and previous grid. -/
  queues : List (Nat × Nat × Nat × Option Nat)
  gridSeq : Nat
  deriving DecidableEq, Repr

/-- The package registers and the security processor (23 R437, R451 to R454), and what flash and fuses hold. -/
structure Pkg where
  /-- The firmware has booted; RECOVERY. -/
  booted : Bool := false
  recovery : Bool := false
  /-- Power state 0 to 3, links down by number. -/
  power : Nat := 0
  linksDown : List Nat := []
  /-- PARTCTL: NOCMP, PART and CLUSTERS as written, STATUS, and the operation in progress (1 CREATE, 2 TEARDOWN). -/
  partBits : Nat := 0
  partStatus : Nat := 0
  partOp : Nat := 0
  pwrlim : Nat := 2400
  pwrest : Nat := 0
  /-- The owner key once burned, and its words as written (fuses). -/
  owner : Option (BitVec 256) := none
  ownerWords : Table DWord := []
  /-- Highest accepted SEQ. -/
  seq : Option Nat := none
  /-- Plain registers of the package window by offset (00 R8): NONCE and CONNSEL. -/
  regs : Table DWord := []
  connStatus : Nat := 0
  connCtx : BitVec 512 := 0
  /-- ATTCTL.BUSY, the report in the making and the report buffer. -/
  attBusy : Bool := false
  attReport : List Byte := []
  report : Memory := []
  /-- Flash: the bytes written to two banks (another reads as the module was shipped, log 8), the active one and whether the other is tried first; the fused least SECVER. -/
  bank0 : Table Byte := []
  bank1 : Table Byte := []
  bank : Nat := 0
  commit : Bool := false
  minVer : Nat := 0
  secver : Nat := 0
  image : BitVec 256 := 0
  /-- us of the I/O die's reference clock (00 R4). -/
  us : Nat := 0
  /-- The partition whose turn to read records it is (19 R382). -/
  turn : Nat := 0
  deriving DecidableEq, Repr

/-- A hardware error as a detector meets it (00 R5, 13 R307, 15 R334, 23 R442): in a register of a thread, a pool word
(offset / 8), a bank word (offset / 4), a handle or task entry of a core, a line of a home slice, a gather-cache block, a
cluster's TLB entry, reverse map, next peer transfer or barrier unit, or a grid-table entry. -/
inductive HwErr where
  | register (thread reg : Nat)
  | pool (core word : Nat)
  | bank (core word : Nat)
  | handle (core entry : Nat)
  | task (core entry : Nat)
  | slice (line : Nat)
  /-- A visitor line of a slice of a die (17 R344). -/
  | visitor (die line : Nat)
  | gather (core vline : Nat)
  | tlb (cluster page : Nat)
  | reverseMap (cluster : Nat)
  | peer (cluster : Nat)
  | barrier (cluster : Nat)
  | gridEntry (grid : Nat)
  /-- An HBM4 sector or tile-store word is left with an error of a kind that its next read meets (17 R353, 09 R190). -/
  | sector (sector kind : Nat)
  | tileWord (core word kind : Nat)
  deriving DecidableEq, Repr

/-- The moves of the package: what happens at the next step (log 1). -/
inductive Move where
  /-- An event row happens. -/
  | event (i : Instr)
  /-- A core forms and issues its next issue set. -/
  | issue (core : Nat)
  /-- One clk of a die passes. -/
  | tick (die : Nat)
  /-- One us of the I/O die's reference clock passes. -/
  | micro
  /-- A hardware error is met; `lasting` says that its retry fails (00 R5). -/
  | error (e : HwErr) (lasting : Bool)
  /-- A packet of a connection arrives marked for congestion (26 R482). -/
  | marked (conn : Nat)
  deriving DecidableEq, Repr

/-- The package. -/
structure State where
  threads : Table Thread
  teams : Table Team
  cores : Table Core
  clusters : Table Cluster
  dies : Table Die
  parts : Table Partition
  dev : DevMem
  /-- Moves that happen next, first first (log 1). -/
  agenda : List Move
  /-- The members of the issue set being issued (07 R151). -/
  issue : List Nat
  /-- The model's own count of free values taken (log 2). -/
  count : Nat
  /-- The model's own supply of keys for threads, teams, grids and commands. -/
  fresh : Nat
  grids : Table Grid
  queues : Table Queue
  conns : Table Conn
  ports : Table Port
  pkg : Pkg
  /-- Dispatcher copies by partition (24 R463). -/
  tides : Table TideCopy
  /-- Answers to requests from outside, oldest first. -/
  replies : List Reply
  /-- Powered off over 115 C (23 R458). -/
  off : Bool
  deriving DecidableEq, Repr

/-- The package right after reset: no partition, no grid, no thread, memory with nothing listed. -/
def State.reset : State :=
  { threads := [], teams := [], cores := [], clusters := [], dies := [], parts := [], dev := {}, agenda := [],
    issue := [], count := 0, fresh := 0, grids := [], queues := [], conns := [], ports := [], pkg := {}, tides := [],
    replies := [], off := false }

end Sys2Proof.Machine
end

