-- ==== Sys2Proof/Machine/Table.lean ====
section
/-! DEFINITION. Lookup and update of tables and memories kept in rising order of their keys. -/

namespace Sys2Proof.Machine

open Sys2Proof

/-- The entry at a key. -/
def tfind {α : Type} : List (Nat × α) → Nat → Option α
  | [], _ => none
  | (j, v) :: r, k => if j = k then some v else if k < j then none else tfind r k

/-- The entry at a key, or a default. -/
def tget {α : Type} (m : List (Nat × α)) (k : Nat) (d : α) : α := (tfind m k).getD d

/-- The table with an entry set. -/
def tput {α : Type} : List (Nat × α) → Nat → α → List (Nat × α)
  | [], k, v => [(k, v)]
  | (j, w) :: r, k, v => if j = k then (k, v) :: r else if k < j then (k, v) :: (j, w) :: r else (j, w) :: tput r k v

/-- The table without an entry. -/
def tdel {α : Type} : List (Nat × α) → Nat → List (Nat × α)
  | [], _ => []
  | (j, w) :: r, k => if j = k then r else if k < j then (j, w) :: r else (j, w) :: tdel r k

/-- The keys of a table. -/
def tkeys {α : Type} (m : List (Nat × α)) : List Nat := m.map (·.1)

/-- A member of a rising list of numbers. -/
def nmem (l : List Nat) (k : Nat) : Bool := l.contains k

/-- A rising list of numbers with one added. -/
def nadd : List Nat → Nat → List Nat
  | [], k => [k]
  | j :: r, k => if j = k then j :: r else if k < j then k :: j :: r else j :: nadd r k

/-- A rising list of numbers with one removed. -/
def ndel (l : List Nat) (k : Nat) : List Nat := l.filter (· != k)

/-- A list with an element put in its place by a number, after equal ones. -/
def insertOn {α : Type} (key : α → Nat) (x : α) : List α → List α
  | [] => [x]
  | y :: r => if key x < key y then x :: y :: r else y :: insertOn key x r

/-- A list in rising order of a number, equal ones in their order. -/
def sortOn {α : Type} (key : α → Nat) (l : List α) : List α := l.foldl (fun r x => insertOn key x r) []

/-- The numbers from 0 with a list's elements. -/
def numbered {α : Type} (l : List α) : List (Nat × α) := (List.range l.length).zip l

/-- The byte at an address; an unlisted address reads 0. -/
def mget (m : Memory) (a : Nat) : Byte := tget m a 0

/-- A memory with one byte written, in the canonical form. -/
def mput (m : Memory) (a : Nat) (b : Byte) : Memory := if b = 0 then tdel m a else tput m a b

/-- The cells of an address range. -/
def mslice (m : Memory) (a n : Nat) : Memory := m.filter fun c => decide (a ≤ c.1) && decide (c.1 < a + n)

/-- `n` bytes from an address on, of a memory with nothing below it. -/
def mread : Nat → Nat → Memory → List Byte
  | 0, _, _ => []
  | n + 1, a, [] => 0 :: mread n (a + 1) []
  | n + 1, a, (k, b) :: r => if k = a then b :: mread n (a + 1) r else 0 :: mread n (a + 1) ((k, b) :: r)

/-- `n` bytes from an address. -/
def mgets (m : Memory) (a n : Nat) : List Byte := mread n a (mslice m a n)

/-- The cells of bytes that stand from an address on. -/
def cellsOf : Nat → List Byte → Memory
  | _, [] => []
  | a, b :: r => if b = 0 then cellsOf (a + 1) r else (a, b) :: cellsOf (a + 1) r

/-- A memory whose range of `n` bytes from `a` holds given cells of that range. -/
def mpatch (m : Memory) (a n : Nat) (cells : Memory) : Memory :=
  m.filter (fun c => decide (c.1 < a)) ++ cells ++ m.filter (fun c => decide (a + n ≤ c.1))

/-- Bytes written from an address on. -/
def mputs (m : Memory) (a : Nat) (bs : List Byte) : Memory := mpatch m a bs.length (cellsOf a bs)

/-- The cells of an address range, moved to another address. -/
def mmove (m : Memory) (src dst n : Nat) : Memory := (mslice m src n).map fun c => (c.1 - src + dst, c.2)

/-- The little-endian number of a byte list (00 R7). -/
def leNat : List Byte → Nat
  | [] => 0
  | b :: r => b.toNat + 256 * leNat r

/-- A number as `n` little-endian bytes (00 R7). -/
def leBytes : Nat → Nat → List Byte
  | 0, _ => []
  | n + 1, v => BitVec.ofNat 8 v :: leBytes n (v / 256)

/-- The little-endian number of `n` bytes at an address. -/
def mgetN (m : Memory) (a n : Nat) : Nat := (mslice m a n).foldl (fun x c => x + c.2.toNat * 256 ^ (c.1 - a)) 0

/-- A number written as `n` little-endian bytes at an address. -/
def mputN (m : Memory) (a n v : Nat) : Memory := mputs m a (leBytes n v)

/-- `n` zero bytes from an address on. -/
def mzero (m : Memory) (a n : Nat) : Memory := mpatch m a n []

/-- The entries of a table outside a range of keys. -/
def tclear {α : Type} (m : List (Nat × α)) (a n : Nat) : List (Nat × α) := m.filter fun c => c.1 < a || a + n ≤ c.1

/-- Keys strictly rising and above a bound. -/
def risingFrom {α : Type} : Nat → List (Nat × α) → Bool
  | _, [] => true
  | b, (k, _) :: r => decide (b ≤ k) && risingFrom (k + 1) r

/-- Keys strictly rising. -/
def rising {α : Type} (m : List (Nat × α)) : Bool := risingFrom 0 m

/-- The canonical form of a memory: addresses strictly rising, no byte equal to what an unlisted one reads. -/
def Memory.wf (m : Memory) : Bool := rising m && m.all fun c => c.2 != 0

end Sys2Proof.Machine
end

