-- ==== Sys2Proof/Machine/Aes.lean ====
section
/-! DEFINITION. AES-256-XTS (FIPS 197, IEEE 1619), which encrypts the payloads of HBM4 (17 R355; log 10). -/

namespace Sys2Proof.Machine

open Sys2Proof

/-- The S-box of AES. -/
def sboxTable : List Nat :=
  [0x63, 0x7C, 0x77, 0x7B, 0xF2, 0x6B, 0x6F, 0xC5, 0x30, 0x01, 0x67, 0x2B, 0xFE, 0xD7, 0xAB, 0x76]
  ++ [0xCA, 0x82, 0xC9, 0x7D, 0xFA, 0x59, 0x47, 0xF0, 0xAD, 0xD4, 0xA2, 0xAF, 0x9C, 0xA4, 0x72, 0xC0]
  ++ [0xB7, 0xFD, 0x93, 0x26, 0x36, 0x3F, 0xF7, 0xCC, 0x34, 0xA5, 0xE5, 0xF1, 0x71, 0xD8, 0x31, 0x15]
  ++ [0x04, 0xC7, 0x23, 0xC3, 0x18, 0x96, 0x05, 0x9A, 0x07, 0x12, 0x80, 0xE2, 0xEB, 0x27, 0xB2, 0x75]
  ++ [0x09, 0x83, 0x2C, 0x1A, 0x1B, 0x6E, 0x5A, 0xA0, 0x52, 0x3B, 0xD6, 0xB3, 0x29, 0xE3, 0x2F, 0x84]
  ++ [0x53, 0xD1, 0x00, 0xED, 0x20, 0xFC, 0xB1, 0x5B, 0x6A, 0xCB, 0xBE, 0x39, 0x4A, 0x4C, 0x58, 0xCF]
  ++ [0xD0, 0xEF, 0xAA, 0xFB, 0x43, 0x4D, 0x33, 0x85, 0x45, 0xF9, 0x02, 0x7F, 0x50, 0x3C, 0x9F, 0xA8]
  ++ [0x51, 0xA3, 0x40, 0x8F, 0x92, 0x9D, 0x38, 0xF5, 0xBC, 0xB6, 0xDA, 0x21, 0x10, 0xFF, 0xF3, 0xD2]
  ++ [0xCD, 0x0C, 0x13, 0xEC, 0x5F, 0x97, 0x44, 0x17, 0xC4, 0xA7, 0x7E, 0x3D, 0x64, 0x5D, 0x19, 0x73]
  ++ [0x60, 0x81, 0x4F, 0xDC, 0x22, 0x2A, 0x90, 0x88, 0x46, 0xEE, 0xB8, 0x14, 0xDE, 0x5E, 0x0B, 0xDB]
  ++ [0xE0, 0x32, 0x3A, 0x0A, 0x49, 0x06, 0x24, 0x5C, 0xC2, 0xD3, 0xAC, 0x62, 0x91, 0x95, 0xE4, 0x79]
  ++ [0xE7, 0xC8, 0x37, 0x6D, 0x8D, 0xD5, 0x4E, 0xA9, 0x6C, 0x56, 0xF4, 0xEA, 0x65, 0x7A, 0xAE, 0x08]
  ++ [0xBA, 0x78, 0x25, 0x2E, 0x1C, 0xA6, 0xB4, 0xC6, 0xE8, 0xDD, 0x74, 0x1F, 0x4B, 0xBD, 0x8B, 0x8A]
  ++ [0x70, 0x3E, 0xB5, 0x66, 0x48, 0x03, 0xF6, 0x0E, 0x61, 0x35, 0x57, 0xB9, 0x86, 0xC1, 0x1D, 0x9E]
  ++ [0xE1, 0xF8, 0x98, 0x11, 0x69, 0xD9, 0x8E, 0x94, 0x9B, 0x1E, 0x87, 0xE9, 0xCE, 0x55, 0x28, 0xDF]
  ++ [0x8C, 0xA1, 0x89, 0x0D, 0xBF, 0xE6, 0x42, 0x68, 0x41, 0x99, 0x2D, 0x0F, 0xB0, 0x54, 0xBB, 0x16]

/-- SubBytes of a byte, and its inverse. -/
def subByte (b : Byte) : Byte := BitVec.ofNat 8 (sboxTable.getD b.toNat 0)
def unsubByte (b : Byte) : Byte := BitVec.ofNat 8 (sboxTable.idxOf b.toNat)

/-- A column of the AES state. -/
structure AesCol where
  a : Byte
  b : Byte
  c : Byte
  d : Byte
  deriving DecidableEq, Repr

/-- The AES state: four columns. -/
structure AesBlock where
  p : AesCol
  q : AesCol
  r : AesCol
  s : AesCol
  deriving DecidableEq, Repr

/-- Multiplication by x in GF(2^8). -/
def xtime (v : Byte) : Byte := (v <<< 1) ^^^ (if v.msb then 0x1B else 0)
/-- Multiplication by 2, 3, 9, 11, 13 and 14, as sums of doublings. -/
def times3 (v : Byte) : Byte := xtime v ^^^ v
def times9 (v : Byte) : Byte := xtime (xtime (xtime v)) ^^^ v
def times11 (v : Byte) : Byte := xtime (xtime (xtime v)) ^^^ xtime v ^^^ v
def times13 (v : Byte) : Byte := xtime (xtime (xtime v)) ^^^ xtime (xtime v) ^^^ v
def times14 (v : Byte) : Byte := xtime (xtime (xtime v)) ^^^ xtime (xtime v) ^^^ xtime v

/-- A function of bytes applied to each byte of a column, and of a block. -/
def AesCol.map (f : Byte → Byte) (x : AesCol) : AesCol := { a := f x.a, b := f x.b, c := f x.c, d := f x.d }
def AesBlock.map (f : AesCol → AesCol) (x : AesBlock) : AesBlock := { p := f x.p, q := f x.q, r := f x.r, s := f x.s }

/-- The sum of two columns, and of two blocks. -/
def AesCol.xor (x y : AesCol) : AesCol := { a := x.a ^^^ y.a, b := x.b ^^^ y.b, c := x.c ^^^ y.c, d := x.d ^^^ y.d }
def AesBlock.xor (x y : AesBlock) : AesBlock :=
  { p := x.p.xor y.p, q := x.q.xor y.q, r := x.r.xor y.r, s := x.s.xor y.s }

/-- MixColumns of a column, and its inverse. -/
def AesCol.mix (x : AesCol) : AesCol :=
  { a := xtime x.a ^^^ times3 x.b ^^^ x.c ^^^ x.d, b := x.a ^^^ xtime x.b ^^^ times3 x.c ^^^ x.d,
    c := x.a ^^^ x.b ^^^ xtime x.c ^^^ times3 x.d, d := times3 x.a ^^^ x.b ^^^ x.c ^^^ xtime x.d }
def AesCol.unmix (x : AesCol) : AesCol :=
  { a := times14 x.a ^^^ times11 x.b ^^^ times13 x.c ^^^ times9 x.d, b := times9 x.a ^^^ times14 x.b ^^^ times11 x.c ^^^ times13 x.d,
    c := times13 x.a ^^^ times9 x.b ^^^ times14 x.c ^^^ times11 x.d, d := times11 x.a ^^^ times13 x.b ^^^ times9 x.c ^^^ times14 x.d }

/-- ShiftRows, and its inverse. -/
def AesBlock.shift (x : AesBlock) : AesBlock :=
  { p := { a := x.p.a, b := x.q.b, c := x.r.c, d := x.s.d }, q := { a := x.q.a, b := x.r.b, c := x.s.c, d := x.p.d },
    r := { a := x.r.a, b := x.s.b, c := x.p.c, d := x.q.d }, s := { a := x.s.a, b := x.p.b, c := x.q.c, d := x.r.d } }
def AesBlock.unshift (x : AesBlock) : AesBlock :=
  { p := { a := x.p.a, b := x.s.b, c := x.r.c, d := x.q.d }, q := { a := x.q.a, b := x.p.b, c := x.s.c, d := x.r.d },
    r := { a := x.r.a, b := x.q.b, c := x.p.c, d := x.s.d }, s := { a := x.s.a, b := x.r.b, c := x.q.c, d := x.p.d } }

/-- The round keys of AES-256, in pairs: `n` more after the pair `x`, `y`. -/
def aesKeys : Nat → Byte → AesBlock → AesBlock → List AesBlock
  | 0, _, x, y => [x, y]
  | n + 1, rc, x, y =>
    let turn (w : AesCol) : AesCol := { a := subByte w.b ^^^ rc, b := subByte w.c, c := subByte w.d, d := subByte w.a }
    let next (z : AesBlock) (w : AesCol) : AesBlock :=
      let p := z.p.xor w
      let q := z.q.xor p
      let r := z.r.xor q
      { p := p, q := q, r := r, s := z.s.xor r }
    let u := next x (turn y.s)
    let v := next y (u.s.map subByte)
    x :: y :: aesKeys n (xtime rc) u v

/-- The 16 bytes of a block. -/
def AesCol.bytes (x : AesCol) : List Byte := [x.a, x.b, x.c, x.d]
def AesBlock.bytes (x : AesBlock) : List Byte := x.p.bytes ++ x.q.bytes ++ x.r.bytes ++ x.s.bytes
/-- The column, and the block, at the head of a string of bytes. -/
def aesCol (bs : List Byte) : AesCol := { a := bs.getD 0 0, b := bs.getD 1 0, c := bs.getD 2 0, d := bs.getD 3 0 }
def aesBlock (bs : List Byte) : AesBlock :=
  { p := aesCol bs, q := aesCol (bs.drop 4), r := aesCol (bs.drop 8), s := aesCol (bs.drop 12) }

/-- The 15 round keys of a 256-bit key. -/
def aesSchedule (key : BitVec 256) : List AesBlock :=
  let k := leBytes 32 key.toNat
  (aesKeys 7 1 (aesBlock k) (aesBlock (k.drop 16))).take 15

/-- The rounds of the cipher with the round keys left: the last one mixes no columns. -/
def aesRounds : List AesBlock → AesBlock → AesBlock
  | [], x => x
  | [k], x => ((x.map (·.map subByte)).shift).xor k
  | k :: r, x => aesRounds r ((((x.map (·.map subByte)).shift).map AesCol.mix).xor k)
/-- The rounds undone. -/
def aesUnrounds : List AesBlock → AesBlock → AesBlock
  | [], x => x
  | [k], x => ((x.xor k).unshift).map (·.map unsubByte)
  | k :: r, x => ((((aesUnrounds r x).xor k).map AesCol.unmix).unshift).map (·.map unsubByte)

/-- A block encrypted under round keys, and decrypted (FIPS 197). -/
def aesEncrypt (ks : List AesBlock) (x : AesBlock) : AesBlock :=
  match ks with | [] => x | k :: r => aesRounds r (x.xor k)
def aesDecrypt (ks : List AesBlock) (x : AesBlock) : AesBlock :=
  match ks with | [] => x | k :: r => (aesUnrounds r x).xor k

/-- The next tweak: multiplication by x in GF(2^128), the first byte lowest (IEEE 1619). -/
def nextTweak (t : BitVec 128) : BitVec 128 := (t <<< 1) ^^^ (if t.msb then 0x87 else 0)

/-- The block of 128 bits, the first byte lowest. -/
def blockOf128 (t : BitVec 128) : AesBlock := aesBlock (leBytes 16 t.toNat)

/-- The blocks of a data unit, each through a cipher between two sums with its tweak. -/
def xtsBlocks (f : AesBlock → AesBlock) : Nat → BitVec 128 → List Byte → List Byte
  | 0, _, bs => bs
  | n + 1, t, bs =>
    let w := blockOf128 t
    ((f ((aesBlock bs).xor w)).xor w).bytes ++ xtsBlocks f n (nextTweak t) (bs.drop 16)

/-- The first tweak of a data unit. -/
def firstTweak (key : BitVec 512) (unit : Nat) : BitVec 128 :=
  BitVec.ofNat 128 (leNat (aesEncrypt (aesSchedule (key.extractLsb' 256 256)) (blockOf128 (BitVec.ofNat 128 unit))).bytes)

/-- A data unit encrypted under a 512-bit key, whose low half encrypts the blocks and whose high half the data-unit number, and
decrypted. It is whole blocks of 16 bytes (17 R355). -/
def xtsEncrypt (key : BitVec 512) (unit : Nat) (text : List Byte) : List Byte :=
  xtsBlocks (aesEncrypt (aesSchedule (key.extractLsb' 0 256))) (text.length / 16) (firstTweak key unit) text
def xtsDecrypt (key : BitVec 512) (unit : Nat) (text : List Byte) : List Byte :=
  xtsBlocks (aesDecrypt (aesSchedule (key.extractLsb' 0 256))) (text.length / 16) (firstTweak key unit) text

end Sys2Proof.Machine
end

