-- ==== Sys2Proof/Machine/Codec.lean ====
section
/-! DEFINITION. The line codec (17 R348 to R350): eight encodings of a 128-byte line, encode and decode. -/

namespace Sys2Proof.Machine

open Sys2Proof

/-- The `k` little-endian elements of `n` bytes of a byte list. -/
def elemsOf (n k : Nat) (bs : List Byte) : List Nat :=
  (List.range k).map fun i => leNat ((bs.drop (n * i)).take n)

/-- The payload bytes and sector count of a TAG (17 R348). -/
def payloadSize : Nat → Nat
  | 1 => 0 | 2 => 4 | 3 => 24 | 4 => 40 | 5 => 72 | 6 => 36 | 7 => 68 | _ => 128
/-- Sectors of a TAG (17 R348). -/
def sectorsOf : Nat → Nat
  | 1 => 1 | 2 => 1 | 3 => 1 | 4 => 2 | 5 => 3 | 6 => 2 | 7 => 3 | _ => 4

/-- Decode of a base/delta payload: elements of `w` bytes, deltas of `n` bytes (17 R349). -/
def decodeDelta (w n : Nat) (p : List Byte) : List Byte :=
  let e0 := leNat (p.take w)
  (List.range (128 / w)).flatMap fun i =>
    leBytes w (wrapNat (8 * w) (e0 + signedOf (8 * n) (leNat ((p.drop (w + n * i)).take n))))

/-- The 128 bytes that a payload decodes into (17 R349); a reserved TAG gives the payload as raw. -/
def decodeLine (tag : Nat) (p : List Byte) : List Byte :=
  match tag with
  | 1 => List.replicate 128 0
  | 2 => (List.range 32).flatMap fun _ => p.take 4
  | 3 => decodeDelta 8 1 p
  | 4 => decodeDelta 8 2 p
  | 5 => decodeDelta 8 4 p
  | 6 => decodeDelta 4 1 p
  | 7 => decodeDelta 4 2 p
  | _ => p

/-- A base/delta payload of a line (17 R350). -/
def encodeDelta (w n : Nat) (line : List Byte) : List Byte :=
  let es := elemsOf w (128 / w) line
  let e0 := es.headD 0
  leBytes w e0 ++ es.flatMap fun (e : Nat) => leBytes n (wrapNat (8 * n) ((e : Int) - e0))

/-- Whether every delta of a line fits `n` bytes (17 R350). -/
def deltaFits (w n : Nat) (line : List Byte) : Bool :=
  let es := elemsOf w (128 / w) line
  let e0 := es.headD 0
  es.all fun e =>
    let d := signedOf (8 * w) (wrapNat (8 * w) ((e : Int) - e0))
    decide (-(2 ^ (8 * n - 1) : Int) ≤ d) && decide (d ≤ (2 ^ (8 * n - 1) : Int) - 1)

/-- TAG and payload of a line: the first encoding of R350's order that reproduces it, or raw when forced. -/
def encodeLine (forceRaw : Bool) (line : List Byte) : Nat × List Byte :=
  if forceRaw then (0, line)
  else if line.all (· == 0) then (1, [])
  else if (elemsOf 4 32 line).all (· == leNat (line.take 4)) then (2, line.take 4)
  else if deltaFits 8 1 line then (3, encodeDelta 8 1 line)
  else if deltaFits 4 1 line then (6, encodeDelta 4 1 line)
  else if deltaFits 8 2 line then (4, encodeDelta 8 2 line)
  else if deltaFits 4 2 line then (7, encodeDelta 4 2 line)
  else if deltaFits 8 4 line then (5, encodeDelta 8 4 line)
  else (0, line)

end Sys2Proof.Machine
end

