-- ==== Sys2Proof/Machine/Access.lean ====
section
/-! DEFINITION. Reading and updating the parts of the state: threads, teams, cores, clusters, dies, partitions,
and the counters of their windows. -/

namespace Sys2Proof.Machine

open Sys2Proof

/-- Die of a core number (00 R3): 192 cores a die. -/
def dieOf (c : Nat) : Nat := c / 192
/-- Cluster of a core number, 3 x die + cluster: 64 cores a cluster. -/
def clusterOf (c : Nat) : Nat := c / 64

def State.thread? (s : State) (k : Nat) : Option Thread := tfind s.threads k
def State.team? (s : State) (k : Nat) : Option Team := tfind s.teams k
def State.core (s : State) (c : Nat) : Core := tget s.cores c {}
def State.die (s : State) (d : Nat) : Die := tget s.dies d {}
def State.cluster (s : State) (c : Nat) : Cluster := tget s.clusters c {}
def State.part (s : State) (p : Nat) : Partition := tget s.parts p {}

def State.putThread (s : State) (k : Nat) (t : Thread) : State := { s with threads := tput s.threads k t }
def State.putTeam (s : State) (k : Nat) (t : Team) : State := { s with teams := tput s.teams k t }
def State.putCore (s : State) (c : Nat) (v : Core) : State := { s with cores := tput s.cores c v }
def State.putDie (s : State) (d : Nat) (v : Die) : State := { s with dies := tput s.dies d v }
def State.putCluster (s : State) (c : Nat) (v : Cluster) : State := { s with clusters := tput s.clusters c v }
def State.putPart (s : State) (p : Nat) (v : Partition) : State := { s with parts := tput s.parts p v }

/-- Update a thread that exists. -/
def State.modThread (s : State) (k : Nat) (f : Thread → Thread) : State :=
  match s.thread? k with | some t => s.putThread k (f t) | none => s
/-- Update a team that exists. -/
def State.modTeam (s : State) (k : Nat) (f : Team → Team) : State :=
  match s.team? k with | some t => s.putTeam k (f t) | none => s
def State.modCore (s : State) (c : Nat) (f : Core → Core) : State := s.putCore c (f (s.core c))
def State.modDie (s : State) (d : Nat) (f : Die → Die) : State := s.putDie d (f (s.die d))
def State.modCluster (s : State) (c : Nat) (f : Cluster → Cluster) : State := s.putCluster c (f (s.cluster c))
def State.modPart (s : State) (p : Nat) (f : Partition → Partition) : State := s.putPart p (f (s.part p))

/-- A counter of a window raised by `n`, wrapping at 64 bits. -/
def bumpAt (t : Table DWord) (off n : Nat) : Table DWord := tput t off (tget t off 0 + BitVec.ofNat 64 n)

/-- A core counter raised (07 R155). -/
def State.bumpCore (s : State) (c off n : Nat) : State := s.modCore c fun v => { v with counters := bumpAt v.counters off n }
/-- A die counter raised (17 R358). -/
def State.bumpDie (s : State) (d off n : Nat) : State := s.modDie d fun v => { v with counters := bumpAt v.counters off n }

/-- The next free value of the model's count, and the state with the count advanced (log 2). -/
def State.takeFree (s : State) : Nat × State := (Config.freeNat s.count, { s with count := s.count + 1 })

/-- The die clk a core counts (00 R4). -/
def State.clkOf (s : State) (c : Nat) : Nat := (s.die (dieOf c)).clk

/-- The threads of a team, in creation-key order. -/
def State.threadsOf (s : State) (team : Nat) : List (Nat × Thread) := s.threads.filter fun e => e.2.team == team

/-- The teams on a core. -/
def State.teamsOn (s : State) (core : Nat) : List (Nat × Team) := s.teams.filter fun e => e.2.core == core

end Sys2Proof.Machine
end

