-- ==== Sys2Proof/Machine/Record.lean ====
section
/-! DEFINITION. The 64-byte records sent to a partition's fault queue (18 R369, 23 R444). -/

namespace Sys2Proof.Machine

open Sys2Proof

/-- A 64-bit record word from its two 32-bit halves. -/
def recWord (lo hi : Nat) : DWord := BitVec.ofNat 64 (lo % 2 ^ 32 + 2 ^ 32 * hi)

/-- A connection's state. -/
def State.conn (s : State) (c : Nat) : Conn := tget s.conns c {}
def State.putConn (s : State) (c : Nat) (v : Conn) : State := { s with conns := tput s.conns c v }
def State.modConn (s : State) (c : Nat) (f : Conn → Conn) : State := s.putConn c (f (s.conn c))
/-- A host queue's state. -/
def State.queue (s : State) (q : Nat) : Queue := tget s.queues q {}
def State.modQueue (s : State) (q : Nat) (f : Queue → Queue) : State := { s with queues := tput s.queues q (f (s.queue q)) }
/-- A grid that exists. -/
def State.grid? (s : State) (g : Nat) : Option Grid := tfind s.grids g
def State.modGrid (s : State) (g : Nat) (f : Grid → Grid) : State :=
  match s.grid? g with | some v => { s with grids := tput s.grids g (f v) } | none => s

/-- A request put in line on a connection; it stays there until it is acknowledged (26 R486, R493). -/
def sendMsg (conn : Nat) (m : Msg) (s : State) : State :=
  s.modConn conn fun c => { c with queue := c.queue ++ [m], since := if c.queue.isEmpty then s.pkg.us else c.since }

/-- A message of a grid sent, or received, as a die counts it (19 R397). -/
def countSent (g die : Nat) (s : State) : State := s.modGrid g fun v => { v with sent := tput v.sent die (tget v.sent die 0 + 1) }
def countRecv (g die : Nat) (s : State) : State := s.modGrid g fun v => { v with recv := tput v.recv die (tget v.recv die 0 + 1) }

/-- The bytes of record words. -/
def recordBytes (ws : List DWord) : List Byte := ws.flatMap fun w => leBytes 8 w.toNat

/-- A 64-byte record written by RDMA WRITE to slot `n` of a ring of 2^log records (26 R493). -/
def sendRecord (kind owner conn rkey base log n : Nat) (ws : List DWord) (s : State) : State :=
  sendMsg conn { op := 0, rkey := rkey, addr := (base + 64 * (n % 2 ^ log)) % 2 ^ 64, len := 64, data := recordBytes ws,
                 what := .record kind owner } s

/-- A record sent to the partition's fault queue; FQIDX counts it when it is acknowledged (18 R369, 19 R381, 26 R493). -/
def postFault (p : Nat) (ws : List DWord) (s : State) : State :=
  let v := s.part p
  let k := v.fqctl.toNat
  let s := sendRecord 0 p (bitsAt k 16 16) (bitsAt k 32 32) v.fqaddr.toNat (bitsAt k 0 5) v.fqsent ws s
  s.modPart p fun v => { v with fqsent := v.fqsent + 1 }

/-- A plain register of a partition window (00 R8). -/
def Partition.reg (v : Partition) (off : Nat) : Nat := (tget v.regs off 0).toNat

/-- A record sent to the partition's debugger queue (24 R460, 26 R493). -/
def postDebug (p : Nat) (ws : List DWord) (s : State) : State :=
  let v := s.part p
  let k := v.reg 0x190
  let s := sendRecord 2 p (bitsAt k 16 16) (bitsAt k 32 32) (v.reg 0x188) (bitsAt k 0 5) v.dbgsent ws s
  s.modPart p fun v => { v with dbgsent := v.dbgsent + 1 }

/-- A completion record of a queue (19 R398, 26 R493). -/
def postCompletion (q : Nat) (ws : List DWord) (s : State) : State :=
  let v := s.queue q
  let s := sendRecord 1 q (v.cqconn.toNat % 2 ^ 16) (bitsAt v.cqconn.toNat 32 32) v.cqaddr.toNat
    (bitsAt v.qctl.toNat 20 5) v.cqsent ws s
  s.modQueue q fun v => { v with cqsent := v.cqsent + 1 }

/-- The location part of a FAULTID: die, cluster and core (18 R369). -/
def faultLoc (core : Nat) : Nat := dieOf core * 2 ^ 30 + (core / 64 % 3) * 2 ^ 28 + (core % 64) * 2 ^ 22

/-- The fields of an HWERROR record (23 R444, TYPE 6). `flags` holds bits 8 and up of the word at 0x04. -/
def hwErrorWords (source flags loc addr grid team : Nat) : List DWord :=
  [recWord 6 (source + flags), recWord loc 0, BitVec.ofNat 64 addr, 0, recWord grid team, 0, 0, 0]

/-- The partition that holds a device-memory line's block (23 R439, R444). -/
def partOfPa (s : State) (pa : Nat) : Option Nat :=
  let b := 192 * bitsAt pa 38 2 + bitsAt pa 30 8
  (List.range 12).find? fun p => nmem (s.part p).grant b

/-- The partition that owns a cluster (23 R438). -/
def partOfCluster (s : State) (c : Nat) : Option Nat :=
  (List.range 12).find? fun p => (s.part p).exist && (s.part p).clusters.getLsbD c

/-- The partition that owns a core. -/
def partOfCore (s : State) (c : Nat) : Option Nat := partOfCluster s (clusterOf c)

/-- A retry or rerun changes a partition's timing: PERTURB is set (24 R461). -/
def perturb (p : Option Nat) (s : State) : State :=
  match p with | some p => s.modPart p fun v => { v with perturb := true } | none => s

/-- A core is withdrawn (23 R443). -/
def withdrawCore (core : Nat) (s : State) : State := s.modCore core fun c => { c with withdrawn := true }
/-- A cluster is withdrawn: its 64 cores are (23 R443). -/
def withdrawCluster (cl : Nat) (s : State) : State := (List.range 64).foldl (fun s k => withdrawCore (64 * cl + k) s) s

/-- The HWERROR record of a lasting error at a core's storage, sent to the partition that owns the core (23 R444). -/
def coreError (core source flags addr : Nat) (s : State) : State :=
  match partOfCore s core with
  | some p => postFault p (hwErrorWords source (256 + flags) (faultLoc core) addr 0 0) s
  | none => s

end Sys2Proof.Machine
end

