-- ==== Sys2Proof/Machine/Dev.lean ====
section
/-! DEFINITION. Device memory: home copies, visitor copies, HBM4 images (17 R342 to R357), and the releases and
acquires that act on them (22 R421 to R428). -/

namespace Sys2Proof.Machine

open Sys2Proof

/-- What an access brings beside its address: the partition, the key slot of its leaf, and whether the leaf's
compressible flag is clear (17 R344, R354). -/
structure Acc where
  part : Nat
  key : Nat
  nc : Bool
  deriving DecidableEq, Repr

/-- Home die of a physical address (17 R342). -/
def homeDie (pa : Nat) : Nat := bitsAt pa 38 2
/-- Frame of a physical address within its die (17 R342). -/
def frameOf (pa : Nat) : Nat := bitsAt pa 0 38 / 65536
/-- A device-memory address of a populated frame (17 R342). -/
def devAddrOk (pa : Nat) : Bool := bitsAt pa 40 12 == 0 && decide (frameOf pa < 2197263)
/-- Line index of a physical address in its frame (17 R342). -/
def lineIndex (pa : Nat) : Nat := bitsAt pa 7 9
/-- Stack of a physical address on its home die, and its frame within the stack (17 R343). -/
def stackOf (pa : Nat) : Nat := frameOf pa % 3
def stackFrame (pa : Nat) : Nat := frameOf pa / 3
/-- Pseudo-channel of a physical address in its stack (17 R343). -/
def pseudoChannel (pa : Nat) : Nat :=
  8 * (bitsAt (lineIndex pa) 3 3 ^^^ bitsAt (lineIndex pa) 6 3) + bitsAt (lineIndex pa) 0 3
/-- Home slice of a physical address on its home die, and its set there (17 R343, R344). -/
def homeSlice (pa : Nat) : Nat := 64 * stackOf pa + pseudoChannel pa
def sliceSet (pa : Nat) : Nat := (stackFrame pa ^^^ (32 * bitsAt (lineIndex pa) 6 3)) % 256
/-- The data-unit number of a line's encryption (17 R355). -/
def dataUnit (pa : Nat) : Nat := bitsAt pa 7 45

/-- The key value a slot holds (17 R354). -/
def keyValue (s : State) (p slot : Nat) : Option (BitVec 512) := tfind (s.part p).keys slot
/-- An access may go through a slot: it holds a key that is not being cleared (17 R354, 23 R441). -/
def keyOpen (s : State) (p slot : Nat) : Bool :=
  (keyValue s p slot).isSome && !((s.part p).keyOp == 2 && (s.part p).keySlot == slot)

/-- A payload encrypted for a line's HBM4 slot under the value of a key slot, and decrypted (17 R355; log 10). -/
def encrypted (k : Option (BitVec 512)) (line : Nat) (p : List Byte) : List Byte :=
  match k with | some k => xtsEncrypt k (dataUnit (128 * line)) p | none => p
def decrypted (k : Option (BitVec 512)) (line : Nat) (p : List Byte) : List Byte :=
  match k with | some k => xtsDecrypt k (dataUnit (128 * line)) p | none => p

/-- The sectors that hold a line of a TAG: its payload with zero padding, encrypted. A zero line needs none of its bytes, and the
model keeps none of them (17 R350, R355; log 10). -/
def sectorBytes (k : Option (BitVec 512)) (line tag : Nat) (p : List Byte) : List Byte :=
  let n := 32 * sectorsOf tag
  if tag = 1 then List.replicate n 0 else encrypted k line (p ++ List.replicate (n - p.length) 0)

/-- The line that its sectors hold under a key (17 R349, R355). -/
def lineFrom (k : Option (BitVec 512)) (line tag : Nat) (hbm : Memory) : List Byte :=
  decodeLine tag (if tag = 1 then [] else decrypted k line (mgets hbm (128 * line) (32 * sectorsOf tag)))

/-- The sectors of a line that an error of a kind stands in, among those its TAG needs (17 R353). -/
def sectorsWith (s : State) (line tag kind : Nat) : List Nat :=
  (List.range (sectorsOf tag)).filter fun i => tget s.dev.sectorErr (4 * line + i) 0 == kind

/-- Post the records of a persistent error in a line: HWERROR and the page-retirement request (17 R353, 18 R369). -/
def postLineError (line : Nat) (s : State) : State :=
  match partOfPa s (128 * line) with
  | none => s
  | some p =>
    let d := homeDie (128 * line)
    let q := (s.die d).retireSeq
    let s := s.modDie d fun v => { v with retireSeq := (q + 1) % 2 ^ 22 }
    let s := postFault p (hwErrorWords 1 256 (d * 2 ^ 30) (128 * line) 0 0) s
    postFault p [recWord 3 0, recWord q 0xFFFFFFFF, 0, recWord 0 0xFFFFFFFF, 0, BitVec.ofNat 64 (128 * line), 0, 0] s

/-- Read a line from HBM4 into its home slice (17 R344, R353). -/
def homeFill (a : Acc) (line : Nat) (s : State) : State :=
  let m := tget s.dev.hbmMeta line {}
  let bytes := lineFrom (keyValue s a.part a.key) line m.tag s.dev.hbm
  let bad := sectorsWith s line m.tag 3
  let fixed := sectorsWith s line m.tag 1
  let again := sectorsWith s line m.tag 2
  let poison := m.poison || decide (m.tag ≥ 8) || !bad.isEmpty
  let h := HomeMeta.mk (!fixed.isEmpty) false false a.key poison a.part false 0 0 0
  let d := homeDie (128 * line)
  let s := { s with dev := { s.dev with home := mputs s.dev.home (128 * line) bytes,
                                        homeMeta := tput s.dev.homeMeta line h,
                                        sectorErr := again.foldl (fun t i => tdel t (4 * line + i)) s.dev.sectorErr } }
  let s := s.bumpDie d 0x58 fixed.length
  let s := s.bumpDie d 0x60 (again.length + bad.length)
  let s := if !bad.isEmpty || decide (m.tag ≥ 8) then s.bumpDie d 0x68 1 else s
  let s := if again.isEmpty && bad.isEmpty then s else perturb (partOfPa s (128 * line)) s
  if bad.isEmpty then s else postLineError line s

/-- The line held at its home slice, filled from HBM4 when absent. -/
def homeTouch (a : Acc) (line : Nat) (s : State) : State :=
  match tfind s.dev.homeMeta line with | some _ => s | none => homeFill a line s

/-- A line about to be written whole is held at its home slice: an absent one needs nothing of HBM4 (17 R351). -/
def homeTake (a : Acc) (line : Nat) (s : State) : State :=
  match tfind s.dev.homeMeta line with
  | some _ => s
  | none => { s with dev := { s.dev with homeMeta := tput s.dev.homeMeta line { key := a.key, part := a.part } } }

/-- The home slice's state of a line. -/
def homeMetaOf (s : State) (line : Nat) : HomeMeta := tget s.dev.homeMeta line {}

/-- Set the home slice's state of a line. -/
def putHomeMeta (line : Nat) (h : HomeMeta) (s : State) : State :=
  { s with dev := { s.dev with homeMeta := tput s.dev.homeMeta line h } }

/-- The bits `off` to `off + n - 1` of a line's byte mask. -/
def byteMask (off n : Nat) : BitVec 128 := BitVec.ofNat 128 ((2 ^ n - 1) * 2 ^ off)

/-- The bytes of a line chosen by a mask, from new bytes. -/
def mputMasked (m : Memory) (base : Nat) (mask : BitVec 128) (bs : List Byte) : Memory :=
  (List.range 128).foldl (fun m i => if mask.getLsbD i then mput m (base + i) (bs.getD i 0) else m) m

/-- One write at the home copy: the bytes of `mask`, full-line or partial (17 R351). -/
def homeWrite (a : Acc) (line : Nat) (mask : BitVec 128) (full poisoned : Bool) (bs : List Byte) (s : State) : State :=
  let s := if full then homeTake a line s else homeTouch a line s
  let h := homeMetaOf s line
  let s := if full || h.rawPend then s else s.bumpDie (homeDie (128 * line)) 0x40 1
  let h := { h with mod := true, nc := a.nc, rawPend := !full, poison := poisoned || (!full && h.poison) }
  { s with dev := { s.dev with home := mputMasked s.dev.home (128 * line) mask bs,
                               homeMeta := tput s.dev.homeMeta line h } }

/-- The visitor state of a line on a die, if the die holds one. -/
def visMetaOf (s : State) (d line : Nat) : Option VisMeta := tfind (s.die d).visMeta line

/-- Write a visitor line's DIRTY bytes back to the home (17 R346). -/
def visWriteBack (d line : Nat) (s : State) : State :=
  match visMetaOf s d line with
  | none => s
  | some v =>
    if v.dirty = 0 then s
    else
      let bs := mgets (s.die d).vis (128 * line) 128
      let s := homeWrite { part := v.part, key := v.key, nc := v.nc } line v.dirty (v.dirty == BitVec.allOnes 128) v.poison bs s
      let s := s.bumpDie d 0x50 1
      s.modDie d fun x => { x with visMeta := tput x.visMeta line { v with dirty := 0 } }

/-- Drop a visitor line; the DIRTY bytes are written back first (17 R346). -/
def visDrop (d line : Nat) (s : State) : State :=
  let s := visWriteBack d line s
  s.modDie d fun x => { x with vis := mzero x.vis (128 * line) 128, visMeta := tdel x.visMeta line }

/-- The visitor lines of a partition on a die. -/
def visLinesOf (s : State) (d p : Nat) : List Nat :=
  ((s.die d).visMeta.filter fun e => e.2.part == p).map (·.1)

/-- The DIRTY visitor lines of a partition on a die with DEP at most `e` (22 R423). -/
def dirtyUpTo (s : State) (d p e : Nat) : List Nat :=
  ((s.die d).visMeta.filter fun x => x.2.part == p && x.2.dirty != 0 && decide (x.2.dep ≤ e)).map (·.1)

/-- Die `d` serves an epoch: it writes back the partition's DIRTY lines with DEP at most `e`, and WBE follows (22 R423). -/
def serveEpoch (d p e : Nat) (s : State) : State :=
  let s := (dirtyUpTo s d p e).foldl (fun s l => visWriteBack d l s) s
  s.modDie d fun x => { x with wbe := tput x.wbe p (max (tget x.wbe p 0) (e + 1)) }

/-- Die `d` serves an epoch that is requested of it (22 R423, R432). -/
def requestEpoch (d p e : Nat) (s : State) : State :=
  serveEpoch d p e ((s.bumpDie d 0x88 1).bumpDie d 0x90 (dirtyUpTo s d p e).length)

/-- A die takes a new release epoch of a partition: the old EP (22 R423). -/
def takeEpoch (d p : Nat) (s : State) : Nat × State :=
  let e := tget (s.die d).ep p 0
  (e, s.modDie d fun x => { x with ep := tput x.ep p (e + 1) })

/-- A requested promotion: die `d` takes a new epoch and serves it (22 R425). -/
def promoteDie (d p : Nat) (s : State) : Nat × State :=
  let (e, s) := takeEpoch d p s
  (e, requestEpoch d p e s)

/-- The epoch that a release record's 32 bits name: the last one taken with those low bits (22 R422). -/
def repEpoch (ep rep : Nat) : Nat := ep - 1 - (ep + 2 ^ 32 - 1 - rep) % 2 ^ 32

/-- The epoch that a home line's release record names. -/
def recordEpoch (s : State) (h : HomeMeta) : Nat := repEpoch (tget (s.die h.rdie).ep h.part 0) h.rep

/-- A home line's release record is another die's and has not been served (22 R424, R425). -/
def recordWaits (v line : Nat) (s : State) : Bool :=
  let h := homeMetaOf s line
  h.rv && h.rdie != v && (decide (h.rsc < 4) || decide (tget (s.die h.rdie).wbe h.part 0 ≤ recordEpoch s h))

/-- Serve the release record of a home line: a wide release by serving its epoch, a narrow one by promotion
(22 R424, R425). `v` is the die that asks; a record of its own die needs nothing. -/
def serveRecord (v line : Nat) (s : State) : State :=
  let h := homeMetaOf s line
  if !recordWaits v line s then s
  else if h.rsc ≥ 4 then requestEpoch h.rdie h.part (recordEpoch s h) s
  else
    let (e, s) := promoteDie h.rdie h.part s
    let s := s.bumpDie (homeDie (128 * line)) 0x98 1
    let h := homeMetaOf s line
    putHomeMeta line { h with rsc := 4, rep := e % 2 ^ 32 } s

/-- Fill the visitor copy of a line from its home (17 R346). -/
def visFill (d : Nat) (a : Acc) (line : Nat) (s : State) : State :=
  let s := homeTouch a line s
  let h := homeMetaOf s line
  let v : VisMeta := { poison := h.poison, key := a.key, part := a.part, nc := h.nc }
  let bs := mgets s.dev.home (128 * line) 128
  let s := s.bumpDie d 0x48 1
  s.modDie d fun x => { x with vis := mputs x.vis (128 * line) bs, visMeta := tput x.visMeta line v }

/-- The copy of a line that die `d` accesses is present (17 R345). -/
def devTouch (d : Nat) (a : Acc) (line : Nat) (s : State) : State :=
  if homeDie (128 * line) = d then homeTouch a line s
  else match visMetaOf s d line with | some _ => s | none => visFill d a line s

/-- The byte that die `d` sees at a physical address whose line it holds. -/
def devByte (s : State) (d pa : Nat) : Byte :=
  if homeDie pa = d then mget s.dev.home pa else mget (s.die d).vis pa

/-- The poison mark that die `d` sees on a line it holds. -/
def devPoison (s : State) (d line : Nat) : Bool :=
  if homeDie (128 * line) = d then (homeMetaOf s line).poison
  else match visMetaOf s d line with | some v => v.poison | none => false

/-- The line numbers that a range of bytes touches. -/
def linesIn (pa n : Nat) : List Nat :=
  if n = 0 then [] else (List.range ((pa + n - 1) / 128 - pa / 128 + 1)).map (· + pa / 128)

/-- A read of `n` bytes by an agent of die `d`: the bytes and whether any line is poisoned (17 R345). -/
def devRead (d : Nat) (a : Acc) (pa n : Nat) (s : State) : (List Byte × Bool) × State :=
  let ls := linesIn pa n
  let s := ls.foldl (fun s l => devTouch d a l s) s
  (((List.range n).map fun i => devByte s d (pa + i), ls.any (devPoison s d)), s)

/-- The bytes of a write that fall in a line, at their places in the line. -/
def lineSlice (pa : Nat) (bs : List Byte) (line : Nat) : List Byte :=
  (List.range 128).map fun i =>
    let x := 128 * line + i
    if x < pa then 0 else bs.getD (x - pa) 0

/-- The mask of a line's bytes that a write of `n` bytes at `pa` covers. -/
def lineMask (pa n line : Nat) : BitVec 128 :=
  let lo := max pa (128 * line)
  let hi := min (pa + n) (128 * line + 128)
  if hi ≤ lo then 0 else byteMask (lo - 128 * line) (hi - lo)

/-- A write to one line by an agent of die `d` (17 R345, R346, R351). -/
def devWriteLine (d : Nat) (a : Acc) (line : Nat) (mask : BitVec 128) (full poisoned : Bool) (bs : List Byte) (s : State) :
    State :=
  if homeDie (128 * line) = d then homeWrite a line mask full poisoned bs s
  else
    let s := devTouch d a line s
    let v := (visMetaOf s d line).getD {}
    let dep := if v.dirty = 0 then tget (s.die d).ep a.part 0 else v.dep
    let dirty := v.dirty ||| mask
    let v := { v with dirty := dirty, poison := poisoned || (v.poison && !(dirty == BitVec.allOnes 128)), nc := a.nc, dep := dep }
    s.modDie d fun x => { x with vis := mputMasked x.vis (128 * line) mask bs, visMeta := tput x.visMeta line v }

/-- A write of bytes by an agent of die `d`. `full` marks the lines that the write's command covers whole (17 R351);
a range that covers a line by itself is a full-line write. -/
def devWrite (d : Nat) (a : Acc) (pa : Nat) (bs : List Byte) (poisoned : Bool) (s : State) : State :=
  (linesIn pa bs.length).foldl (fun s l =>
    let m := lineMask pa bs.length l
    devWriteLine d a l m (m == BitVec.allOnes 128) poisoned (lineSlice pa bs l) s) s

/-- A contribution of die `v` at the home copy: `v`'s visitor copies of the lines are written back and dropped,
then the bytes are read at home (17 R347). -/
def homeRead (v : Nat) (a : Acc) (pa n : Nat) (s : State) : (List Byte × Bool) × State :=
  let ls := linesIn pa n
  let s := ls.foldl (fun s l => homeTouch a l (if homeDie (128 * l) = v then s else visDrop v l s)) s
  (((List.range n).map fun i => mget s.dev.home (pa + i), ls.any fun l => (homeMetaOf s l).poison), s)

/-- A write of bytes at the home copy (17 R347, R351). -/
def homeWriteBytes (a : Acc) (pa : Nat) (bs : List Byte) (poisoned : Bool) (s : State) : State :=
  (linesIn pa bs.length).foldl (fun s l =>
    let m := lineMask pa bs.length l
    homeWrite a l m (m == BitVec.allOnes 128) poisoned (lineSlice pa bs l) s) s

/-- The sectors that an HBM4 write of a line stores anew keep only persistent errors (17 R353). -/
def repaired (t : Table Nat) (line tag : Nat) : Table Nat :=
  (List.range (sectorsOf tag)).foldl (fun t i => if tget t (4 * line + i) 0 == 3 then t else tdel t (4 * line + i)) t

/-- Write a home line to HBM4: encode, encrypt under the line's key, clear MOD, count the TAG (17 R350, R355, R356). -/
def lineToHbm (line : Nat) (s : State) : State :=
  let h := homeMetaOf s line
  let raw := h.poison || h.rawPend || h.nc || (s.part h.part).noCmp
  let (tag, payload) := encodeLine raw (mgets s.dev.home (128 * line) 128)
  let sectors := sectorBytes (keyValue s h.part h.key) line tag payload
  let s := { s with dev := { s.dev with hbm := mputs s.dev.hbm (128 * line) sectors,
                                        hbmMeta := tput s.dev.hbmMeta line { tag := tag, poison := h.poison },
                                        sectorErr := repaired s.dev.sectorErr line tag,
                                        homeMeta := tput s.dev.homeMeta line { h with mod := false } } }
  s.bumpDie (homeDie (128 * line)) (8 * tag) 1

/-- Evict a home line: its release record is served, it is written to HBM4 if modified, and dropped (17 R350, 22 R422). -/
def homeEvict (line : Nat) (s : State) : State :=
  match tfind s.dev.homeMeta line with
  | none => s
  | some _ =>
    let s := serveRecord 4 line s
    let s := if (homeMetaOf s line).mod then lineToHbm line s else s
    { s with dev := { s.dev with home := mzero s.dev.home (128 * line) 128, homeMeta := tdel s.dev.homeMeta line } }

/-- CPYRC on one line (17 R352). -/
def recompress (a : Acc) (line : Nat) (s : State) : State :=
  let s := homeTouch a line s
  let h := homeMetaOf s line
  let s := putHomeMeta line { h with rawPend := false, nc := a.nc } s
  lineToHbm line s

/-- The L2 side of an acquire of device or system scope on die `v`: every visitor line of the partition is written
back and dropped (22 R424). -/
def acquireDie (v p : Nat) (s : State) : State :=
  let ls := visLinesOf s v p
  let s := ls.foldl (fun s l => visDrop v l s) s
  s.bumpDie v 0xA0 ls.length

/-- A visitor line that an acquire drops, counted in ACQDROPS when die `v` held it (22 R424, R432). -/
def acquireDrop (v line : Nat) (s : State) : State :=
  if homeDie (128 * line) = v || (visMetaOf s v line).isNone then s else (visDrop v line s).bumpDie v 0xA0 1

/-- A read under an acquire of device or system scope: filled from home, its release record served first (22 R424, R425). -/
def acquireRead (v : Nat) (a : Acc) (pa n : Nat) (s : State) : (List Byte × Bool) × State :=
  let s := (linesIn pa n).foldl (fun s l => serveRecord v l (homeTouch a l s)) s
  let s := (linesIn pa n).foldl (fun s l => acquireDrop v l s) s
  devRead v a pa n s

/-- A contribution's read under an acquire of device or system scope (17 R347, 22 R424, R425). -/
def acquireHomeRead (v : Nat) (a : Acc) (pa n : Nat) (s : State) : (List Byte × Bool) × State :=
  homeRead v a pa n ((linesIn pa n).foldl (fun s l => serveRecord v l (homeTouch a l s)) s)

/-- A die's own serving when EP has run 2^30 ahead of WBE (22 R423). -/
def serveOwn (v p : Nat) (s : State) : State :=
  let ep := tget (s.die v).ep p 0
  if ep - (tget (s.die v).wbe p 0 - 1) ≥ 2 ^ 30 then serveEpoch v p (ep - 1) s else s

/-- The bookkeeping of a release of scope `sc` by die `v` before its release write: the epoch recorded with it
(22 R423, R426). Scopes below device record no epoch. -/
def releaseEpoch (v p sc : Nat) (s : State) : Nat × State :=
  if sc ≥ 4 then
    let (e, s) := takeEpoch v p s
    (e, serveOwn v p (if sc = 5 then serveEpoch v p e s else s))
  else (0, s)

/-- Record a release write of a line at its home (22 R422). -/
def setRecord (v sc e : Nat) (a : Acc) (line : Nat) (s : State) : State :=
  let s := serveRecord v line (homeTouch a line s)
  let h := homeMetaOf s line
  let s := putHomeMeta line { h with rv := true, rdie := v, rsc := sc, rep := e % 2 ^ 32, part := a.part } s
  s.bumpDie (homeDie (128 * line)) 0x80 1

/-- A release write of bytes by die `v` at scope `sc` with epoch `e`: written through to the home, which records it
(22 R421 to R423). -/
def releaseWrite (v sc e : Nat) (a : Acc) (pa : Nat) (bs : List Byte) (poisoned : Bool) (s : State) : State :=
  let s := (linesIn pa bs.length).foldl (fun s l => serveRecord v l (homeTouch a l s)) s
  let s := devWrite v a pa bs poisoned s
  let s := (linesIn pa bs.length).foldl (fun s l => if homeDie (128 * l) = v then s else visWriteBack v l s) s
  (linesIn pa bs.length).foldl (fun s l => setRecord v sc e a l s) s

/-- A partition reset's work on visitor lines: written back, then dropped (17 R357). -/
def resetVisitors (p : Nat) (s : State) : State :=
  (List.range 4).foldl (fun s d => (visLinesOf s d p).foldl (fun s l => visDrop d l s) s) s

end Sys2Proof.Machine
end

