-- ==== Sys2Proof/Machine/Xlate.lean ====
section
/-! DEFINITION. Address translation (18 R359 to R368): the page walk, the cached translations, and the checks of an
access in R365's order. -/

namespace Sys2Proof.Machine

open Sys2Proof

/-- A fault of a translation: the kind of R368 and the level. -/
structure XFault where
  kind : Nat
  level : Nat
  deriving DecidableEq, Repr

/-- A physical address within the partition's grant (23 R439). -/
def inGrant (s : State) (p pa : Nat) : Bool := nmem (s.part p).grant (192 * bitsAt pa 38 2 + bitsAt pa 30 8)

/-- A table address that a walk may read (18 R361). -/
def tableOk (s : State) (p pa : Nat) : Bool := devAddrOk pa && inGrant s p pa

/-- The index of a level (18 R359). -/
def walkIndex (lvl va : Nat) : Nat :=
  match lvl with | 0 => bitsAt va 39 17 | 1 => bitsAt va 30 9 | 2 => bitsAt va 21 9 | _ => bitsAt va 16 5

/-- The number of address bits below a leaf of a level (18 R359). -/
def pageBits (lvl : Nat) : Nat := match lvl with | 1 => 30 | 2 => 21 | _ => 16

/-- The faults of a valid entry that make a walk end in TABLE (18 R360, R361). -/
def entryBad (lvl e : Nat) : Bool :=
  let leaf := bitAt e 1
  bitsAt e 52 4 != 0 || bitsAt e 5 3 != 0 || (lvl == 0 && leaf) || (lvl == 3 && !leaf)
    || (leaf && bitsAt e 8 (pageBits lvl - 8) != 0)
    || (!leaf && (bitsAt e 56 8 != 0 || bitsAt e 2 3 != 0 || (decide (lvl < 2) && bitsAt e 8 4 != 0)))

/-- The address bits that an entry of a level of table entries covers (18 R359). -/
def walkBits (lvl : Nat) : Nat := match lvl with | 0 => 39 | 1 => 30 | _ => 21

/-- Where a walker keeps the table entry of a level that an address goes through. -/
def walkKey (p lvl va : Nat) : Nat := (4 * p + lvl) * 2 ^ 56 + va % 2 ^ 56 / 2 ^ walkBits lvl * 2 ^ walkBits lvl

/-- The table entry that die `d`'s walker answers from its cache in place of one that differs in memory: a free value says
whether it still holds it (18 R366; log 22). -/
def staleEntry (d p va lvl pa : Nat) (s : State) : Option Nat × State :=
  match tfind (s.die d).walks (walkKey p lvl va) with
  | none => (none, s)
  | some c =>
    let u := homeTouch { part := p, key := 0, nc := false } (pa / 128) s
    if mgetN u.dev.home pa 8 == c.toNat && !(homeMetaOf u (pa / 128)).poison then (none, s)
    else
      let (n, s) := s.takeFree
      (if n % 2 = 0 then some c.toNat else none, s)

/-- One walk of die `d` from a table at a level (18 R361). Entries are read at the home copy through key slot 0 (R362). -/
def walkFrom (d p va : Nat) : Nat → Nat → Nat → State → Except XFault TlbEntry × State
  | 0, lvl, _, s => (.error { kind := 8, level := lvl }, s)
  | fuel + 1, lvl, t, s =>
    if !tableOk s p t then (.error { kind := 8, level := lvl }, s)
    else
      let pa := t + 8 * walkIndex lvl va
      match staleEntry d p va lvl pa s with
      | (some e, s) => walkFrom d p va fuel (lvl + 1) (bitsAt e 8 44 * 256) s
      | (none, s) =>
        let s := homeTouch { part := p, key := 0, nc := false } (pa / 128) s
        let e := mgetN s.dev.home pa 8
        if (homeMetaOf s (pa / 128)).poison then (.error { kind := 8, level := lvl }, s)
        else if !bitAt e 0 then (.error { kind := 1, level := lvl }, s)
        else if entryBad lvl e then (.error { kind := 8, level := lvl }, s)
        else if bitAt e 1 then (.ok { leaf := BitVec.ofNat 64 e, level := lvl }, s)
        else walkFrom d p va fuel (lvl + 1) (bitsAt e 8 44 * 256)
          (s.modDie d fun v => { v with walks := tput v.walks (walkKey p lvl va) (BitVec.ofNat 64 e) })

/-- The walk by die `d` of a virtual address in a partition (18 R361, R363). -/
def walk (d p va : Nat) (s : State) : Except XFault TlbEntry × State :=
  let r := (s.part p).ptroot.toNat
  if !bitAt r 0 then (.error { kind := 1, level := 0 }, s)
  else walkFrom d p va 4 0 (bitsAt r 20 32 * 2 ^ 20) s

/-- The physical address that a leaf gives a virtual address. -/
def leafPa (e : TlbEntry) (va : Nat) : Nat :=
  let n := pageBits e.level
  bitsAt e.leaf.toNat n (52 - n) * 2 ^ n + bitsAt va 0 n

/-- The kinds of command access (18 R365). -/
inductive AccKind where
  | read | write | rmw
  deriving DecidableEq, Repr

/-- What an address leads to (18 R364). -/
inductive Target where
  /-- Device memory. -/
  | dev (pa : Nat) (a : Acc)
  /-- A pool or tile-store byte of a core. -/
  | chip (core off : Nat) (tile : Bool)
  /-- The fabric window. -/
  | fabric (pa : Nat)
  deriving DecidableEq, Repr

/-- The fields of a connection context (26 R485). -/
def Conn.en (c : Conn) : Bool := c.ctx.getLsbD 63
def Conn.err (c : Conn) : Bool := c.ctx.getLsbD 62
def Conn.port (c : Conn) : Nat := bitsAt c.ctx.toNat 59 3
def Conn.part (c : Conn) : Nat := bitsAt c.ctx.toNat 55 4
/-- Enabled and not in error. -/
def Conn.up (c : Conn) : Bool := c.en && !c.err

/-- What a window entry leads to: the connection, the remote key and address, and LAND (26 R489). -/
structure Window where
  conn : Nat
  rkey : Nat
  addr : Nat
  land : Bool
  deriving DecidableEq, Repr

/-- The window of a physical address of the fabric region, or the fault kind (26 R489). -/
def windowOf (s : State) (p pa : Nat) : Except Nat Window :=
  if bitsAt pa 46 2 != 0 then .error 6
  else
    let w := bitsAt pa 40 6
    let off := bitsAt pa 0 40
    let ctl := (s.part p).reg (0x400 + 32 * w)
    let k := bitsAt ctl 32 14
    let c := s.conn k
    if !bitAt ctl 63 || decide (off ≥ bitsAt ((s.part p).reg (0x410 + 32 * w)) 0 40) || !c.up || c.part != p then .error 7
    else .ok { conn := k, rkey := ctl % 2 ^ 32, addr := ((s.part p).reg (0x408 + 32 * w) + off) % 2 ^ 64, land := bitAt ctl 62 }

/-- The region check (18 R364): a fault kind or the target. -/
def regionOf (s : State) (p : Nat) (leaf pa : Nat) : Except Nat Target :=
  match bitsAt pa 48 4 with
  | 0 =>
    if devAddrOk pa && inGrant s p pa then .ok (.dev pa { part := p, key := bitsAt leaf 60 4, nc := !bitAt leaf 56 })
    else .error 6
  | 1 =>
    let space := bitsAt pa 36 2
    let off := bitsAt pa 0 23
    let core := 192 * bitsAt pa 46 2 + 64 * bitsAt pa 44 2 + bitsAt pa 38 6
    if space ≥ 2 || (space == 0 && decide (off ≥ 2 ^ 21)) || (space == 1 && decide (off ≥ 2 ^ 19)) then .error 6
    else if bitsAt pa 44 2 = 3 || partOfCore s core != some p then .error 7
    else .ok (.chip core off (space == 1))
  | 2 => match windowOf s p pa with | .error k => .error k | .ok _ => .ok (.fabric pa)
  | _ => .error 6

/-- The permission, key and path checks (18 R365): the first fault kind, if any. `path` is the bit that a
system-scope atomic or reduction needs. -/
def permFault (s : State) (p : Nat) (kind : AccKind) (path : Option Nat) (leaf : Nat) (t : Target) : Option Nat :=
  let rd := bitAt leaf 2
  let w := bitAt leaf 3
  let cow := bitAt leaf 57
  let perm : Option Nat := match kind with
    | .read => if rd then none else some 2
    | .write => if !w then some 3 else if cow then some 4 else none
    | .rmw => if !rd then some 2 else if !w then some 3 else if cow then some 4 else none
  match perm with
  | some k => some k
  | none =>
    let key : Option Nat := match t with
      | .dev _ a => if keyOpen s p a.key then none else some 5
      | _ => none
    match key with
    | some k => some k
    | none => match path with
      | some b => if bitAt leaf b then none else some 9
      | none => none

/-- The checks of an access after its walk. -/
def checkLeaf (s : State) (p : Nat) (kind : AccKind) (path : Option Nat) (e : TlbEntry) (va : Nat) : Except XFault Target :=
  match regionOf s p e.leaf.toNat (leafPa e va) with
  | .error k => .error { kind := k, level := e.level }
  | .ok t => match permFault s p kind path e.leaf.toNat t with
    | some k => .error { kind := k, level := e.level }
    | none => .ok t

/-- The first 64 KiB page of the page of a level that holds an address. -/
def firstPage (lvl va : Nat) : Nat := va / 2 ^ pageBits lvl * 2 ^ (pageBits lvl - 16)

/-- The entry of a TLB that holds an address: pages of 64 KiB, 2 MiB and 1 GiB are probed (15 R332). -/
def tlbFind (t : Table TlbEntry) (va : Nat) : Option TlbEntry :=
  [3, 2, 1].findSome? fun l => (tfind t (firstPage l va)).filter fun e => e.level == l

/-- The set of a TLB entry: 512 sets (15 R332; log 133). -/
def tlbSet (page level : Nat) : Nat := page / 2 ^ (pageBits level - 16) % 512

/-- A leaf enters a cluster's TLB, in place of another of its 8 ways where all are taken (15 R332; log 133). -/
def tlbPut (cl va : Nat) (e : TlbEntry) (s : State) : State :=
  let k := firstPage e.level va
  let t := (s.cluster cl).tlb
  let ways := (t.filter fun x => tlbSet x.1 x.2.level == tlbSet k e.level).map (·.1)
  if ways.contains k || ways.length < 8 then s.modCluster cl fun c => { c with tlb := tput c.tlb k e }
  else
    let (n, s) := s.takeFree
    s.modCluster cl fun c => { c with tlb := tput (tdel c.tlb ((ways[n % ways.length]?).getD k)) k e }

/-- The translation of a command's access at the cluster TLB, walking on a miss (15 R332, R335, 18 R366). Where the entry
held differs from the walk's answer, a free value says whether it is still held (log 22). -/
def translate (cl p va : Nat) (s : State) : Except XFault TlbEntry × State :=
  let count (off : Nat) (s : State) : State := s.modCluster cl fun c => { c with counters := bumpAt c.counters off 1 }
  let miss (s : State) : Except XFault TlbEntry × State :=
    match walk (cl / 3) p va (count 8 s) with
    | (.error f, s) => (.error f, s)
    | (.ok e, s) => (.ok e, tlbPut cl va e s)
  match tlbFind (s.cluster cl).tlb va with
  | none => miss s
  | some e =>
    let same := match (walk (cl / 3) p va s).1 with | .ok w => w == e | .error _ => false
    if same then (.ok e, count 0 s)
    else
      let (n, s) := s.takeFree
      if n % 2 = 0 then (.ok e, count 0 s) else miss s

/-- New accesses to an address stall: its region is being promoted (18 R372). -/
def promoStall (s : State) (p va : Nat) : Bool :=
  match (s.part p).promo with | some (r, _, _) => r / 2 ^ 21 == va / 2 ^ 21 | none => false
/-- A physical line belongs to a region that is being promoted (18 R372). -/
def promoLine (s : State) (p line : Nat) : Bool :=
  match (s.part p).promo with | some (_, _, fs) => fs.any (fun f => f / 65536 == line / 512) | none => false

/-- The whole translation and check of a command's access (18 R365). -/
def access (cl p : Nat) (kind : AccKind) (path : Option Nat) (va : Nat) (s : State) : Except XFault Target × State :=
  match translate cl p va s with
  | (.error f, s) => (.error f, s)
  | (.ok e, s) => (checkLeaf s p kind path e va, s)

end Sys2Proof.Machine
end

