-- ==== Sys2Proof/Machine/Fetch.lean ====
section
/-! DEFINITION. Instruction fetch: fetch blocks, the instruction cache and loop buffer, the target check and the
next instruction start (03 R61 to R64, 06 R129, R130, R136, 07 R142, R143). -/

namespace Sys2Proof.Machine

open Sys2Proof

/-- The fetch block of an address (03 R63). -/
def blockNo (a : VAddr) : Nat := a.toNat / 32
/-- The word index of an address within its fetch block. -/
def wordNo (a : VAddr) : Nat := a.toNat % 32 / 4

/-- A fetch block that the core holds, in the loop buffer or the instruction cache (07 R143). -/
def heldBlock (s : State) (core b : Nat) : Option (List Word) :=
  match tfind (s.core core).loopBuf b with
  | some w => some w
  | none => tfind (s.core core).icache b

/-- The fetch translation of a page on a core, walking on a miss (18 R366). -/
def fetchTranslate (core p va : Nat) (s : State) : Except XFault TlbEntry × State :=
  match tfind (s.core core).fetchTlb (va / 65536) with
  | some e => (.ok e, s)
  | none => match walk (dieOf core) p va s with
    | (.error f, s) => (.error f, s)
    | (.ok e, s) => (.ok e, s.modCore core fun c => { c with fetchTlb := tput c.fetchTlb (va / 65536) e })

/-- Read a fetch block through translation: its words, or the DETAIL of FETCH-FAULT (06 R136, R138). Execute
permission is checked before the key slot (18 R365). A leaf that names no device memory gives DETAIL 1 (log 15). -/
def readBlock (core b : Nat) (s : State) : Except Nat (List Word) × State :=
  match partOfCore s core with
  | none => (.error 1, s)
  | some p => match fetchTranslate core p (32 * b) s with
    | (.error _, s) => (.error 1, s)
    | (.ok e, s) => match regionOf s p e.leaf.toNat (leafPa e (32 * b)) with
      | .ok (.dev pa a) =>
        if !bitAt e.leaf.toNat 4 then (.error 2, s)
        else if !keyOpen s p a.key then (.error 4, s)
        else
          let ((bs, bad), s) := devRead (dieOf core) a pa 32 s
          if bad then (.error 3, s) else (.ok (wordsOfBytes bs 8), s)
      | _ => (.error 1, s)

/-- A fetch block enters the instruction cache: 64 KiB in 256 sets of 8 blocks, a full set giving up a free choice (07 R142; log
40). -/
def cacheBlock (core b : Nat) (w : List Word) (s : State) : State :=
  let put (keep : Nat → Bool) (s : State) : State :=
    s.modCore core fun c => { c with icache := tput (c.icache.filter fun e => keep e.1) b w }
  let same := ((s.core core).icache.filter fun e => e.1 % 256 == b % 256).map (·.1)
  if same.length < 8 then put (fun _ => true) s
  else
    let (k, s) := s.takeFree
    put (fun x => x != same.getD (k % same.length) 0) s

/-- A fetch block brought into the instruction cache (07 R143). -/
def fetchBlock (core b : Nat) (s : State) : Except Nat (List Word) × State :=
  match heldBlock s core b with
  | some w => (.ok w, s)
  | none => match readBlock core b s with
    | (.error d, s) => (.error d, s)
    | (.ok w, s) => (.ok w, cacheBlock core b w s)

/-- The instruction starts of a block: the words visited before a pad word or its end (03 R64). -/
def startsFrom : Nat → Nat → List Word → List Nat
  | 0, _, _ => []
  | fuel + 1, k, ws =>
    if k ≥ 8 then []
    else if lengthOf (wordAt ws k) = 1 then []
    else k :: startsFrom fuel (k + lengthOf (wordAt ws k)) ws

/-- A trap before it is entered (06 R138). -/
structure Trap where
  cause : Nat
  detail : Nat
  addr : DWord
  mask : Word := 0
  /-- EPC is the next instruction start rather than this instruction. -/
  next : Bool := false
  deriving DecidableEq, Repr

/-- A 56-bit address as a 64-bit register value (06 R130). -/
def addr64 (a : VAddr) : DWord := a.setWidth 64

/-- The check of a control-transfer target (03 R64, 06 R136): the trap, if it fails. The fetch unit reads the target's
block. -/
def checkTarget (core : Nat) (a : VAddr) (s : State) : Option Trap × State :=
  let w := wordNo a
  let last (ws : List Word) : Nat := (startsFrom 8 0 ws).foldl (fun m k => if k ≤ w then k else m) 7
  if a.toNat % 4 != 0 then
    match fetchBlock core (blockNo a) s with
    | (.ok ws, s) => (some { cause := 3, detail := 128 + 8 * last ws + w, addr := addr64 a }, s)
    | (.error _, s) => (some { cause := 3, detail := 128 + 64 + 56 + w, addr := addr64 a }, s)
  else
    match fetchBlock core (blockNo a) s with
    | (.error d, s) => (some { cause := 4, detail := d, addr := addr64 a }, s)
    | (.ok ws, s) =>
      if (startsFrom 8 0 ws).contains w then (none, s)
      else (some { cause := 3, detail := 8 * last ws + w, addr := addr64 a }, s)

/-- The next instruction start after an instruction of `n` words (06 R130): the next block where the block ends or a
pad word stands. -/
def nextStart (s : State) (core : Nat) (pc : VAddr) (n : Nat) : VAddr :=
  let k := wordNo pc + n
  let nextBlock : VAddr := BitVec.ofNat 56 (32 * (blockNo pc + 1))
  if k ≥ 8 then nextBlock
  else match heldBlock s core (blockNo pc) with
    | some ws => if lengthOf (wordAt ws k) = 1 then nextBlock else pc + BitVec.ofNat 56 (4 * n)
    | none => pc + BitVec.ofNat 56 (4 * n)

/-- Blocks read for the loop buffer, in order; one that cannot be read is left out. -/
def loopBlocks (core : Nat) : List Nat → State → Table (List Word) × State
  | [], s => ([], s)
  | b :: r, s => match fetchBlock core b s with
    | (.ok w, s) => let (t, s) := loopBlocks core r s; ((b, w) :: t, s)
    | (.error _, s) => loopBlocks core r s

/-- A taken backward branch of at most 31 fetch blocks loads the blocks between target and branch into the loop buffer (07 R143). -/
def loadLoop (core : Nat) (pc target : VAddr) (s : State) : State :=
  let b := blockNo pc
  let t := blockNo target
  if target.toNat < pc.toNat ∧ b - t ≤ 31 then
    let (bs, s) := loopBlocks core ((List.range (b - t + 1)).map (t + ·)) s
    s.modCore core fun c => { c with loopBuf := bs }
  else s

end Sys2Proof.Machine
end

