-- ==== Sys2Proof/Machine/Flds.lean ====
section
/-! DEFINITION. A uniform view of the fields of any format, and the vocabulary of an instruction's legality: the
register fields it uses, the modifier bits it defines, its class and unit (03 R65 to R78, 01 R25, 07 R152). -/

namespace Sys2Proof.Machine

open Sys2Proof

/-- The fields of an instruction as numbers. A format without a SET field reads 15, without a guard 127. `imm` is the
I64 immediate, the M64 offset, the C64 word offset, the B64 offset or the I96 literal; `bank` is BANK or LINK. -/
structure Flds where
  wait : Nat
  dist : Nat
  set : Nat := 15
  hasGuard : Bool := false
  guard : Nat := 127
  pol : Nat := 0
  mod : Nat := 0
  vd : Nat := 0
  va : Nat := 0
  vb : Nat := 0
  vc : Nat := 0
  ve : Nat := 0
  x : Nat := 0
  imm : Nat := 0
  bank : Nat := 0
  /-- Words of the instruction. -/
  words : Nat := 2
  deriving DecidableEq, Repr

/-- The fields of a format (03 R69). -/
def fldsOfForm : Form → Flds
  | .a64 f =>
    { wait := f.wait.toNat, dist := f.dist.toNat, set := f.set.toNat, mod := f.mod.toNat,
      vd := f.vd.toNat, va := f.va.toNat, vb := f.vb.toNat }
  | .i64 f =>
    { wait := f.wait.toNat, dist := f.dist.toNat, mod := f.m.toNat, imm := f.imm.toNat,
      vd := f.vd.toNat, va := f.va.toNat }
  | .c64 f =>
    { wait := f.wait.toNat, dist := f.dist.toNat, mod := f.mod.toNat, bank := f.bank.toNat,
      imm := f.woff.toNat, vd := f.vd.toNat, va := f.va.toNat }
  | .m64 f =>
    { wait := f.wait.toNat, dist := f.dist.toNat, set := f.set.toNat, mod := f.mod.toNat,
      imm := f.off.toNat, vd := f.vd.toNat, va := f.va.toNat }
  | .b64 f =>
    { wait := f.wait.toNat, dist := f.dist.toNat, bank := f.link.toNat, imm := f.off.toNat,
      hasGuard := true, guard := f.guard.toNat, pol := f.pol.toNat }
  | .a96 f =>
    { wait := f.wait.toNat, dist := f.dist.toNat, set := f.set.toNat, mod := f.mod.toNat,
      vd := f.vd.toNat, va := f.va.toNat, vb := f.vb.toNat, vc := f.vc.toNat,
      hasGuard := true, guard := f.guard.toNat, pol := f.pol.toNat, words := 3 }
  | .i96 f =>
    { wait := f.wait.toNat, dist := f.dist.toNat, set := f.set.toNat, mod := f.mod.toNat,
      vd := f.vd.toNat, va := f.va.toNat, vb := f.vb.toNat, imm := f.lit.toNat,
      hasGuard := true, guard := f.guard.toNat, pol := f.pol.toNat, words := 3 }
  | .a128 f =>
    { wait := f.wait.toNat, dist := f.dist.toNat, set := f.set.toNat, mod := f.mod.toNat,
      vd := f.vd.toNat, va := f.va.toNat, vb := f.vb.toNat, vc := f.vc.toNat, ve := f.ve.toNat, x := f.x.toNat,
      hasGuard := true, guard := f.guard.toNat, pol := f.pol.toNat, words := 4 }

/-- The fields of an instruction; an event row has none. -/
def fldsOf (i : Instr) : Flds := ((formOf i).map fldsOfForm).getD { wait := 0, dist := 0 }

/-- How an instruction uses a register field: `n` registers from the first are named, the first `src` of them are
sources, `pair` asks for an even first register (01 R13, R14). -/
structure Use where
  n : Nat := 1
  src : Nat := 0
  pair : Bool := false
  deriving DecidableEq, Repr

/-- A 32-bit source. -/
def uS : Use := { src := 1 }
/-- A 32-bit destination. -/
def uD : Use := {}
/-- A pair read. -/
def uSP : Use := { n := 2, src := 2, pair := true }
/-- A pair written. -/
def uDP : Use := { n := 2, pair := true }
/-- A source of 32 or 64 bits. -/
def uSw (wide : Bool) : Use := if wide then uSP else uS
/-- A destination of 32 or 64 bits. -/
def uDw (wide : Bool) : Use := if wide then uDP else uD

/-- What the manual states of an instruction's encoding (03 R66 to R78). A field that is `none` is unused and must be
zero. `modMask`, `xMask` hold the defined bits; `link` is the pair that LINK names; `bad4`, `bad7`, `bad8` are the
further conditions of the DETAIL they name. -/
structure Shape where
  cls : LatClass
  unit : ExUnit
  vd : Option Use := none
  va : Option Use := none
  vb : Option Use := none
  vc : Option Use := none
  ve : Option Use := none
  modMask : Nat := 0
  xMask : Nat := 0
  link : Option Use := none
  guardOk : Bool := true
  bad4 : Bool := false
  bad7 : Bool := false
  bad8 : Bool := false
  deriving DecidableEq, Repr

/-- A register field that breaks the even-pair rule (01 R14). -/
def oddPair (u : Option Use) (r : Nat) : Bool :=
  match u with | some u => u.pair && r % 2 == 1 | none => false

/-- An unused field that is nonzero (03 R70). -/
def unusedSet (u : Option Use) (r : Nat) : Bool := u.isNone && r != 0

/-- The first condition of R77 with DETAIL 0x04 to 0x08 that holds. -/
def Shape.detail (sh : Shape) (f : Flds) : Option Nat :=
  if unusedSet sh.vd f.vd || unusedSet sh.va f.va || unusedSet sh.vb f.vb || unusedSet sh.vc f.vc
      || unusedSet sh.ve f.ve || (f.mod &&& sh.modMask) != f.mod || (f.x &&& sh.xMask) != f.x
      || (f.hasGuard && !sh.guardOk && (f.guard != 127 || f.pol != 0)) || sh.bad4 then some 4
  else if (12 ≤ f.set && f.set ≤ 14) || (sh.cls != .v && f.set != 15) then some 5
  else if f.guard == 127 && f.pol == 1 then some 6
  else if oddPair sh.vd f.vd || oddPair sh.va f.va || oddPair sh.vb f.vb || oddPair sh.vc f.vc || oddPair sh.ve f.ve
      || sh.bad7 then some 7
  else if sh.bad8 then some 8
  else none

/-- The registers a use names, in ascending order. -/
def useRegs (u : Option Use) (r : Nat) : List Nat :=
  match u with | some u => (List.range u.n).map (· + r) | none => []

/-- The registers checked for REGISTER-RANGE in the order of 06 R138. -/
def Shape.named (sh : Shape) (f : Flds) : List Nat :=
  useRegs sh.vd f.vd ++ useRegs sh.va f.va ++ useRegs sh.vb f.vb ++ useRegs sh.vc f.vc ++ useRegs sh.ve f.ve
    ++ (if f.guard == 127 then [] else [f.guard]) ++ useRegs sh.link (2 * f.bank)

/-- The first register of a source field. -/
def firstSrc (u : Option Use) (r : Nat) : List Nat :=
  match u with | some u => if u.src = 0 then [] else [r] | none => []
/-- The further registers of a source field. -/
def laterSrc (u : Option Use) (r : Nat) : List Nat :=
  match u with | some u => (List.range (u.src - 1)).map (· + r + 1) | none => []

/-- The source registers in the order of the poison check of 03 R78 step 4. -/
def Shape.sources (sh : Shape) (f : Flds) : List Nat :=
  firstSrc sh.vd f.vd ++ firstSrc sh.va f.va ++ firstSrc sh.vb f.vb ++ firstSrc sh.vc f.vc ++ firstSrc sh.ve f.ve
    ++ laterSrc sh.vd f.vd ++ laterSrc sh.va f.va ++ laterSrc sh.vb f.vb ++ laterSrc sh.vc f.vc ++ laterSrc sh.ve f.ve

end Sys2Proof.Machine
end

