-- ==== Sys2Proof/Machine/ShapesAlu.lean ====
section
/-! DEFINITION. The encodings of the integer, floating-point and control instructions: fields used, modifier bits
defined, and the values each reserves (04, 05, 06). -/

namespace Sys2Proof.Machine

open Sys2Proof

/-- An ALU instruction of class S. -/
def shS : Shape := { cls := .s, unit := .alu }
/-- A MUL instruction of class M. -/
def shM : Shape := { cls := .m, unit := .mul }
/-- A DFP instruction of class L. -/
def shL : Shape := { cls := .l, unit := .dfp }

/-- The A64 and C64 U and SAT of IADD, ISUB, IADD64 and ISUB64: U without SAT is reserved (04 R90). -/
def badU (u sat : Bool) : Bool := u && !sat

def shIaddA64 (f : Flds) : Shape :=
  { shS with vd := some uD, va := some uS, vb := some uS, modMask := 0x300, bad8 := badU (bitAt f.mod 9) (bitAt f.mod 8) }
def shIaddI64 : Shape := { shS with vd := some uD, va := some uS }
def shIaddC64 (f : Flds) : Shape :=
  { shS with vd := some uD, va := some uS, modMask := 0x18, bad8 := badU (bitAt f.mod 3) (bitAt f.mod 4) }
def shIaddI96 : Shape := { shS with vd := some uD, va := some uS }
def shIaddc (f : Flds) : Shape :=
  { shS with vd := some (if bitAt f.mod 0 then uS else uD), va := some uS, vb := some uS, modMask := 7,
             bad8 := bitsAt f.mod 1 2 != 0 }
def shIadd3 : Shape := { shS with vd := some uD, va := some uS, vb := some uS, vc := some uS, modMask := 0x428 }
def shIadd64 (f : Flds) : Shape :=
  { shM with vd := some uDP, va := some uSP, vb := some uSP, modMask := 0x300, bad8 := badU (bitAt f.mod 9) (bitAt f.mod 8) }
def shIabs : Shape := { shS with vd := some uD, va := some uS, modMask := 0x100 }
/-- Class M with two sources and no modifier. -/
def shM2 : Shape := { shM with vd := some uD, va := some uS, vb := some uS }
/-- Class M with one register source. -/
def shM1 : Shape := { shM with vd := some uD, va := some uS }
/-- An I96 form whose A64 form uses VB: VB must be zero (04 R88, 05 R107, 03 R70; log 121). -/
def shI96 (sh : Shape) (f : Flds) : Shape := { sh with vb := some { n := 0 }, bad8 := f.vb != 0 }
def shImulh : Shape := { shM2 with modMask := 0x200 }
def shImulw : Shape := { shM2 with vd := some uDP, modMask := 0x200 }
def shImadA96 : Shape := { shM2 with vc := some uS }
/-- A tied form: VD is destination and source (03 R70). -/
def shTied : Shape := { shM with vd := some uS, va := some uS }
def shImadw : Shape := { shM with vd := some uDP, va := some uS, vb := some uS, vc := some uSP, modMask := 0x200 }
/-- Class S, two sources, U at MOD[9]. -/
def shS2U : Shape := { shS with vd := some uD, va := some uS, vb := some uS, modMask := 0x200 }
/-- Class S, two sources, no modifier. -/
def shS2 : Shape := { shS with vd := some uD, va := some uS, vb := some uS }
/-- Class S, one source and an immediate, U at M[0]. -/
def shS1U : Shape := { shS with vd := some uD, va := some uS, modMask := 1 }
def shIclamp : Shape := { shS2U with vc := some uS }
def shIcmpA64 (f : Flds) : Shape := { shS2 with modMask := 0x207, bad8 := decide (bitsAt f.mod 0 3 ≥ 6) }
def shIcmpC64 (f : Flds) : Shape :=
  { shS with vd := some uD, va := some uS, modMask := 0xF, bad8 := decide (bitsAt f.mod 0 3 ≥ 6) }
def shIcmp64 (f : Flds) : Shape :=
  { shM with vd := some uD, va := some uSP, vb := some uSP, modMask := 0x207, bad8 := decide (bitsAt f.mod 0 3 ≥ 6) }
def shSel : Shape := { shS2 with vc := some uS }
def shLopA64 (f : Flds) : Shape := { shS2 with modMask := 7, bad8 := bitAt f.mod 2 }
def shLopI64 : Shape := { shS with vd := some uD, va := some uS, modMask := 3 }
def shLopC64 (f : Flds) : Shape := { shS with vd := some uD, va := some uS, modMask := 7, bad8 := bitAt f.mod 2 }
def shLut3 : Shape := { shSel with modMask := 0x3FC00 }
/-- I64 shifts and rotates: IMM 0 to 31 (04 R95). -/
def shShiftI64 (uMask : Nat) (f : Flds) : Shape :=
  { shS with vd := some uD, va := some uS, modMask := uMask, bad8 := decide (f.imm ≥ 32) }
def shFsh (f : Flds) : Shape := { shSel with modMask := 7, bad8 := bitsAt f.mod 1 2 != 0 }
/-- POPC, CLZ and CTZ (04 R98). -/
def shCount (f : Flds) : Shape :=
  let w := bitAt f.mod 7
  { cls := if w then .m else .s, unit := if w then .mul else .alu, vd := some uD, va := some (uSw w), modMask := 0x80 }
def shBrev (f : Flds) : Shape :=
  let w := bitAt f.mod 7
  { cls := if w then .m else .s, unit := if w then .mul else .alu, vd := some (uDw w), va := some (uSw w), modMask := 0x80 }
def shLea (f : Flds) : Shape :=
  let w := bitAt f.mod 7
  { cls := if w then .m else .s, unit := if w then .mul else .alu, vd := some (uDw w), va := some (uSw w), vb := some uS,
    modMask := 0x287 }
def shIdot (f : Flds) : Shape := { shImadA96 with modMask := 0x347, bad8 := decide (bitsAt f.mod 0 3 ≥ 3) }
def shSad (f : Flds) : Shape := { shImadA96 with modMask := 0x207, bad8 := decide (bitsAt f.mod 0 3 ≥ 2) }
def shMovA64 (f : Flds) : Shape :=
  { shS with vd := some (uDw (bitAt f.mod 7)), va := some (uSw (bitAt f.mod 7)), modMask := 0x80 }
/-- MOV of a constant (04 R102). -/
def shMovK : Shape := { shS with vd := some uD }
/-- MOV of a literal: VA, which the A64 form uses, must be zero, and VB, which none uses (04 R88, 03 R70; log 121). -/
def shMovI96 (f : Flds) : Shape := { shMovK with va := some { n := 0 }, bad8 := f.va != 0 }
def shIcvt (f : Flds) : Shape :=
  let s := bitsAt f.mod 4 4
  let d := bitsAt f.mod 0 4
  { shS with vd := some (uDw (9 ≤ d && d ≤ 10)), va := some (uSw (9 ≤ s && s ≤ 10)), modMask := 0x1FF,
             bad8 := s == 0 || decide (s > 10) || d == 0 || decide (d > 10) }

/-- A rounding mode that arithmetic forbids: SR and the reserved codes (02 R48). -/
def badRm (f : Flds) : Bool := decide (bitsAt f.mod 0 3 ≥ 5)
/-- FP32 arithmetic on two registers (05 R106, R109). -/
def shFaddA64 (f : Flds) : Shape := { shM2 with modMask := 0x7F, bad8 := badRm f }
def shFaddC64 (f : Flds) : Shape := { shM1 with modMask := 0x3F, bad8 := badRm f }
def shFfmaA96 (f : Flds) : Shape := { shImadA96 with modMask := 0xC7F, bad8 := badRm f }
def shFfmaC64 (f : Flds) : Shape := { shTied with modMask := 0x3F, bad8 := badRm f }
def shDaddA64 (f : Flds) : Shape :=
  { shL with vd := some uDP, va := some uSP, vb := some uSP, modMask := 0x7F, bad8 := badRm f }
def shDaddC64 (f : Flds) : Shape :=
  { shL with vd := some uDP, va := some uSP, modMask := 0x3F, bad7 := f.imm % 2 == 1, bad8 := badRm f }
def shDfmaA96 (f : Flds) : Shape :=
  { shL with vd := some uDP, va := some uSP, vb := some uSP, vc := some uSP, modMask := 0xC7F, bad8 := badRm f }
def shDfmaC64 (f : Flds) : Shape :=
  { shL with vd := some uSP, va := some uSP, modMask := 0x3F, bad7 := f.imm % 2 == 1, bad8 := badRm f }
/-- FMIN and FMAX: RM must be zero (05 R111). -/
def shFminA64 (f : Flds) : Shape := { shM2 with modMask := 0x7F, bad8 := bitsAt f.mod 0 3 != 0 }
def shFminC64 (f : Flds) : Shape := { shM1 with modMask := 0x3F, bad8 := bitsAt f.mod 0 3 != 0 }
def shDmin (f : Flds) : Shape :=
  { shM with vd := some uDP, va := some uSP, vb := some uSP, modMask := 0x7F, bad8 := bitsAt f.mod 0 3 != 0 }
def shFcmpA64 : Shape := { shM2 with modMask := 0x7F }
def shFcmpC64 : Shape := { shM1 with modMask := 0x3F }
def shDcmp : Shape := { shM with vd := some uD, va := some uSP, vb := some uSP, modMask := 0x7F }
def shFclass : Shape := { shS with vd := some uD, va := some uS }
def shDclass : Shape := { shM with vd := some uD, va := some uSP }
def shFrnd (f : Flds) : Shape := { shM1 with modMask := 0x1F, bad8 := badRm f }
def shDrnd (f : Flds) : Shape := { shL with vd := some uDP, va := some uSP, modMask := 0x1F, bad8 := badRm f }
def shFscale (f : Flds) : Shape := { shM2 with modMask := 0x1F, bad8 := badRm f }
def shDscale (f : Flds) : Shape :=
  { shL with vd := some uDP, va := some uSP, vb := some uS, modMask := 0x1F, bad8 := badRm f }
/-- The class-V functions of 05 R116; `rnOnly` for those that allow RN alone. -/
def shSfu (rnOnly : Bool) (f : Flds) : Shape :=
  { cls := .v, unit := .sfu, vd := some uD, va := some uS, modMask := 0x1F,
    bad8 := if rnOnly then bitsAt f.mod 0 3 != 0 else badRm f }
def shFdiv (f : Flds) : Shape :=
  { cls := .v, unit := .sfu, vd := some uD, va := some uS, vb := some uS, modMask := 0x7F, bad8 := badRm f }
/-- Packed 16-bit arithmetic (05 R119). -/
def shH2 (f : Flds) : Shape := { shM2 with modMask := 0xE7F, bad8 := badRm f }
def shHfma2 (f : Flds) : Shape := { shImadA96 with modMask := 0xE7F, bad8 := badRm f }
def shHmin2 (f : Flds) : Shape := { shM2 with modMask := 0xE7F, bad8 := bitsAt f.mod 0 3 != 0 }
def shHcmp2 : Shape := { shM2 with modMask := 0xE7F }
def shHdot2 (f : Flds) : Shape := { shImadA96 with modMask := 0x207, bad8 := badRm f }

/-- RM, DFMT, SFMT, SAT and FTZ of a conversion (05 R122). -/
def cvRm (f : Flds) : Nat := bitsAt f.mod 0 3
def cvDst (f : Flds) : Nat := bitsAt f.mod 3 5
def cvSrc (f : Flds) : Nat := bitsAt f.mod 8 5
def cvSat (f : Flds) : Bool := bitAt f.mod 13
def cvFtz (f : Flds) : Bool := bitAt f.mod 14

/-- A float format code of FCVT: FP16, BF16, FP32, FP64. -/
def isFloatFmt (c : Nat) : Bool := 0x0B ≤ c && c ≤ 0x0E
/-- An integer format code. -/
def isIntFmt (c : Nat) : Bool := 0x01 ≤ c && c ≤ 0x0A
/-- A 64-bit integer or float format code. -/
def isWideFmt (c : Nat) : Bool := c == 0x09 || c == 0x0A || c == 0x0E
/-- FCVT is narrowing (05 R123). -/
def cvNarrow (s d : Nat) : Bool :=
  (s == 0x0E && d != 0x0E) || (s == 0x0D && (d == 0x0B || d == 0x0C)) || (s == 0x0B && d == 0x0C) || (s == 0x0C && d == 0x0B)
/-- Magnitude bits of an integer format: its width, less 1 when signed (05 R123). -/
def magBits (c : Nat) : Nat :=
  match c with
  | 1 => 3 | 2 => 4 | 3 => 7 | 4 => 8 | 5 => 15 | 6 => 16 | 7 => 31 | 8 => 32 | 9 => 63 | _ => 64
/-- Significand width W of a float format (02 R55). -/
def sigBits (c : Nat) : Nat := match c with | 0x0B => 11 | 0x0C => 8 | 0x0D => 24 | _ => 53
/-- VB and VC are used under SR and must be zero otherwise, with DETAIL 0x08 (05 R124, 03 R70). -/
def srUse (f : Flds) : Option Use := some (if cvRm f == 5 then uS else { n := 0 })

/-- FCVT: a format code of 64 bits makes its operand a pair also where the form forbids the format (05 R122; DESIGN CHOICE,
log 131). -/
def shFcvt (f : Flds) : Shape :=
  { shM with vd := some (uDw (isWideFmt (cvDst f))), va := some (uSw (isWideFmt (cvSrc f))), vb := srUse f, vc := srUse f,
             modMask := 0x7FFF,
             bad8 := !isFloatFmt (cvSrc f) || !isFloatFmt (cvDst f) || cvFtz f || decide (cvRm f ≥ 6)
               || (cvRm f == 5 && !cvNarrow (cvSrc f) (cvDst f)) || (cvRm f != 5 && (f.vb != 0 || f.vc != 0)) }
def shF2i (f : Flds) : Shape :=
  { shM with vd := some (uDw (isWideFmt (cvDst f))), va := some (uSw (isWideFmt (cvSrc f))), modMask := 0x7FFF,
             bad8 := !isFloatFmt (cvSrc f) || !isIntFmt (cvDst f) || cvFtz f || cvSat f || badRm f }
def shI2f (f : Flds) : Shape :=
  { shM with vd := some (uDw (isWideFmt (cvDst f))), va := some (uSw (isWideFmt (cvSrc f))), vb := srUse f, vc := srUse f,
             modMask := 0x7FFF,
             bad8 := !isIntFmt (cvSrc f) || !isFloatFmt (cvDst f) || cvFtz f || decide (cvRm f ≥ 6)
               || (cvRm f == 5 && decide (magBits (cvSrc f) ≤ sigBits (cvDst f)))
               || (cvRm f != 5 && (f.vb != 0 || f.vc != 0)) }
/-- Elements of an MF register operation: 8 for MF4, 4 for MF6 and MF8 (05 R125). -/
def mfCount (c : Nat) : Nat := if c == 0x11 then 8 else 4
def isMfFmt (c : Nat) : Bool := 0x11 ≤ c && c ≤ 0x13
/-- The pair of scale and seed; the seed is read under SR alone (05 R125). -/
def scaleUse (seed : Bool) : Use := { n := 2, src := if seed then 2 else 1, pair := true }
def shMfpack (f : Flds) : Shape :=
  let n := mfCount (cvDst f)
  { shM with vd := some uD, va := some { n := n, src := n }, vb := some uS, vc := some (scaleUse (cvRm f == 5)),
             modMask := 0x7FFF,
             bad8 := !isMfFmt (cvDst f) || cvSrc f != 0 || decide (cvRm f ≥ 6) || decide (f.va + n > 255) }
def shMfunpack (f : Flds) : Shape :=
  let n := mfCount (cvDst f)
  { shM with vd := some { n := n }, va := some uS, vb := some uS, vc := some (scaleUse false), modMask := 0x7FFF,
             bad8 := !isMfFmt (cvDst f) || cvSrc f != 0 || cvFtz f || badRm f || decide (f.vd + n > 255) }

/-- The special registers: 64-bit, writable by SETS outside trap mode, writable in trap mode (01 R15). -/
def sregInfo : Nat → Option (Bool × Bool × Bool)
  | 0x00 | 0x01 | 0x02 | 0x03 | 0x04 | 0x05 | 0x06 | 0x07 | 0x08 | 0x09 => some (false, false, false)
  | 0x0A => some (false, true, true)
  | 0x10 | 0x13 => some (false, false, false)
  | 0x11 | 0x12 | 0x20 | 0x21 => some (true, false, false)
  | 0x14 => some (true, false, true)
  | 0x28 | 0x29 | 0x2A => some (true, true, true)
  | _ => none

/-- A selector of a 64-bit special register. -/
def sregWide (sel : Nat) : Bool := match sregInfo sel with | some (w, _) => w | none => false

def shBra (f : Flds) : Shape := { shS with bad4 := f.bank != 0 }
def shCall : Shape := { shS with link := some uDP }
def shBrx : Shape := { shS with va := some uSP }
def shCallx : Shape := { shS with vd := some uDP, va := some uSP }
def shGets (f : Flds) : Shape :=
  { shS with vd := some (uDw (sregWide (f.mod % 256))), modMask := 0xFF, bad8 := (sregInfo (f.mod % 256)).isNone }
/-- SETS; `tm` is trap mode, in which EPC is writable (06 R134). -/
def shSets (tm : Bool) (f : Flds) : Shape :=
  { cls := .v, unit := .eng, va := some (uSw (sregWide (f.mod % 256))), modMask := 0xFF,
    bad8 := match sregInfo (f.mod % 256) with | some (_, w, wt) => !(if tm then wt else w) | none => true }
def shIcinv : Shape := { cls := .v, unit := .eng, va := some uSP, vb := some uS, modMask := 3 }
/-- ERET; outside trap mode it is illegal (06 R140). -/
def shEret (tm : Bool) : Shape := { shS with bad8 := !tm }
def shBkpt : Shape := { shS with modMask := 0xFF }
def shSleep (f : Flds) : Shape := { shS with bad8 := decide (f.imm ≥ 65536) }
def shAdr : Shape := { shS with vd := some uDP }

end Sys2Proof.Machine
end

