-- ==== Sys2Proof/Machine/ShapesTile.lean ====
section
/-! DEFINITION. The encodings of the tile and matrix instructions (10 R213 to R231). -/

namespace Sys2Proof.Machine

open Sys2Proof

/-- An ENG instruction of class V. -/
def shEng : Shape := { cls := .v, unit := .eng }

/-- TD, TA, TB, the tag field and RM of a tile instruction (10 R213). -/
def tdOf (f : Flds) : Nat := bitsAt f.x 0 6
def taOf (f : Flds) : Nat := bitsAt f.x 6 6
def tbOf (f : Flds) : Nat := bitsAt f.x 12 6
def tagOf (f : Flds) : Nat := bitsAt f.mod 2 16
def trmOf (f : Flds) : Nat := bitsAt f.x 18 3

/-- The fields of a tag (09 R186). -/
def tagFmt (t : Nat) : Nat := bitsAt t 11 5
def tagScale (t : Nat) : Nat := bitsAt t 9 2
def tagPk (t : Nat) : Bool := bitAt t 8
def tagFrec (t : Nat) : Nat := bitsAt t 4 4
def tagPoi (t : Nat) : Bool := bitAt t 3

/-- A tag value that an instruction may not encode (10 R214). -/
def badTag (t : Nat) : Bool :=
  decide (tagFmt t ≥ 0x14) || decide (tagScale t ≥ 2) || t % 16 != 0 || (!isMfFmt (tagFmt t) && (tagFrec t != 0 || tagScale t == 1))
    || (tagPk t && !isMfFmt (tagFmt t) && tagFmt t != 1 && tagFmt t != 3)

/-- Mask of MOD[17:2] and of X[5:0], X[11:6], X[17:12]. -/
def mTag : Nat := 0x3FFFC
def xTd : Nat := 0x3F
def xTa : Nat := 0xFC0
def xTb : Nat := 0x3F000

/-- A field that must be V255 unless the mode is SR (10 R219, R226). -/
def seedUse (sr : Bool) : Use := if sr then uS else { n := 0 }

def shTzero (f : Flds) : Shape := { shEng with modMask := mTag, xMask := xTd, bad8 := badTag (tagOf f) }
/-- A nonzero VC where the encoded tag has no scales, so that the instruction does not use VC (10 R216, R229, 03 R70;
log 112). -/
def badSideVc (f : Flds) : Bool := tagScale (tagOf f) != 1 && f.vc != 0
def shTload (f : Flds) : Shape :=
  { shEng with va := some uS, vb := some uS, vc := some (seedUse (tagScale (tagOf f) == 1)), modMask := mTag + 3,
               xMask := xTd, bad8 := badTag (tagOf f) || badSideVc f }
/-- VC of TSTORE is read only under a scaled source tag, and its poison is checked then (10 R216). -/
def shTstore : Shape := { shEng with va := some uS, vb := some uS, vc := some uD, modMask := 3, xMask := xTa }
/-- TMOVV uses VB and TD to write alone, VD and TA to read alone; in the other form they must be zero, with DETAIL 0x08
(10 R213, R217, 03 R70). -/
def shTmovvRead (f : Flds) : Shape :=
  { shEng with vd := some uD, va := some uS, vb := some { n := 0 }, modMask := 1, xMask := xTd + xTa,
               bad8 := f.vb != 0 || tdOf f != 0 }
def shTmovvWrite (f : Flds) : Shape :=
  { shEng with vd := some { n := 0 }, va := some uS, vb := some uS, modMask := 1, xMask := xTd + xTa,
               bad8 := f.vd != 0 || taOf f != 0 }
def shTmov : Shape := { shEng with xMask := xTd + xTa }
def shTtag (f : Flds) : Shape := { shEng with vd := some uD, modMask := mTag, xMask := xTd, bad8 := badTag (tagOf f) }
def shTstat : Shape := { shEng with vd := some uD, xMask := xTa }
def shTfmt : Shape := { shEng with vd := some uD, va := some uS, xMask := 0x3C0000 }
def shTcvt (f : Flds) : Shape :=
  { shEng with va := some (seedUse (trmOf f == 5)), modMask := mTag, xMask := 0x1FC0000 + xTd + xTa,
               bad8 := badTag (tagOf f) || decide (trmOf f ≥ 6) || (trmOf f != 5 && f.va != 255) }
def shTscale (f : Flds) : Shape :=
  { shEng with va := some uS, xMask := 0x1C0000 + xTd, bad8 := decide (trmOf f ≥ 5) }
def shMma : Shape := { shEng with va := some uS, modMask := 7, xMask := 0xFFFFFFF }
def shMmac : Shape := { shEng with va := some uS, modMask := 0x1F, xMask := 0xFFFFFFF }
def shTchk : Shape := { shEng with vd := some uD, xMask := xTa }

/-- DST, ADD and the ordering field of DRAIN (10 R213, R228). -/
def dstOf (f : Flds) : Nat := bitsAt f.x 23 2
/-- ACQ, REL and SCOPE in X[31:27] (10 R230, 12 R262). -/
def acqX (f : Flds) : Bool := bitAt f.x 31
def relX (f : Flds) : Bool := bitAt f.x 30
def scopeX (f : Flds) : Nat := bitsAt f.x 27 3
/-- An ordering field that is reserved: SCOPE 1 to 5 with ACQ or REL, 0 with neither (12 R262). -/
def badOrder (f : Flds) : Bool :=
  if acqX f || relX f then !(1 ≤ scopeX f && scopeX f ≤ 5) else scopeX f != 0
/-- The part of DRAIN's checks common to its forms (10 R226, R228). -/
def badDrain (f : Flds) : Bool := decide (trmOf f ≥ 6) || (trmOf f != 5 && f.ve != 255)
/-- The X bits that DRAIN defines. -/
def xDrain : Nat := 0xFBFC0000 + xTa
def shDrainS (f : Flds) : Shape :=
  { shEng with va := some uS, vb := some uS, vc := some (seedUse (tagScale (tagOf f) == 1)), ve := some (seedUse (trmOf f == 5)),
               vd := some { n := 0 }, modMask := mTag, xMask := xDrain,
               bad8 := badDrain f || dstOf f == 3 || badTag (tagOf f) || tagPk (tagOf f)
                 || bitAt f.x 25 || bitsAt f.x 27 5 != 0 || f.vd != 0 || badSideVc f }
def shDrainH (f : Flds) : Shape :=
  { shEng with vd := some uD, va := some uS, vb := some uS, vc := some uS, ve := some (seedUse (trmOf f == 5)),
               modMask := mTag, xMask := xDrain, bad8 := badDrain f || tagOf f != 0 || badOrder f }
def shDrainRoute (f : Flds) : Shape :=
  { shEng with vd := some uD, va := some uS, vb := some uS, vc := some { n := 0 }, ve := some (seedUse (trmOf f == 5)),
               modMask := mTag, xMask := xDrain,
               bad8 := badDrain f || tagOf f != 0 || f.vc != 0 || bitAt f.x 25 || bitsAt f.x 27 5 != 0 }

end Sys2Proof.Machine
end

