-- ==== Sys2Proof/Machine/ShapesCmd.lean ====
section
/-! DEFINITION. The encodings of the record, copy, ring, fence, transaction, team, grid, task and trace instructions (11
R238 to R260, 12 R262 to R280, 13 R286, R287, 19 R386 to R394, 24 R472). -/

namespace Sys2Proof.Machine

open Sys2Proof

/-- A register field that an instruction reads only through rules of its own. -/
def uOwn : Use := { n := 0 }
/-- The buoy field of a copy command: not used with NB (11 R241). -/
def buoyUse (f : Flds) : Option Use := if bitAt f.mod 1 then some uOwn else some uS
/-- VC is nonzero with NB, which DETAIL 0x08 reports (11 R241, 03 R70). -/
def badNb (f : Flds) : Bool := bitAt f.mod 1 && f.vc != 0
/-- The ordering field's X bits (12 R262). -/
def xOrd : Nat := 0xF8000000

def shSeal : Shape := { shEng with vd := some uD, va := some uS }
def shCpy (f : Flds) : Shape :=
  { shEng with vd := some uD, va := some uS, vb := some uS, vc := buoyUse f, ve := some uOwn, modMask := 3,
               xMask := xOrd + 0x7FFF, bad8 := badOrder f || badNb f }
def shCpyg (f : Flds) : Shape := { shCpy f with xMask := xOrd + 0x3FFFF }
def shCpys (f : Flds) : Shape :=
  { shCpyg f with modMask := 0x3F, bad8 := badOrder f || badNb f || decide (bitsAt f.mod 2 4 ≥ 10) }
def shCpyf (f : Flds) : Shape :=
  { shEng with vd := some uD, va := some uS, vc := buoyUse f, ve := some uOwn, modMask := 2, xMask := xOrd,
               bad8 := badOrder f || badNb f }
def shCpypf (f : Flds) : Shape :=
  { shEng with vd := some uD, va := some uS, vc := buoyUse f, ve := some uOwn, modMask := 2, bad8 := badNb f }
/-- CATOM needs a SCOPE of 3, 4 or 5 (11 R254). -/
def shCatom (f : Flds) : Shape :=
  { shEng with vd := some uD, va := some uS, vb := some uS, vc := buoyUse f, ve := some uOwn, modMask := 0x3E,
               xMask := xOrd, bad8 := !(3 ≤ scopeX f && scopeX f ≤ 5) || badNb f }
def shCpyq : Shape := { shEng with vd := some uDP, va := some uS }
def shCpycan : Shape := { shEng with vd := some uD, va := some uS }
/-- CPYST's layout names NB and PERM and asks that they be zero (12 R271, 03 R70; log 113). -/
def shCpyst (f : Flds) : Shape :=
  { shEng with vd := some uD, va := some uS, vb := some uS, vc := some uS, ve := some uOwn, modMask := 3,
               xMask := xOrd + 0x3FFFF, bad8 := badOrder f || bitAt f.mod 1 || bitsAt f.x 0 15 != 0 }
def shRingacq (f : Flds) : Shape := { shEng with vd := some { n := 4 }, va := some uS, bad8 := f.vd % 4 != 0 }
def shRingrel : Shape := { shEng with vd := some uD, va := some uS, vb := some uS }

def shCfence (f : Flds) : Shape :=
  { shEng with modMask := 0x7F, bad8 := bitsAt f.mod 0 2 == 0 || bitsAt f.mod 2 2 == 0 || decide (bitsAt f.mod 4 3 ≥ 6) }
def shVd : Shape := { shEng with vd := some uD }
def shXcommit (f : Flds) : Shape :=
  { shVd with modMask := 0x70, bad8 := !(3 ≤ bitsAt f.mod 4 3 && bitsAt f.mod 4 3 ≤ 5) }
def shVdVa : Shape := { shVd with va := some uS }
def shTlead : Shape := { shVd with modMask := 1 }
def shTrace : Shape := { shVdVa with vb := some uS, vc := some uS }
def shTurn (f : Flds) : Shape :=
  { shVdVa with modMask := 7, bad8 := bitAt f.mod 2 && bitsAt f.mod 0 2 != 0 }
def shLaunch : Shape := { shEng with vd := some uDP, va := some uS, modMask := 1 }
def shTspawn : Shape :=
  { shVd with va := some uSP, vb := some uS, vc := some uS, ve := some uS, guardOk := false }

end Sys2Proof.Machine
end

