-- ==== Sys2Proof/Machine/ShapesMem.lean ====
section
/-! DEFINITION. The encodings of the scratchpad, collective, buoy and peer instructions (08 R167 to R182, 15 R322 to
R324). -/

namespace Sys2Proof.Machine

open Sys2Proof

/-- An LSU instruction of class V. -/
def shLsu : Shape := { cls := .v, unit := .lsu }

/-- Registers of a width code: 1, 2 or 4 (08 R167). -/
def widthRegs (w : Nat) : Nat := match w with | 0 => 1 | 1 => 2 | _ => 4
/-- The data register of a load or store by width code. -/
def dataUse (w : Nat) (store : Bool) : Use :=
  { n := widthRegs w, src := if store then widthRegs w else 0, pair := w == 1 }
/-- Width 3 is reserved and a quad begins at a multiple of 4 (08 R167). -/
def badWidth (f : Flds) : Bool := f.mod == 3 || (f.mod == 2 && f.vd % 4 != 0)

def shLds (f : Flds) : Shape := { shLsu with vd := some (dataUse f.mod false), va := some uS, modMask := 3, bad8 := badWidth f }
def shSts (f : Flds) : Shape := { shLsu with vd := some (dataUse f.mod true), va := some uS, modMask := 3, bad8 := badWidth f }
def shLdsN : Shape := { shLsu with vd := some uD, va := some uS, modMask := 3 }
def shStsN : Shape := { shLsu with vd := some uS, va := some uS, modMask := 1 }
def shLdc : Shape := { shLsu with vd := some uD, va := some uS, modMask := 3 }
def shLdcB64 : Shape := { shLsu with vd := some uDP, va := some uS, modMask := 3 }
def shBinit : Shape := { shLsu with vd := some uSP, va := some uS }
def shBexp : Shape := { shLsu with vd := some uS, va := some uS, modMask := 1 }
def shBarr : Shape := { shLsu with vd := some uD, va := some uS }
def shBwait : Shape := { shLsu with vd := some uS, va := some uS }

/-- SEG of a collective (08 R170). -/
def segOf (f : Flds) : Nat := bitsAt f.mod 5 3
/-- W64 (08 R170). -/
def w64Of (f : Flds) : Bool := bitAt f.mod 4
/-- OP (08 R170). -/
def opOf (f : Flds) : Nat := bitsAt f.mod 0 4
/-- SEM and SCOPE (08 R170). -/
def semOf (f : Flds) : Nat := bitsAt f.mod 5 2
def scopeOf (f : Flds) : Nat := bitsAt f.mod 7 3

def shShfl (f : Flds) : Shape :=
  { shLsu with vd := some (uDw (w64Of f)), va := some (uSw (w64Of f)), vb := some uS, vc := some (uSw (w64Of f)),
               modMask := 0xFF, bad8 := decide (segOf f ≥ 6) || bitsAt f.mod 1 3 != 0 }
def shVote (f : Flds) : Shape :=
  { shLsu with vd := some uD, va := some uS, modMask := 0xEF, bad8 := decide (segOf f ≥ 6) || decide (opOf f ≥ 8) }
def shMatch (f : Flds) : Shape :=
  { shLsu with vd := some uD, va := some (uSw (w64Of f)), modMask := 0xFF,
               bad8 := decide (segOf f ≥ 6) || decide (opOf f ≥ 3) }
def shRedw (f : Flds) : Shape :=
  { shLsu with vd := some (uDw (w64Of f)), va := some (uSw (w64Of f)), modMask := 0xFF,
               bad8 := decide (segOf f ≥ 6) || decide (opOf f ≥ 11) }
def shScanw (f : Flds) : Shape := { shRedw f with modMask := 0x1FF }
def shFences (f : Flds) : Shape :=
  { shLsu with modMask := 0x3E0, bad8 := semOf f == 0 || !(scopeOf f == 1 || scopeOf f == 2) }
/-- SEM = 0 goes with SCOPE = 0, SEM other with SCOPE 1 or 2 (08 R170). -/
def badSem (f : Flds) : Bool := if semOf f == 0 then scopeOf f != 0 else !(scopeOf f == 1 || scopeOf f == 2)
def shAtoms (f : Flds) : Shape :=
  { shLsu with vd := some (uDw (w64Of f)), va := some uS, vb := some (uSw (w64Of f)), modMask := 0x3FFFFFF,
               bad8 := badSem f || decide (opOf f ≥ 14) }
/-- CASS does not use OP, so its bits are undefined ones (08 R170, R172, 03 R70). -/
def shCass (f : Flds) : Shape :=
  { shLsu with vd := some (uDw (w64Of f)), va := some uS, vb := some (uSw (w64Of f)), vc := some (uSw (w64Of f)),
               modMask := 0x3FFFFF0, bad8 := badSem f }
def shAtomp (f : Flds) : Shape :=
  { shLsu with vd := some (uDw (w64Of f)), va := some uS, vb := some (uSw (w64Of f)),
               vc := some (if opOf f == 14 then uSw (w64Of f) else { n := 0 }), modMask := 0x3FFFFFF,
               bad8 := opOf f == 15 || (opOf f != 14 && f.vc != 0)
                 || (if semOf f == 0 then scopeOf f != 0 else scopeOf f != 2) }

end Sys2Proof.Machine
end

