-- ==== Sys2Proof/Machine/Shapes.lean ====
section
/-! DEFINITION. The encoding of every instruction: its Shape. Trap mode decides SETS to EPC and ERET (03 R77). -/

namespace Sys2Proof.Machine

open Sys2Proof

/-- The encoding of an instruction in or out of trap mode; an event row has none. -/
def shapeOf (tm : Bool) (i : Instr) : Option Shape :=
  let x := fldsOf i
  match i with
  | .iaddA64 _ => some (shIaddA64 x)
  | .iaddI64 _ => some shIaddI64
  | .iaddC64 _ => some (shIaddC64 x)
  | .iaddI96 _ => some (shI96 shIaddI96 x)
  | .isub _ => some (shIaddA64 x)
  | .iaddc _ => some (shIaddc x)
  | .iadd3 _ => some shIadd3
  | .iadd64 _ => some (shIadd64 x)
  | .isub64 _ => some (shIadd64 x)
  | .iabs _ => some shIabs
  | .ineg _ => some shIabs
  | .imulA64 _ => some shM2
  | .imulI64 _ => some shM1
  | .imulC64 _ => some shM1
  | .imulI96 _ => some (shI96 shM1 x)
  | .imulh _ => some shImulh
  | .imulw _ => some shImulw
  | .imadA96 _ => some shImadA96
  | .imadI64 _ => some shTied
  | .imadC64 _ => some shTied
  | .imadI96 _ => some shM2
  | .imadw _ => some shImadw
  | .iminA64 _ => some shS2U
  | .iminI64 _ => some shS1U
  | .imaxA64 _ => some shS2U
  | .imaxI64 _ => some shS1U
  | .iclamp _ => some shIclamp
  | .icmpA64 _ => some (shIcmpA64 x)
  | .icmpC64 _ => some (shIcmpC64 x)
  | .icmp64 _ => some (shIcmp64 x)
  | .sel _ => some shSel
  | .lopA64 _ => some (shLopA64 x)
  | .lopI64 _ => some shLopI64
  | .lopC64 _ => some (shLopC64 x)
  | .lopI96 _ => some (shI96 shLopI64 x)
  | .lut3 _ => some shLut3
  | .shlA64 _ => some shS2
  | .shlI64 _ => some (shShiftI64 0 x)
  | .shrA64 _ => some shS2U
  | .shrI64 _ => some (shShiftI64 1 x)
  | .rolA64 _ => some shS2
  | .rolI64 _ => some (shShiftI64 0 x)
  | .rorA64 _ => some shS2
  | .rorI64 _ => some (shShiftI64 0 x)
  | .fshl _ => some (shFsh x)
  | .fshr _ => some (shFsh x)
  | .bfe _ => some shS2U
  | .bfi _ => some shSel
  | .bmsk _ => some shS2
  | .popc _ => some (shCount x)
  | .clz _ => some (shCount x)
  | .ctz _ => some (shCount x)
  | .brev _ => some (shBrev x)
  | .bsel _ => some shSel
  | .lea _ => some (shLea x)
  | .idot _ => some (shIdot x)
  | .sad _ => some (shSad x)
  | .movA64 _ => some (shMovA64 x)
  | .movI64 _ => some shMovK
  | .movC64 _ => some shMovK
  | .movI96 _ => some (shMovI96 x)
  | .icvt _ => some (shIcvt x)
  | .faddA64 _ => some (shFaddA64 x)
  | .faddI64 _ => some shM1
  | .faddC64 _ => some (shFaddC64 x)
  | .faddI96 _ => some (shI96 shM1 x)
  | .fsub _ => some (shFaddA64 x)
  | .fmulA64 _ => some (shFaddA64 x)
  | .fmulI64 _ => some shM1
  | .fmulC64 _ => some (shFaddC64 x)
  | .fmulI96 _ => some (shI96 shM1 x)
  | .ffmaA96 _ => some (shFfmaA96 x)
  | .ffmaI64 _ => some shTied
  | .ffmaC64 _ => some (shFfmaC64 x)
  | .ffmaI96 _ => some shM2
  | .daddA64 _ => some (shDaddA64 x)
  | .daddC64 _ => some (shDaddC64 x)
  | .dsub _ => some (shDaddA64 x)
  | .dmulA64 _ => some (shDaddA64 x)
  | .dmulC64 _ => some (shDaddC64 x)
  | .dfmaA96 _ => some (shDfmaA96 x)
  | .dfmaC64 _ => some (shDfmaC64 x)
  | .fminA64 _ => some (shFminA64 x)
  | .fminI64 _ => some shM1
  | .fminC64 _ => some (shFminC64 x)
  | .fmaxA64 _ => some (shFminA64 x)
  | .fmaxI64 _ => some shM1
  | .fmaxC64 _ => some (shFminC64 x)
  | .dmin _ => some (shDmin x)
  | .dmax _ => some (shDmin x)
  | .fcmpA64 _ => some shFcmpA64
  | .fcmpC64 _ => some shFcmpC64
  | .dcmp _ => some shDcmp
  | .fclass _ => some shFclass
  | .dclass _ => some shDclass
  | .frnd _ => some (shFrnd x)
  | .drnd _ => some (shDrnd x)
  | .fscale _ => some (shFscale x)
  | .dscale _ => some (shDscale x)
  | .frcp _ => some (shSfu false x)
  | .frsq _ => some (shSfu true x)
  | .fsqrt _ => some (shSfu false x)
  | .fdiv _ => some (shFdiv x)
  | .fexp2 _ => some (shSfu true x)
  | .flog2 _ => some (shSfu true x)
  | .fsin _ => some (shSfu true x)
  | .fcos _ => some (shSfu true x)
  | .hadd2 _ => some (shH2 x)
  | .hmul2 _ => some (shH2 x)
  | .hfma2 _ => some (shHfma2 x)
  | .hmin2 _ => some (shHmin2 x)
  | .hmax2 _ => some (shHmin2 x)
  | .hcmp2 _ => some shHcmp2
  | .hdot2 _ => some (shHdot2 x)
  | .fcvt _ => some (shFcvt x)
  | .f2i _ => some (shF2i x)
  | .i2f _ => some (shI2f x)
  | .mfpack _ => some (shMfpack x)
  | .mfunpack _ => some (shMfunpack x)
  | .bra _ => some (shBra x)
  | .call _ => some shCall
  | .brx _ => some shBrx
  | .callx _ => some shCallx
  | .ret _ => some shBrx
  | .exit _ => some shS
  | .nop _ => some shS
  | .gets _ => some (shGets x)
  | .sets _ => some (shSets tm x)
  | .icinv _ => some shIcinv
  | .eret _ => some (shEret tm)
  | .bkpt _ => some shBkpt
  | .trap _ => some shS
  | .sleep _ => some (shSleep x)
  | .adr _ => some shAdr
  | .lds _ => some (shLds x)
  | .ldsNarrow _ => some shLdsN
  | .sts _ => some (shSts x)
  | .stsNarrow _ => some shStsN
  | .ldc _ => some shLdc
  | .ldcB64 _ => some shLdcB64
  | .ldp _ => some (shLds x)
  | .stp _ => some (shSts x)
  | .binit _ => some shBinit
  | .bexp _ => some shBexp
  | .barr _ => some shBarr
  | .bwait _ => some shBwait
  | .btry _ => some shBwait
  | .shfl _ => some (shShfl x)
  | .vote _ => some (shVote x)
  | .redw _ => some (shRedw x)
  | .scanw _ => some (shScanw x)
  | .matchL _ => some (shMatch x)
  | .bar _ => some shLsu
  | .fences _ => some (shFences x)
  | .atoms _ => some (shAtoms x)
  | .cass _ => some (shCass x)
  | .atomp _ => some (shAtomp x)
  | .barc _ => some shLsu
  | .cfence _ => some (shCfence x)
  | .xbegin _ => some shVd
  | .xcommit _ => some (shXcommit x)
  | .xabort _ => some shVdVa
  | .xstat _ => some shVd
  | .tlead _ => some shTlead
  | .targ _ => some shVdVa
  | .tdep _ => some shVdVa
  | .tqry _ => some shVdVa
  | .trace _ => some shTrace
  | .tzero _ => some (shTzero x)
  | .tload _ => some (shTload x)
  | .tstore _ => some shTstore
  | .tmovvRead _ => some (shTmovvRead x)
  | .tmovvWrite _ => some (shTmovvWrite x)
  | .tmov _ => some shTmov
  | .ttag _ => some (shTtag x)
  | .tstat _ => some shTstat
  | .tfmt _ => some shTfmt
  | .tcvt _ => some (shTcvt x)
  | .tscale _ => some (shTscale x)
  | .tchk _ => some shTchk
  | .mma _ => some shMma
  | .mmac _ => some shMmac
  | .mmaG _ => some shMma
  | .mmacG _ => some shMmac
  | .drainS _ => some (shDrainS x)
  | .drainH _ => some (shDrainH x)
  | .drainRoute _ => some (shDrainRoute x)
  | .seal _ => some shSeal
  | .unseal _ => some shSeal
  | .cpy _ => some (shCpy x)
  | .cpyg _ => some (shCpyg x)
  | .cpys _ => some (shCpys x)
  | .cpyf _ => some (shCpyf x)
  | .cpypf _ => some (shCpypf x)
  | .cpyrc _ => some (shCpypf x)
  | .catom _ => some (shCatom x)
  | .cpyq _ => some shCpyq
  | .cpycan _ => some shCpycan
  | .cpyst _ => some (shCpyst x)
  | .ringacq _ => some (shRingacq x)
  | .ringrel _ => some shRingrel
  | .turn _ => some (shTurn x)
  | .launch _ => some shLaunch
  | .launchJ _ => some shLaunch
  | .trigger _ => some shVd
  | .tspawn _ => some shTspawn
  | .fetchBlockArrival _ _ => none
  | .convergenceArrival _ => none
  | .collectiveRelease _ _ => none
  | .barRelease _ => none
  | .barcRelease _ _ => none
  | .instructionCompletion _ _ => none
  | .exitCompletion _ => none
  | .buoyWaiterSample _ => none
  | .gangArrival _ => none
  | .gangFire _ _ => none
  | .stepStart _ => none
  | .stepRunEnd _ => none
  | .checksumCompare _ _ => none
  | .stepCompletion _ => none
  | .commandAcceptance _ _ => none
  | .commandActivate _ => none
  | .positionPerformed _ _ => none
  | .ringChunkStart _ _ => none
  | .xcommitComplete _ => none
  | .l2Eviction _ _ => none
  | .epochServeRequest _ _ _ => none
  | .teamPlacement _ => none
  | .turnSuccession _ => none
  | .teamSave _ => none
  | .teamSaveComplete _ => none
  | .teamResume _ => none
  | .teamKill _ => none
  | .retentionEnd _ => none
  | .hostRecordRead _ => none
  | .progressTimerExpiry _ => none
  | .quiescenceSample _ => none
  | .childStart _ => none
  | .continuationStart _ => none
  | .triggerPoint _ => none
  | .taskThreadCreate _ => none
  | .qctlWrite _ _ => none
  | .doorbellWrite _ _ => none
  | .qwdogWrite _ _ => none
  | .watchdogExpiry _ => none
  | .recoveryResume _ => none
  | .registerWrite _ _ => none
  | .shootdownStart _ _ => none
  | .shootdownComplete _ => none
  | .promofreeWrite _ _ => none
  | .promotionStart _ _ => none
  | .promotionComplete _ => none
  | .faultrespResume _ _ => none
  | .faultrespFail _ _ => none
  | .mgmtReadRequest _ => none
  | .mgmtWriteRequest _ => none
  | .partctlCreate _ => none
  | .partctlTeardown _ => none
  | .pgrantWrite _ _ _ => none
  | .keyctlGen _ _ => none
  | .keyctlClear _ _ => none
  | .savereqWrite _ _ => none
  | .ownerkeyWrite _ _ => none
  | .pkgreset _ => none
  | .fwctlCommit _ => none
  | .packageReportStart _ => none
  | .partitionReportStart _ _ => none
  | .conncmdStore _ => none
  | .conncmdLoad _ => none
  | .dbgctlWrite _ _ => none
  | .dbgcmdHalt _ _ => none
  | .dbgcmdResume _ _ => none
  | .dbgcmdStep _ _ => none
  | .dbgcmdGo _ _ => none
  | .dbgcmdRollback _ _ => none
  | .dbgcmdArmstop _ _ => none
  | .boot _ _ => none
  | .clusterIdleTimeout _ => none
  | .powerStateEntry _ => none
  | .wake _ => none
  | .clockStep _ => none
  | .thermalEvent _ _ => none
  | .linkCrcFailure _ _ _ => none
  | .rdmaWriteIn _ _ _ _ => none
  | .rdmaReadIn _ _ _ _ => none
  | .sendDoorbellBatch _ _ => none
  | .fetchAddIn _ _ _ _ => none
  | .cmpSwapIn _ _ _ _ _ => none
  | .writeImmLanding _ _ _ _ _ => none
  | .invalidRequestIn _ _ => none
  | .fabricResponse _ _ => none
  | .ackTimeout _ => none
  | .cnpReceived _ => none
  | .tileFire _ _ _ => none
  | .slotCompleteReduce _ _ _ => none
  | .engineReset _ => none
  | .rdmaNakReceived _ _ => none
  | .pfcPauseFrame _ _ _ => none
  | .portLinkStateChange _ _ => none
  | .reconfigurationDone _ => none
  | .partitionOperationDone => none
  | .keyOperationDone _ => none
  | .reportWritten _ => none

end Sys2Proof.Machine
end

