-- ==== Sys2Proof/Machine/Ops.lean ====
section
/-! DEFINITION. The shared operations of an issue: reading registers under the latency rules, writing results, taking
a trap and returning from one, the checks of 03 R78, and issuing a set (01, 03, 06, 07). -/

namespace Sys2Proof.Machine

open Sys2Proof

/-- TRAPCAUSE.TM: trap mode (01 R19). -/
def Thread.tm (t : Thread) : Bool := t.trapCause.getLsbD 31

/-- The values a read of a register may return with their poison: the value before every producer in flight, then each
producer's (01 R27); of a scratchpad access and of an outermost XCOMMIT in flight only the value before, their own not being known
yet. -/
def Thread.choices (t : Thread) (r : Nat) : List (Word × Bool) :=
  (tget t.regs r 0, nmem t.poison r) ::
    t.flight.filterMap fun e => match e.wait with
      | .commit _ | .access _ => none
      | _ => (e.regs.find? fun w => w.1 == r).map fun w => (w.2, e.poison.contains r)

/-- A register as an instruction reads it, with its poison: V255 is zero; with a producer in flight a free choice
(01 R13, R27; log 2). -/
def Thread.readAny (t : Thread) (count tid r : Nat) : Word × Bool :=
  if r ≥ 255 then (0, false)
  else match t.choices r with
    | [v] => v
    | vs => vs.getD (Config.staleChoice count tid r % vs.length) (0, false)

/-- Latency of the fixed classes in clk (01 R25). -/
def latency : LatClass → Nat | .s => 2 | .m => 4 | .l => 6 | .v => 0

/-- The registers of a write that are stored: writes to V255 are discarded (01 R13, R14). -/
def storable (ws : List (Nat × Word)) : List (Nat × Word) := ws.filter fun w => decide (w.1 < 255)

/-- A flag one lower (01 R24). -/
def decFlag (fl : Table Nat) : Option Nat → Table Nat
  | none => fl
  | some k => tput fl k (tget fl k 0 - 1)

/-- The special-register write of a SETS (06 R134). -/
def Thread.setSreg (t : Thread) : Option (Nat × DWord) → Thread
  | none => t
  | some (0x0A, v) => { t with gang := lo32 v }
  | some (0x14, v) => { t with epc := v }
  | some (0x28, v) => { t with terms := v }
  | some (0x29, v) => { t with termCyc := v }
  | some (0x2A, v) => { t with termSkew := v }
  | some _ => t

/-- A result in flight becomes visible: its registers, poison, special register and flag (01 R24, R28, 13 R309). -/
def Thread.commit (t : Thread) (e : InFlight) : Thread :=
  let t := { t with regs := e.regs.foldl (fun m (w : Nat × Word) => tput m w.1 w.2) t.regs,
                    poison := e.regs.foldl (fun l (w : Nat × Word) => if e.poison.contains w.1 then nadd l w.1 else ndel l w.1) t.poison,
                    flags := decFlag t.flags e.flag }
  t.setSreg e.sreg

/-- The results of fixed classes whose latency has passed become visible (01 R25). Of two that fall in one clk on one register
the later-issued one stands (DESIGN CHOICE, log 127). -/
def Thread.settle (t : Thread) (clk : Nat) : Thread :=
  let done := t.flight.filter fun e => e.cls != .v && decide (e.ready ≤ clk)
  done.foldl Thread.commit { t with flight := t.flight.filter fun e => !(e.cls != .v && decide (e.ready ≤ clk)) }

/-- What a meaning is given of the issuing thread: the instruction, its fields and class, the thread as it stands before
the issue, its address and the next instruction start (06 R130). -/
structure Ctx where
  i : Instr
  f : Flds
  cls : LatClass
  tid : Nat
  t : Thread
  count : Nat
  clk : Nat
  pc : VAddr
  next : VAddr

/-- A 32-bit source register. -/
def Ctx.r (c : Ctx) (k : Nat) : Word := (c.t.readAny c.count c.tid k).1
/-- A pair as a 64-bit source (00 R7, 01 R14). -/
def Ctx.p (c : Ctx) (k : Nat) : DWord := pair64 (c.r k) (c.r (k + 1))
def Ctx.va (c : Ctx) : Word := c.r c.f.va
def Ctx.vb (c : Ctx) : Word := c.r c.f.vb
def Ctx.vc (c : Ctx) : Word := c.r c.f.vc
def Ctx.vd (c : Ctx) : Word := c.r c.f.vd
def Ctx.ve (c : Ctx) : Word := c.r c.f.ve
/-- The set flag an instruction names (03 R66). -/
def Ctx.flag (c : Ctx) : Option Nat := if c.f.set ≤ 11 then some c.f.set else none
/-- The MOD field's bit `k`. -/
def Ctx.m (c : Ctx) (k : Nat) : Bool := bitAt c.f.mod k

/-- Put a result in flight for the issuing thread (01 R24, R25). -/
def Ctx.fly (c : Ctx) (e : InFlight) (s : State) : State := s.modThread c.tid fun t => { t with flight := t.flight ++ [e] }

/-- Register writes of the instruction, visible after its latency, or at completion for class V (01 R25). -/
def Ctx.write (c : Ctx) (ws : List (Nat × Word)) (s : State) : State :=
  c.fly { cls := c.cls, ready := c.clk + latency c.cls, flag := c.flag, regs := storable ws, poison := [], sreg := none } s

/-- A 32-bit result in VD. -/
def Ctx.put (c : Ctx) (v : Word) (s : State) : State := c.write [(c.f.vd, v)] s
/-- A 64-bit result in the VD pair. -/
def Ctx.putP (c : Ctx) (v : DWord) (s : State) : State := c.write [(c.f.vd, lo32 v), (c.f.vd + 1, hi32 v)] s

/-- The words of a DOUBLEFAULT record (23 R444, 06 R140). -/
def doubleFaultWords (t : Thread) (second : Trap) (pc2 : DWord) (cause1 : Nat) (pc1 : DWord) : List DWord :=
  [recWord 7 (0x11 + 256 * (second.cause % 256) + 65536 * (second.detail % 256) + 16777216 * (cause1 % 256)),
   recWord t.num 0, pc2, second.addr, t.teamIdx ++ t.gridId, pc1, 0, 0]

/-- A double fault: the record, and the team stops for its kill (06 R140, 13 R283, R306). -/
def doubleFault (t : Thread) (second : Trap) (pc2 : DWord) (cause1 : Nat) (pc1 : DWord) (s : State) : State :=
  let s := match s.team? t.team with
    | some tm => postFault tm.part (doubleFaultWords t second pc2 cause1 pc1) s
    | none => s
  s.modTeam t.team fun x => { x with killReq := true }

/-- Trap entry, the one shared operation (06 R137): trap mode is a double fault; else the trap registers are written and
the PC goes to the team's handler, or a double fault ends the team when that is absent or no instruction start. -/
def enterTrap (tid : Nat) (pc next : VAddr) (tr : Trap) (s : State) : State :=
  match s.thread? tid with
  | none => s
  | some t =>
    if t.tm then
      doubleFault t tr (addr64 pc) (t.trapCause.toNat % 256) t.trapPc s
    else
      let t' := { t with
        trapCause := BitVec.ofNat 32 (2 ^ 31 + 65536 * (tr.detail % 256) + tr.cause % 256),
        trapPc := addr64 pc, epc := addr64 (if tr.next then next else pc), trapAddr := tr.addr, trapMask := tr.mask,
        lastIssue := some (s.clkOf t.core), starve := 0, held := none, released := false, pastBreak := false }
      let handler := match s.team? t.team with | some x => x.handler | none => 0
      if handler = 0 then doubleFault t tr (addr64 pc) 0 0 (s.putThread tid t')
      else match checkTarget t.core handler s with
        | (some _, s) => doubleFault t tr (addr64 pc) 0 0 (s.putThread tid t')
        | (none, s) => s.putThread tid { t' with pc := handler, conv := .trapEntry }

/-- Leaving trap mode for an address that has passed its check, the return beside `enterTrap` (06 R140): TM reads 0, the
PC is EPC, and the other trap registers keep their values. -/
def leaveTrap (tid : Nat) (epc : VAddr) (s : State) : State :=
  s.modThread tid fun t => { t with trapCause := t.trapCause &&& 0x7FFFFFFF#32, pc := epc, conv := .run }

/-- The outcome of steps 1 to 3 of 03 R78: a trap, or the guard's value. -/
def checkIssue (i : Instr) (sh : Shape) (f : Flds) (t : Thread) (count tid : Nat) : Except Trap Bool :=
  match sh.detail f with
  | some d => .error { cause := 1, detail := d, addr := words01 i }
  | none =>
    match (sh.named f).find? fun r => decide (t.nregs ≤ r) && decide (r < 255) with
    | some r => .error { cause := 2, detail := r, addr := words01 i }
    | none =>
      if f.guard = 127 then .ok true
      else
        let (v, bad) := t.readAny count tid f.guard
        if bad then .error { cause := 0x10, detail := 1, addr := BitVec.ofNat 64 f.guard }
        else .ok (v.getLsbD 0 == (f.pol == 0))

/-- The poison check of step 4 of 03 R78. -/
def poisonTrap (sh : Shape) (f : Flds) (t : Thread) (count tid : Nat) : Option Trap :=
  ((sh.sources f).find? fun r => (t.readAny count tid r).2).map fun r =>
    { cause := 0x10, detail := 1, addr := BitVec.ofNat 64 r }

/-- The thread-side bookkeeping of an issue (01 R20, R22 to R24, 07 R150): the PC moves to the next start, RETIRED and the
set flag go up. -/
def Thread.retire (t : Thread) (c : Ctx) (flag : Option Nat) : Thread :=
  { t with pc := c.next, retired := t.retired + 1, lastIssue := some c.clk, starve := 0, pastBreak := false, released := false,
           flags := match flag with | some k => tput t.flags k ((tget t.flags k 0 + 1) % 8) | none => t.flags }

/-- An instruction issues for a thread: it retires, counts, and the model's count advances. -/
def retireIn (c : Ctx) (flag : Option Nat) (s : State) : State :=
  let s := s.modThread c.tid fun t => t.retire c flag
  let s := { s with count := s.count + 1 }
  s.bumpCore c.t.core 0x0000 1

/-- A meaning of an instruction for one thread: the state after its effect, or the trap of its operation. The state it is
given already holds the retired thread. -/
abbrev Body := Ctx → State → Except Trap State

/-- The context of an issue. -/
def ctxOf (i : Instr) (f : Flds) (cls : LatClass) (tid : Nat) (t : Thread) (s : State) : Ctx :=
  { i := i, f := f, cls := cls, tid := tid, t := t, count := s.count, clk := s.clkOf t.core, pc := t.pc,
    next := nextStart s t.core t.pc f.words }

/-- One thread issues one instruction: the checks of 03 R78 in order, then the meaning. -/
def issueOne (i : Instr) (body : Body) (tid : Nat) (s : State) : State :=
  match s.thread? tid with
  | none => s
  | some t => match shapeOf t.tm i with
    | none => s
    | some sh =>
      let f := fldsOf i
      let c := ctxOf i f sh.cls tid t s
      match checkIssue i sh f t s.count tid with
      | .error tr => enterTrap tid t.pc c.next tr s
      | .ok false => retireIn c none s
      | .ok true => match poisonTrap sh f t s.count tid with
        | some tr => enterTrap tid t.pc c.next tr s
        | none => match body c (retireIn c (if sh.cls == .v then c.flag else none) s) with
          | .error tr => enterTrap tid t.pc c.next tr s
          | .ok s' => s'

/-- The members of the issue set issue one instruction, each with its own registers and guard (07 R151). -/
def issueEach (i : Instr) (body : Body) (s : State) : Host.Outcome State Fault Refusal :=
  .next { s.issue.foldl (fun s tid => issueOne i body tid s) s with issue := [] }

/-- A meaning that only writes a 32-bit result. -/
def put32 (g : Ctx → Word) : Body := fun c s => .ok (c.put (g c) s)
/-- A meaning that only writes a 64-bit result. -/
def put64 (g : Ctx → DWord) : Body := fun c s => .ok (c.putP (g c) s)

end Sys2Proof.Machine
end

