-- ==== Sys2Proof/Machine/Ports.lean ====
section
/-! DEFINITION. The issue ports and execution units of a core in a cycle, and the order of issue sets (07 R150, R152,
R153). -/

namespace Sys2Proof.Machine

open Sys2Proof

/-- Deterministic mode of the core's partition (24 R460). -/
def detMode (s : State) (core : Nat) : Bool :=
  match partOfCore s core with | some p => (s.part p).det | none => false

/-- The key of a thread (07 R150). -/
def Thread.key (t : Thread) (det : Bool) : Nat := if det then t.teamIdx.toNat * 65536 + t.num else t.seq

/-- Starved (07 R150). -/
def Thread.starved (t : Thread) : Bool := decide (t.starve ≥ 256)

/-- Whether a unit can accept a set in this cycle (07 R152). -/
def Core.accepts (c : Core) (clk : Nat) : ExUnit → Bool
  | .alu => decide (c.aluUsed < 2)
  | .mul => decide (c.mulUsed < 1)
  | .dfp => decide (c.dfpFree ≤ clk)
  | .sfu => decide (c.sfuFree ≤ clk)
  | .lsu => decide (c.lsuUsed < 1)
  | .eng => decide (c.engUsed < 1)

/-- A set issues on a port to a unit (07 R152, R153). -/
def Core.take (c : Core) (clk rank : Nat) (u : ExUnit) : Core :=
  let c := { c with ports := c.ports ++ [rank] }
  match u with
  | .alu => { c with aluUsed := c.aluUsed + 1 }
  | .mul => { c with mulUsed := c.mulUsed + 1 }
  | .dfp => { c with dfpFree := clk + 2 }
  | .sfu => { c with sfuFree := clk + 4 }
  | .lsu => { c with lsuUsed := c.lsuUsed + 1 }
  | .eng => { c with engUsed := c.engUsed + 1 }

/-- The place of a set in the order of 07 R153: starved sets first, then ascending key, then the lower address. -/
def setRank (starved : Bool) (key : Nat) (pc : VAddr) : Nat := ((if starved then 0 else 2 ^ 65) + key) * 2 ^ 56 + pc.toNat
/-- The team's threads may issue: it is neither being saved nor killed nor turning (07 R149, 13 R283). -/
def Team.issues (t : Team) : Bool := !t.killReq && t.state == .live


end Sys2Proof.Machine
end

