-- ==== Sys2Proof/Machine/Flags.lean ====
section
/-! DEFINITION. Exact integer results narrowed to registers, carries, saturation and compare conditions (02 R50,
04 R86 to R101). The hardware keeps no arithmetic flags; a carry or a condition is a register value. -/

namespace Sys2Proof.Machine

open Sys2Proof

/-- Saturate an exact integer to a signed width (02 R50). -/
def satS (w : Nat) (x : Int) : Int :=
  if x < -(2 ^ (w - 1) : Int) then -(2 ^ (w - 1) : Int) else if x > (2 ^ (w - 1) : Int) - 1 then (2 ^ (w - 1) : Int) - 1 else x
/-- Saturate an exact integer to an unsigned width (02 R50). -/
def satU (w : Nat) (x : Int) : Int := if x < 0 then 0 else if x > (2 ^ w : Int) - 1 then (2 ^ w : Int) - 1 else x

/-- S(x) or U(x) of a register pattern (04 R86). -/
def intOf {w : Nat} (u : Bool) (x : BitVec w) : Int := if u then x.toNat else x.toInt

/-- The destination value of an exact result under SAT and U (04 R86). -/
def narrow (w : Nat) (sat u : Bool) (x : Int) : BitVec w :=
  BitVec.ofInt w (if sat then (if u then satU w x else satS w x) else x)

/-- A truth value as 1 or 0. -/
def bool32 (b : Bool) : Word := if b then 1 else 0

/-- The carry out of a 32-bit addition (04 R91). -/
def carryOut (a b : Word) (cin : Bool) : Word := bool32 (decide (a.toNat + b.toNat + b2n cin ≥ 2 ^ 32))

/-- The integer conditions of ICMP (04 R93). -/
def cmpInt (cc : Nat) (a b : Int) : Bool :=
  match cc with
  | 0 => a == b | 1 => a != b | 2 => decide (a < b) | 3 => decide (a ≤ b) | 4 => decide (a > b) | _ => decide (a ≥ b)

/-- The two-operand logic operations (04 R94). -/
def logic (fn : Nat) (a b : Word) : Word :=
  match fn with | 0 => a &&& b | 1 => a ||| b | 2 => a ^^^ b | _ => a &&& ~~~b

/-- A bit built from a predicate on its position. -/
def bitsOf (w : Nat) (p : Nat → Bool) : BitVec w :=
  BitVec.ofNat w ((List.range w).foldl (fun n i => if p i then n + 2 ^ i else n) 0)

/-- LUT3 (04 R94). -/
def lut3 (t : Nat) (a b c : Word) : Word :=
  bitsOf 32 fun i => bitAt t (b2n (a.getLsbD i) + 2 * b2n (b.getLsbD i) + 4 * b2n (c.getLsbD i))

/-- SHL (04 R95). -/
def shlW (a : Word) (n : Nat) : Word := if n ≥ 32 then 0 else a <<< n
/-- SHR, logical (04 R95). -/
def shrU (a : Word) (n : Nat) : Word := if n ≥ 32 then 0 else a >>> n
/-- SHR, arithmetic (04 R95). -/
def shrS (a : Word) (n : Nat) : Word := BitVec.ofInt 32 (a.toInt / (2 ^ min n 32 : Nat))
/-- ROL (04 R95). -/
def rolW (a : Word) (n : Nat) : Word := a.rotateLeft (n % 32)
/-- ROR (04 R95). -/
def rorW (a : Word) (n : Nat) : Word := a.rotateRight (n % 32)

/-- The funnel shift count (04 R96). -/
def funnelN (clamp : Bool) (c : Word) : Nat := if clamp then min c.toNat 32 else c.toNat % 32
/-- FSHL: the high word of VA:VB shifted left (04 R96). -/
def fshl (a b : Word) (n : Nat) : Word := BitVec.ofNat 32 ((a.toNat * 2 ^ 32 + b.toNat) * 2 ^ n / 2 ^ 32)
/-- FSHR: the low word of VA:VB shifted right (04 R96). -/
def fshr (a b : Word) (n : Nat) : Word := BitVec.ofNat 32 ((a.toNat * 2 ^ 32 + b.toNat) / 2 ^ n)

/-- Field length of a control value: at most 32 (04 R97). -/
def fieldLen (x : Nat) : Nat := min (x % 256) 32
/-- BFE (04 R97). -/
def bfe (u : Bool) (a : Word) (p l : Nat) : Word :=
  if l = 0 then 0
  else
    let f : Int := intOf u a / (2 ^ p : Nat) % (2 ^ l : Nat)
    BitVec.ofInt 32 (if !u && f ≥ (2 ^ (l - 1) : Nat) then f - (2 ^ l : Nat) else f)
/-- The mask of a bit field (04 R97). -/
def fieldMask (p l : Nat) : Word := BitVec.ofNat 32 ((2 ^ l - 1) * 2 ^ p)
/-- BFI (04 R97). -/
def bfi (a b : Word) (p l : Nat) : Word :=
  let m := fieldMask p l
  (a &&& ~~~m) ||| (BitVec.ofNat 32 (b.toNat * 2 ^ p) &&& m)

/-- Number of 1 bits (04 R98). -/
def popcount (w x : Nat) : Nat := (List.range w).foldl (fun n i => n + b2n (bitAt x i)) 0
/-- Leading zeros of `w` bits (04 R98). -/
def clz (w x : Nat) : Nat := if x = 0 then w else w - 1 - Nat.log2 x
/-- Trailing zeros of `w` bits (04 R98). -/
def ctz (w x : Nat) : Nat := ((List.range w).find? fun i => bitAt x i).getD w
/-- Bits in reverse order (04 R98). -/
def brev {w : Nat} (x : BitVec w) : BitVec w := bitsOf w fun i => x.getLsbD (w - 1 - i)

/-- One byte of BSEL from its control byte (04 R99). -/
def bselByte (src : Nat) (k : Nat) : Nat :=
  let b := if bitAt k 3 then 0
    else
      let b := bitsAt src (8 * (k % 8)) 8
      let b := if bitAt k 5 then (if bitAt b 7 then 0xFF else 0) else b
      if bitAt k 6 then (brev (BitVec.ofNat 8 b)).toNat else b
  if bitAt k 4 then 0xFF - b else b
/-- BSEL (04 R99). -/
def bsel (a b c : Word) : Word :=
  let src := a.toNat + 2 ^ 32 * b.toNat
  BitVec.ofNat 32 ((List.range 4).foldl (fun n i => n + bselByte src (bitsAt c.toNat (8 * i) 8) * 2 ^ (8 * i)) 0)

/-- Elements and element width of the shapes of IDOT and SAD (04 R101). -/
def dotShape : Nat → Nat × Nat | 0 => (4, 8) | 1 => (2, 16) | _ => (8, 4)
/-- Element `i` of `w` bits, signed unless `u` (04 R101). -/
def elemOf (u : Bool) (w i : Nat) (x : Word) : Int :=
  if u then (bitsAt x.toNat (w * i) w : Int) else signedOf w (bitsAt x.toNat (w * i) w)
/-- IDOT's exact sum (04 R101). -/
def idot (fn : Nat) (ua ub : Bool) (a b c : Word) : Int :=
  let (n, w) := dotShape fn
  (List.range n).foldl (fun x i => x + elemOf ua w i a * elemOf ub w i b) c.toInt
/-- SAD's exact sum (04 R101). -/
def sad (fn : Nat) (u : Bool) (a b c : Word) : Int :=
  let (n, w) := dotShape fn
  (List.range n).foldl (fun x i => x + (elemOf u w i a - elemOf u w i b).natAbs) c.toNat

/-- Width and signedness of an integer format code (02 R33, R34). -/
def intFmt : Nat → Nat × Bool
  | 1 => (4, true) | 2 => (4, false) | 3 => (8, true) | 4 => (8, false) | 5 => (16, true) | 6 => (16, false)
  | 7 => (32, true) | 8 => (32, false) | 9 => (64, true) | _ => (64, false)

/-- The value of an integer of a format held in the low bits of `x` (02 R34). -/
def intDecode (fmt : Nat) (x : Nat) : Int :=
  let (w, sg) := intFmt fmt
  if sg then signedOf w x else (x % 2 ^ w : Nat)

/-- An exact integer narrowed to a format: saturated, or its low bits (02 R54). -/
def intEncode (fmt : Nat) (sat : Bool) (x : Int) : Int :=
  let (w, sg) := intFmt fmt
  if sat then (if sg then satS w x else satU w x)
  else if sg then signedOf w (wrapNat w x) else (wrapNat w x : Int)

end Sys2Proof.Machine
end

