-- ==== Sys2Proof/Machine/Num.lean ====
section
/-! DEFINITION. Number formats and exact arithmetic (02 R33 to R60): decoding, the six rounding modes, saturation,
stochastic rounding, block scales, and the exact sums. -/

namespace Sys2Proof.Machine

open Sys2Proof

/-- A value of a float format: NaN, an infinity, or exactly (-1)^neg x m x 2^e. -/
inductive Val where
  | nan
  | inf (neg : Bool)
  | fin (neg : Bool) (m : Nat) (e : Int)
  deriving DecidableEq, Repr

/-- A binary float format: exponent and fraction widths, bias, sign bit, and the all-finite convention CONV 1
(02 R36, R41). -/
structure Fp where
  eb : Nat
  fb : Nat
  bias : Int
  signed : Bool := true
  conv1 : Bool := false
  deriving DecidableEq, Repr

def fp16 : Fp := { eb := 5, fb := 10, bias := 15 }
def bf16 : Fp := { eb := 8, fb := 7, bias := 127 }
def fp32 : Fp := { eb := 8, fb := 23, bias := 127 }
def fp64 : Fp := { eb := 11, fb := 52, bias := 1023 }

/-- The IEEE formats and BF16 by code (02 R33). -/
def fpOf : Nat → Fp | 0x0B => fp16 | 0x0C => bf16 | 0x0E => fp64 | _ => fp32

/-- Width of an MF format code (02 R33). -/
def mfWidth : Nat → Nat | 0x11 => 4 | 0x12 => 6 | _ => 8

/-- The fields of a format record (02 R41). -/
def recSign (r : Nat) : Nat := bitsAt r 7 1
def recEbits (r : Nat) : Nat := bitsAt r 4 3
def recWidth (r : Nat) : Nat := bitsAt r 0 4
def recConv (r : Nat) : Nat := bitsAt r 16 2

/-- The validity of a format record for a format code (02 R42). -/
def recValid (code r : Nat) : Bool :=
  let used := recSign r + recEbits r
  let mb := recWidth r - used
  bitsAt r 18 14 == 0 && bitsAt r 15 1 == 0 && decide (recConv r ≤ 1) && decide (1 ≤ recEbits r)
    && recWidth r == mfWidth code && decide (used ≤ recWidth r) && (recWidth r != 4 || decide (mb ≤ 2))
    && (recConv r != 0 || (decide (2 ≤ recEbits r) && decide (1 ≤ mb)))

/-- The format of a valid record (02 R41, R43). -/
def mfOf (r : Nat) : Fp :=
  { eb := recEbits r, fb := recWidth r - recSign r - recEbits r, bias := bitsAt r 8 7,
    signed := recSign r == 1, conv1 := recConv r == 1 }

/-- Exponent of the least significant bit of a subnormal. -/
def Fp.qmin (p : Fp) : Int := 1 - p.bias - p.fb
/-- Bits of a magnitude. -/
def Fp.magw (p : Fp) : Nat := p.eb + p.fb
/-- The magnitude code of infinity under CONV 0. -/
def Fp.infCode (p : Fp) : Nat := (2 ^ p.eb - 1) * 2 ^ p.fb
/-- The largest finite magnitude code (02 R44). -/
def Fp.maxCode (p : Fp) : Nat :=
  if p.conv1 then (if p.signed then 2 ^ p.magw - 1 else 2 ^ p.magw - 2) else p.infCode - 1
/-- CanonNaN, or the NaN code under CONV 1 (02 R36, R44). -/
def Fp.nanCode (p : Fp) : Nat :=
  if p.conv1 then (if p.signed then 2 ^ p.magw else 2 ^ p.magw - 1) else p.infCode + 2 ^ (p.fb - 1)
/-- The bits of a sign and a magnitude code; a format without negative zero or sign drops the sign of zero. -/
def Fp.withSign (p : Fp) (neg : Bool) (code : Nat) : Nat :=
  if neg && p.signed && !(p.conv1 && code == 0) then 2 ^ p.magw + code else code

/-- The value of a magnitude code as significand and exponent (02 R37, R43). -/
def Fp.magnitude (p : Fp) (code : Nat) : Nat × Int :=
  let e := code / 2 ^ p.fb
  let f := code % 2 ^ p.fb
  if e = 0 then (f, p.qmin) else (f + 2 ^ p.fb, p.qmin + e - 1)

/-- Decode the bits of a format (02 R37, R43, R44). -/
def Fp.decode (p : Fp) (x : Nat) : Val :=
  let code := x % 2 ^ p.magw
  let neg := p.signed && bitAt x p.magw
  if p.conv1 then
    if (p.signed && neg && code == 0) || (!p.signed && code == 2 ^ p.magw - 1) then .nan
    else .fin neg (p.magnitude code).1 (p.magnitude code).2
  else if code = p.infCode then .inf neg
  else if code > p.infCode then .nan
  else .fin neg (p.magnitude code).1 (p.magnitude code).2

/-- floor(log2) of the largest finite value (02 R44). -/
def Fp.emax (p : Fp) : Int :=
  let (m, e) := p.magnitude p.maxCode
  (Nat.log2 m : Int) + e

/-- The rounding modes (02 R48). `sr` carries the hash of R51. -/
inductive Rm where
  | rn | rz | ru | rd | ra
  | sr (hash : Nat)
  deriving DecidableEq, Repr

/-- A rounding code without SR. -/
def rmOf : Nat → Rm | 1 => .rz | 2 => .ru | 3 => .rd | 4 => .ra | _ => .rn

/-- A nonnegative exact magnitude m x 2^e, or with `st` a value strictly between it and (m + 1) x 2^e. -/
structure Mag where
  m : Nat
  e : Int
  st : Bool := false
  deriving DecidableEq, Repr

/-- A magnitude over the spacing 2^q: its integer part, the comparison of the rest with one half (0 exact, 1 below,
2 half, 3 above), and floor(2^32 x rest). -/
def Mag.split (x : Mag) (q : Int) : Nat × Nat × Nat :=
  if x.e ≥ q then (x.m * 2 ^ (x.e - q).toNat, if x.st then 1 else 0, 0)
  else
    let sh := (q - x.e).toNat
    if sh > Nat.log2 x.m + 40 then (0, if x.m = 0 ∧ !x.st then 0 else 1, 0)
    else
      let n := x.m / 2 ^ sh
      let r := x.m % 2 ^ sh
      let half := 2 ^ (sh - 1)
      let c := if r = 0 ∧ !x.st then 0 else if r < half then 1 else if r = half ∧ !x.st then 2 else 3
      (n, c, r * 2 ^ 32 / 2 ^ sh)

/-- Whether the neighbour away from zero is chosen (02 R48, R52). -/
def roundUp (rm : Rm) (neg : Bool) (n c f : Nat) : Bool :=
  c != 0 && match rm with
    | .rn => c == 3 || (c == 2 && n % 2 == 1)
    | .rz => false
    | .ru => !neg
    | .rd => neg
    | .ra => decide (c ≥ 2)
    | .sr h => decide (f + h ≥ 2 ^ 32)

/-- The magnitude code of a magnitude rounded to a format with unbounded exponent (02 R49). -/
def Fp.roundCode (p : Fp) (rm : Rm) (neg : Bool) (x : Mag) : Nat :=
  if x.m = 0 then
    if !x.st then 0 else b2n (roundUp rm neg 0 1 0)
  else
    let q := max ((Nat.log2 x.m : Int) + x.e - p.fb) p.qmin
    let (n, c, f) := x.split q
    (q - p.qmin).toNat * 2 ^ p.fb + n + b2n (roundUp rm neg n c f)

/-- An overflow maps to infinity rather than the largest finite value (02 R49). -/
def overflowInf (rm : Rm) (neg : Bool) : Bool :=
  match rm with | .rz => false | .ru => !neg | .rd => neg | _ => true

/-- Round of a finite exact value (02 R49): the bits of the format. -/
def Fp.roundFin (p : Fp) (rm : Rm) (neg : Bool) (x : Mag) : Nat :=
  let c := p.roundCode rm neg x
  if neg && !p.signed then (if c = 0 then 0 else p.nanCode)
  else if c ≤ p.maxCode then p.withSign neg c
  else if !p.conv1 && overflowInf rm neg then p.withSign neg p.infCode
  else p.withSign neg p.maxCode

/-- Round of a value (02 R49). -/
def Fp.round (p : Fp) (rm : Rm) (v : Val) : Nat :=
  match v with
  | .nan => p.nanCode
  | .inf neg =>
    if neg && !p.signed then p.nanCode
    else if p.conv1 then p.withSign neg p.maxCode else p.withSign neg p.infCode
  | .fin neg m e => p.roundFin rm neg { m := m, e := e }

/-- Saturate applied after Round (02 R50). -/
def Fp.saturate (p : Fp) (y : Nat) : Nat :=
  let code := y % 2 ^ p.magw
  if !p.conv1 && code == p.infCode then p.withSign (p.signed && bitAt y p.magw) p.maxCode else y

/-- A value is negative: below zero (02 R50). -/
def Val.below : Val → Bool
  | .inf neg => neg
  | .fin neg m _ => neg && m != 0
  | .nan => false

/-- Round, then Saturate when requested; a negative value for a format without negative values gives 0 directly (02 R50). -/
def Fp.roundSat (p : Fp) (rm : Rm) (sat : Bool) (v : Val) : Nat :=
  if sat && !p.signed && v.below then 0
  else if sat then p.saturate (p.round rm v) else p.round rm v

/-- The negation of a value. -/
def Val.neg : Val → Val
  | .nan => .nan
  | .inf n => .inf (!n)
  | .fin n m e => .fin (!n) m e

/-- The signed significand of a finite value over 2^e. -/
def scaledInt (neg : Bool) (m : Nat) (e base : Int) : Int :=
  let x : Int := (m * 2 ^ (e - base).toNat : Nat)
  if neg then -x else x

/-- A value of an exact integer over 2^e. -/
def Val.ofInt (x : Int) (e : Int) : Val := .fin (decide (x < 0)) x.natAbs e

/-- The exact sum; an exact zero takes its sign from R40 with `rd` for round-down. -/
def Val.add (rd : Bool) (a b : Val) : Val :=
  match a, b with
  | .nan, _ => .nan
  | _, .nan => .nan
  | .inf x, .inf y => if x = y then .inf x else .nan
  | .inf x, _ => .inf x
  | _, .inf y => .inf y
  | .fin n1 m1 e1, .fin n2 m2 e2 =>
    if m1 = 0 ∧ m2 = 0 then .fin (if n1 = n2 then n1 else rd) 0 0
    else if m1 = 0 then .fin n2 m2 e2
    else if m2 = 0 then .fin n1 m1 e1
    else
      let e := min e1 e2
      let x := scaledInt n1 m1 e1 e + scaledInt n2 m2 e2 e
      if x = 0 then .fin rd 0 0 else Val.ofInt x e

/-- The exact product (05 R110). -/
def Val.mul (a b : Val) : Val :=
  match a, b with
  | .nan, _ => .nan
  | _, .nan => .nan
  | .inf x, .inf y => .inf (x != y)
  | .inf x, .fin y m _ => if m = 0 then .nan else .inf (x != y)
  | .fin x m _, .inf y => if m = 0 then .nan else .inf (x != y)
  | .fin x m e, .fin y n f => .fin (x != y) (m * n) (e + f)

/-- A value times a power of two, exactly (02 R46). -/
def Val.scale (v : Val) (k : Int) : Val :=
  match v with | .fin n m e => .fin n m (e + k) | v => v

/-- Two values that are not NaN compared: less, equal or greater; zeros are equal. -/
def Val.cmp (a b : Val) : Ordering :=
  match a, b with
  | .inf x, .inf y => if x = y then .eq else if x then .lt else .gt
  | .inf x, _ => if x then .lt else .gt
  | _, .inf y => if y then .gt else .lt
  | .fin n1 m1 e1, .fin n2 m2 e2 =>
    let e := min e1 e2
    compare (scaledInt n1 m1 e1 e) (scaledInt n2 m2 e2 e)
  | _, _ => .eq

/-- Mix32 and SRHash (02 R51). -/
def mix32 (x : Nat) : Nat :=
  let x := x ^^^ (x / 2 ^ 16)
  let x := x * 0x7FEB352D % 2 ^ 32
  let x := x ^^^ (x / 2 ^ 15)
  let x := x * 0x846CA68B % 2 ^ 32
  x ^^^ (x / 2 ^ 16)

/-- The steps of SRHash from coordinate `i` on. -/
def srSteps : Nat → Nat → List Nat → Nat
  | h, _, [] => h
  | h, i, c :: r => srSteps (mix32 (((h ^^^ c) + (i + 1) * 0x9E3779B9) % 2 ^ 32)) (i + 1) r

/-- SRHash of a seed and up to five coordinates (02 R51). -/
def srHash (seed : Nat) (c : List Nat) : Nat :=
  srSteps (seed % 2 ^ 32) 0 ((List.range 5).map fun i => c.getD i 0 % 2 ^ 32)

/-- A finite value rounded to an integer by mode (02 R54, 05 R114). -/
def roundInt (rm : Rm) (neg : Bool) (m : Nat) (e : Int) : Nat :=
  let (n, c, f) := Mag.split { m := m, e := e } 0
  n + b2n (roundUp rm neg n c f)

/-- Float to integer (02 R54): rounded, saturated to the format, NaN gives 0. -/
def floatToInt (fmt : Nat) (rm : Rm) (v : Val) : Int :=
  let (w, sg) := intFmt fmt
  let hi : Int := if sg then (2 ^ (w - 1) : Int) - 1 else (2 ^ w : Int) - 1
  let lo : Int := if sg then -(2 ^ (w - 1) : Int) else 0
  match v with
  | .nan => 0
  | .inf neg => if neg then lo else hi
  | .fin neg m e =>
    if e > 80 ∧ m ≠ 0 then (if neg then lo else hi)
    else
      let x : Int := roundInt rm neg m e
      let x := if neg then -x else x
      if x < lo then lo else if x > hi then hi else x

/-- floor(log2) of a finite nonzero value. -/
def Val.log2 : Val → Option Int
  | .fin _ m e => if m = 0 then none else some ((Nat.log2 m : Int) + e)
  | _ => none

/-- The scale code of a block of values quantised into an MF format (02 R47). -/
def blockScale (p : Fp) (vs : List Val) : Nat :=
  if vs.any fun v => match v with | .nan => true | .inf _ => true | _ => false then 255
  else match vs.filterMap Val.log2 with
    | [] => 127
    | l :: ls =>
      let x := ls.foldl max l - p.emax
      (max (-127) (min 127 x) + 127).toNat

/-- One element quantised under a block scale code (02 R47). A zero element keeps its sign (DESIGN CHOICE, log 128). -/
def quantElem (p : Fp) (rm : Rm) (code : Nat) (v : Val) : Nat :=
  if code = 255 then p.nanCode else p.roundSat rm true (v.scale (127 - (code : Int)))

/-- An element value under a block scale code (02 R46). -/
def scaleElem (code : Nat) (v : Val) : Val := if code = 255 then .nan else v.scale ((code : Int) - 127)

/-- Whether every value is a zero of negative sign (02 R40, R58). -/
def allNegZero (vs : List Val) : Bool := vs.all fun v => match v with | .fin n m _ => n && m == 0 | _ => false

/-- Special operands of an exact sum (02 R58): the result when there is one. -/
def specialSum (vs : List Val) : Option Val :=
  if vs.any (· == .nan) then some .nan
  else
    let p := vs.any (· == .inf false)
    let n := vs.any (· == .inf true)
    if p && n then some .nan else if p then some (.inf false) else if n then some (.inf true) else none

/-- The least exponent of a list of finite values. -/
def minExp (vs : List Val) : Int :=
  vs.foldl (fun a v => match v with | .fin _ m e => if m = 0 then a else min a e | _ => a) 0

/-- The exact sum of finite values over 2^base. -/
def sumOver (base : Int) (vs : List Val) : Int :=
  vs.foldl (fun a v => match v with | .fin n m e => if m = 0 then a else a + scaledInt n m e base | _ => a) 0

/-- The exact sum of values, signed by R40 when zero and not round-down (02 R58). -/
def exactSum (vs : List Val) : Val :=
  match specialSum vs with
  | some v => v
  | none =>
    let b := minExp vs
    let x := sumOver b vs
    if x = 0 then .fin (allNegZero vs) 0 0 else Val.ofInt x b

/-- The exact sum of an accumulator and products: an accumulator of -0 stays when every product is zero (02 R58). -/
def accSum (acc : Val) (ps : List Val) : Val :=
  match acc with
  | .fin true 0 _ => if allZero ps then .fin true 0 0 else exactSum (acc :: ps)
  | _ => exactSum (acc :: ps)
where
  /-- Whether every value is a zero. -/
  allZero (ps : List Val) : Bool := ps.all fun v => match v with | .fin _ m _ => m == 0 | _ => false

/-- NarrowSum with an FP32 accumulator (02 R56, R58): the bits. -/
def narrowSum (acc : Val) (ps : List Val) : Nat := fp32.round .rn (accSum acc ps)

/-- A product truncated toward zero to a multiple of 2^w, and whether it changed (02 R57). -/
def truncAt (w : Int) (v : Val) : Val × Bool :=
  match v with
  | .fin n m e =>
    if e ≥ w then (v, false)
    else
      let sh := (w - e).toNat
      if sh > Nat.log2 m + 1 then (.fin n 0 0, m != 0) else (.fin n (m / 2 ^ sh) w, m % 2 ^ sh != 0)
  | v => (v, false)

/-- A finite value lies exactly halfway between two neighbours of a format (02 R57). -/
def Fp.isTie (p : Fp) (m : Nat) (e : Int) : Bool :=
  m != 0 && (Mag.split { m := m, e := e } (max ((Nat.log2 m : Int) + e - p.fb) p.qmin)).2.1 == 2

/-- WindowSum (02 R57, R58): the bits of the format. -/
def windowSum (p : Fp) (acc : Val) (ps : List Val) : Nat :=
  match specialSum (acc :: ps) with
  | some v => p.round .rn v
  | none =>
    match ps.filterMap Val.log2 with
    | [] => p.round .rn (accSum acc ps)
    | l :: ls =>
      let w := ls.foldl max l - 183
      let ts := ps.map (truncAt w)
      let sticky := ts.any (·.2)
      match exactSum (acc :: ts.map (·.1)) with
      | .fin n m e =>
        if sticky && m == 0 then 0
        else if sticky && p.isTie m e then p.roundFin .ra n { m := m, e := e }
        else p.round .rn (.fin n m e)
      | v => p.round .rn v

/-- Terms of the non-adjacent form of a significand (02 R55). -/
def nafTerms : Nat → Nat → Nat
  | 0, _ => 0
  | fuel + 1, n =>
    if n = 0 then 0
    else if n % 4 = 1 then 1 + nafTerms fuel (n / 2)
    else if n % 4 = 3 then 1 + nafTerms fuel ((n + 1) / 2)
    else nafTerms fuel (n / 2)

/-- The number of recoded terms of a significand or integer magnitude (02 R55). -/
def termCount (n : Nat) : Nat := nafTerms 66 n

/-- Packed elements narrower than a byte: element `i` of `w` bits in a byte list (02 R35). -/
def packedElem (w i : Nat) (bs : List Byte) : Nat := bitsAt (leNat8 bs) (w * i) w
where
  /-- The little-endian number of a byte list. -/
  leNat8 : List Byte → Nat
    | [] => 0
    | b :: r => b.toNat + 256 * leNat8 r

end Sys2Proof.Machine
end

