-- ==== Sys2Proof/Machine/Elem.lean ====
section
/-! DEFINITION. Elements of every storage format: width, packing, decoding and conversion (02 R33 to R54), shared by
tiles and copy commands. -/

namespace Sys2Proof.Machine

open Sys2Proof

/-- Bits of an element by format code (02 R33). -/
def fmtBits : Nat → Nat
  | 0x01 | 0x02 | 0x11 => 4 | 0x12 => 6 | 0x03 | 0x04 | 0x13 | 0x14 => 8 | 0x05 | 0x06 | 0x0B | 0x0C => 16
  | 0x07 | 0x08 | 0x0D => 32 | 0x10 => 128 | _ => 64

/-- A complex format code. -/
def isCplx (c : Nat) : Bool := c == 0x0F || c == 0x10
/-- A code that names a format of elements: not EMPTY, not E8M0, not reserved (02 R33). -/
def isElemFmt (c : Nat) : Bool := 1 ≤ c && c ≤ 0x13
/-- A real float code, the mini-floats included. -/
def isRealFloat (c : Nat) : Bool := isFloatFmt c || isMfFmt c

/-- A format with its format record (02 R41). -/
structure Fmt where
  code : Nat
  frec : Nat := 0
  deriving DecidableEq, Repr

/-- The float format of an element or of a complex element's parts. -/
def Fmt.fp (f : Fmt) : Fp :=
  if isMfFmt f.code then mfOf f.frec else if f.code = 0x0F then fp32 else if f.code = 0x10 then fp64 else fpOf f.code

/-- The values of an element: one, or the two parts of a complex element (02 R45, R53). -/
def Fmt.values (f : Fmt) (x : Nat) : List Val :=
  if isIntFmt f.code then [Val.ofInt (intDecode f.code x) 0]
  else if isCplx f.code then
    let h := fmtBits f.code / 2
    [f.fp.decode (x % 2 ^ h), f.fp.decode (x / 2 ^ h)]
  else [f.fp.decode x]

/-- An element from the bits of its parts. -/
def Fmt.join (f : Fmt) : List Nat → Nat
  | [] => 0
  | [x] => x
  | x :: y :: _ => x + 2 ^ (fmtBits f.code / 2) * y

/-- The exact integer of a finite value. -/
def Val.toInt : Val → Int
  | .fin n m e => let x : Int := (m * 2 ^ e.toNat / 2 ^ (-e).toNat : Nat); if n then -x else x
  | _ => 0

/-- Conversions that exist (02 R54). -/
def convOk (s d : Fmt) : Bool :=
  isElemFmt s.code && isElemFmt d.code && !(isCplx s.code && !isCplx d.code) && !(isIntFmt s.code && isCplx d.code)

/-- A value that a float format represents exactly. -/
def Fp.holds (p : Fp) (v : Val) : Bool :=
  match v, p.decode (p.round .rz v) with
  | .nan, _ => true
  | .inf a, .inf b => a == b
  | .fin n m e, .fin n' m' e' => Val.cmp (.fin n m e) (.fin n' m' e') == .eq
  | _, _ => false

/-- Some source value is not exactly representable in a float destination, decided over every code of a narrow source. -/
def losesSome (s : Fmt) (d : Fp) : Bool :=
  (List.range (2 ^ fmtBits s.code)).any fun x => (s.values x).any fun v => !d.holds v

/-- A conversion that is narrowing, in which SR is allowed (02 R48, R54, 05 R123). Beyond the pairs that the rules name, it is one
that can lose a source value, and never one to an integer (DESIGN CHOICE, log 129). -/
def narrowing (s d : Fmt) : Bool :=
  if isIntFmt d.code then false
  else if isIntFmt s.code then
    if isMfFmt d.code then decide (fmtBits s.code > 8) || losesSome s d.fp
    else decide (magBits s.code > sigBits d.code)
  else if isMfFmt s.code then losesSome s d.fp
  else if isMfFmt d.code then true
  else
    let part (c : Nat) : Nat := if c = 0x0F then 0x0D else if c = 0x10 then 0x0E else c
    cvNarrow (part s.code) (part d.code)

/-- The flush of R53: a result below the smallest normal becomes zero. -/
def flushed (p : Fp) (x : Nat) : Nat :=
  match p.decode x with
  | .fin n m k => if m != 0 && decide ((Nat.log2 m : Int) + k < 1 - p.bias) then p.withSign n 0 else x
  | _ => x

/-- The element of a destination format converted from values (02 R53, R54). `rm` gives the mode of each part. -/
def convert (s d : Fmt) (rm : Nat → Rm) (sat ftz : Bool) (vs : List Val) : Nat :=
  let v := vs.headD .nan
  if isIntFmt d.code then
    let x := if isIntFmt s.code then intEncode d.code sat v.toInt else floatToInt d.code (rm 0) v
    wrapNat (fmtBits d.code) x
  else if isCplx d.code then
    d.join [d.fp.roundSat (rm 0) sat v, d.fp.roundSat (rm 1) sat ((vs[1]?).getD (.fin false 0 0))]
  else
    let x := d.fp.roundSat (rm 0) sat v
    if ftz then flushed d.fp x else x

/-- A block of values quantised into a scaled MF format: the scale code and the elements (02 R47). -/
def quantise (d : Fmt) (rm : Nat → Rm) (ftz : Bool) (vs : List Val) : Nat × List Nat :=
  let code := blockScale d.fp vs
  (code, (List.range vs.length).map fun i =>
    let x := quantElem d.fp (rm i) code ((vs[i]?).getD .nan)
    if ftz then flushed d.fp x else x)

/-- The values of a scaled element (02 R46). -/
def Fmt.scaled (f : Fmt) (code : Option Nat) (x : Nat) : List Val :=
  match code with | some c => (f.values x).map (scaleElem c) | none => f.values x

/-- The elements `i` to `i + n - 1` of `w` bits of a packed run of bytes read as one number (02 R35). -/
def elemsAt (x w i n : Nat) : List Nat := (List.range n).map fun k => bitsAt x (w * (i + k)) w

/-- A number built from elements of `w` bits, first lowest. -/
def packElems (w : Nat) : List Nat → Nat
  | [] => 0
  | e :: r => e % 2 ^ w + 2 ^ w * packElems w r

/-- Replace the elements from `i` on in a packed number (02 R35). -/
def putElems (x w i : Nat) (es : List Nat) : Nat := putBits x (w * i) (w * es.length) (packElems w es)

/-- The swizzle of a scratchpad byte address (08 R163). -/
def swizzle (a z : Nat) : Nat := a ^^^ (a / 128 % 2 ^ z * 16)

end Sys2Proof.Machine
end

