-- ==== Sys2Proof/Machine/Operands.lean ====
section
/-! DEFINITION. The operand forms: immediates, literals and constant-bank words (03 R71, R72, 04 R88, 05 R107). -/

namespace Sys2Proof.Machine

open Sys2Proof

/-- The I64 immediate, sign-extended (03 R71). -/
def Ctx.k20 (c : Ctx) : Word := BitVec.ofInt 32 (signedOf 20 c.f.imm)
/-- The I64 immediate as FP32 bits: IMM and 12 zero bits (03 R71). -/
def Ctx.kf20 (c : Ctx) : Word := BitVec.ofNat 32 (c.f.imm * 4096)
/-- The I96 literal (03 R71). -/
def Ctx.lit (c : Ctx) : Word := BitVec.ofNat 32 c.f.imm

/-- A bank word at a byte offset that is a multiple of 4, with its poison (03 R72). -/
def bankWord (s : State) (core bank off : Nat) : Word × Bool :=
  (BitVec.ofNat 32 (mgetN (s.core core).banks (65536 * bank + off) 4),
    nmem (s.core core).bankPoison ((65536 * bank + off) / 4))

/-- DATA-POISON of a bank word (13 R308). -/
def bankPoisonTrap (bank off : Nat) : Trap := { cause := 0x10, detail := 4, addr := BitVec.ofNat 64 (65536 * bank + off) }

/-- The C64 constant: the bank word at 4 x WOFF, or DATA-POISON (03 R72, 13 R308). -/
def Ctx.k (c : Ctx) (s : State) : Except Trap Word :=
  let (w, bad) := bankWord s c.t.core c.f.bank (4 * c.f.imm)
  if bad then .error (bankPoisonTrap c.f.bank (4 * c.f.imm)) else .ok w

/-- The 64-bit C64 constant (03 R72). -/
def Ctx.k64 (c : Ctx) (s : State) : Except Trap DWord :=
  let (l, b0) := bankWord s c.t.core c.f.bank (4 * c.f.imm)
  let (h, b1) := bankWord s c.t.core c.f.bank (4 * c.f.imm + 4)
  if b0 then .error (bankPoisonTrap c.f.bank (4 * c.f.imm))
  else if b1 then .error (bankPoisonTrap c.f.bank (4 * c.f.imm + 4)) else .ok (pair64 l h)

/-- A C64 meaning that writes a 32-bit result of the constant. -/
def putK (g : Ctx → Word → Word) : Body := fun c s =>
  match c.k s with | .error t => .error t | .ok k => .ok (c.put (g c k) s)
/-- A C64 meaning that writes a 64-bit result of a 64-bit constant. -/
def putK64 (g : Ctx → DWord → DWord) : Body := fun c s =>
  match c.k64 s with | .error t => .error t | .ok k => .ok (c.putP (g c k) s)

end Sys2Proof.Machine
end

