-- ==== Sys2Proof/Machine/Sfu.lean ====
section
/-! DEFINITION. Division, roots and transcendentals of FP32, rounded once (05 R116, R117). The transcendental values
are formed in fixed point with 256 fraction bits and rounded to FP32 (log 16). -/

namespace Sys2Proof.Machine

open Sys2Proof

/-- Fraction bits of the fixed-point values. -/
def fixBits : Nat := 256

/-- The integer square root, bit by bit from bit `k`. -/
def isqrtFrom (x : Nat) : Nat → Nat → Nat
  | 0, r => if (r + 1) * (r + 1) ≤ x then r + 1 else r
  | k + 1, r => let t := r + 2 ^ (k + 1); isqrtFrom x k (if t * t ≤ x then t else r)

/-- floor of the square root. -/
def isqrt (x : Nat) : Nat := isqrtFrom x (Nat.log2 x / 2 + 1) 0

/-- The quotient of two finite nonzero magnitudes to well over FP32 precision. -/
def quotient (m1 : Nat) (e1 : Int) (m2 : Nat) (e2 : Int) : Mag :=
  let k := Nat.log2 m2 + 64
  let n := m1 * 2 ^ k
  { m := n / m2, e := e1 - e2 - k, st := n % m2 != 0 }

/-- FDIV (05 R116, R117). -/
def fdiv (rm : Rm) (a b : Val) : Nat :=
  match a, b with
  | .nan, _ => fp32.nanCode
  | _, .nan => fp32.nanCode
  | .inf _, .inf _ => fp32.nanCode
  | .inf x, .fin y _ _ => fp32.round rm (.inf (x != y))
  | .fin x _ _, .inf y => fp32.withSign (x != y) 0
  | .fin x m e, .fin y n f =>
    if n = 0 then (if m = 0 then fp32.nanCode else fp32.round rm (.inf (x != y)))
    else if m = 0 then fp32.withSign (x != y) 0
    else fp32.roundFin rm (x != y) (quotient m e n f)

/-- FRCP (05 R116, R117). -/
def frcp (rm : Rm) (a : Val) : Nat := fdiv rm (.fin false 1 0) a

/-- The square root of a positive magnitude. -/
def sqrtMag (m : Nat) (e : Int) : Mag :=
  let (m, e) := if e % 2 = 0 then (m, e) else (2 * m, e - 1)
  let x := m * 2 ^ 128
  let r := isqrt x
  { m := r, e := e / 2 - 64, st := r * r != x }

/-- FSQRT (05 R116, R117). -/
def fsqrt (rm : Rm) (a : Val) : Nat :=
  match a with
  | .nan => fp32.nanCode
  | .inf n => if n then fp32.nanCode else fp32.infCode
  | .fin n m e => if m = 0 then fp32.withSign n 0 else if n then fp32.nanCode else fp32.roundFin rm false (sqrtMag m e)

/-- FRSQ (05 R116, R117). -/
def frsq (a : Val) : Nat :=
  match a with
  | .nan => fp32.nanCode
  | .inf n => if n then fp32.nanCode else 0
  | .fin n m e =>
    if m = 0 then fp32.withSign n fp32.infCode
    else if n then fp32.nanCode
    else
      let (m, e) := if e % 2 = 0 then (m, e) else (2 * m, e - 1)
      let r := isqrt (2 ^ 256 / m)
      fp32.roundFin .rn false { m := r, e := -(e / 2) - 128, st := r * r * m != 2 ^ 256 }

/-- Terms of the series of exp: the sum of y^j / j! in fixed point, for j from `j` on. -/
def expSeries (y : Nat) : Nat → Nat → Nat → Nat → Nat
  | 0, _, _, acc => acc
  | fuel + 1, j, t, acc =>
    let t := t * y / (2 ^ fixBits * (j + 1))
    expSeries y fuel (j + 1) t (acc + t)

/-- The sum of z^(2j+1) / (2j+1) in fixed point. -/
def atanhSeries (z2 : Nat) : Nat → Nat → Nat → Nat → Nat
  | 0, _, _, acc => acc
  | fuel + 1, j, t, acc => atanhSeries z2 fuel (j + 1) (t * z2 / 2 ^ fixBits) (acc + t / (2 * j + 1))

/-- Twice the inverse hyperbolic tangent of z: ln((1 + z) / (1 - z)). -/
def lnRatio (z : Nat) : Nat := 2 * atanhSeries (z * z / 2 ^ fixBits) 120 0 z 0

/-- ln 2 in fixed point. -/
def ln2Fix : Nat := lnRatio (2 ^ fixBits / 3)

/-- The alternating sum of the inverse tangent of 1/n in fixed point. -/
def atanSeries (n2 : Nat) : Nat → Nat → Nat → Int → Int
  | 0, _, _, acc => acc
  | fuel + 1, j, t, acc =>
    let d : Int := (t / (2 * j + 1) : Nat)
    atanSeries n2 fuel (j + 1) (t / n2) (if j % 2 = 0 then acc + d else acc - d)

/-- pi in fixed point, by Machin's formula. -/
def piFix : Nat := (16 * atanSeries 25 120 0 (2 ^ fixBits / 5) 0 - 4 * atanSeries 57121 60 0 (2 ^ fixBits / 239) 0).toNat

/-- Terms of the sine series in fixed point. -/
def sinSeries (y2 : Nat) : Nat → Nat → Nat → Int → Int
  | 0, _, _, acc => acc
  | fuel + 1, j, t, acc =>
    let acc := if j % 2 = 0 then acc + t else acc - t
    sinSeries y2 fuel (j + 1) (t * y2 / (2 ^ fixBits * ((2 * j + 2) * (2 * j + 3)))) acc

/-- sin(pi x t) for a fixed-point t in (0, 1/2). -/
def sinPi (t : Nat) : Nat :=
  let y := piFix * t / 2 ^ fixBits
  (sinSeries (y * y / 2 ^ fixBits) 60 0 y 0).toNat

/-- A finite magnitude in fixed point. -/
def toFix (m : Nat) (e : Int) : Nat := if e + fixBits ≥ 0 then m * 2 ^ (e + fixBits).toNat else 0

/-- FEXP2 (05 R116, R117). -/
def fexp2 (a : Val) : Nat :=
  match a with
  | .nan => fp32.nanCode
  | .inf n => if n then 0 else fp32.infCode
  | .fin n m e =>
    if m = 0 then 0x3F800000
    else if (Nat.log2 m : Int) + e ≥ 8 then (if n then 0 else fp32.infCode)
    else
      let x : Int := toFix m e
      let x := if n then -x else x
      let i := x / (2 ^ fixBits : Nat)
      let f := (x % (2 ^ fixBits : Nat)).toNat
      if f = 0 then fp32.roundFin .rn false { m := 1, e := i }
      else
        let y := f * ln2Fix / 2 ^ fixBits
        fp32.roundFin .rn false { m := expSeries y 80 0 (2 ^ fixBits) (2 ^ fixBits), e := i - fixBits, st := true }

/-- FLOG2 (05 R116, R117). -/
def flog2 (a : Val) : Nat :=
  match a with
  | .nan => fp32.nanCode
  | .inf n => if n then fp32.nanCode else fp32.infCode
  | .fin n m e =>
    if m = 0 then fp32.withSign true fp32.infCode
    else if n then fp32.nanCode
    else
      let k := Nat.log2 m
      let i := (k : Int) + e
      if m = 2 ^ k then fp32.round .rn (Val.ofInt i 0)
      else
        let x := m * 2 ^ (fixBits - k)
        let z := (x - 2 ^ fixBits) * 2 ^ fixBits / (x + 2 ^ fixBits)
        let l : Int := i * (2 ^ fixBits : Nat) + (lnRatio z * 2 ^ fixBits / ln2Fix : Nat)
        fp32.roundFin .rn (decide (l < 0)) { m := l.natAbs, e := -(fixBits : Int), st := true }

/-- sin(pi x t) for a fixed-point t in [0, 2): sign and magnitude, exact at multiples of one half. -/
def sinTurn (t : Nat) : Bool × Mag :=
  let one := 2 ^ fixBits
  let neg := decide (t ≥ one)
  let t := t % one
  let t := if 2 * t > one then one - t else t
  if t = 0 then (neg, { m := 0, e := 0 })
  else if 2 * t = one then (neg, { m := 1, e := 0 })
  else (neg, { m := sinPi t, e := -(fixBits : Int), st := true })

/-- FSIN (05 R116, R117). -/
def fsin (a : Val) : Nat :=
  match a with
  | .nan => fp32.nanCode
  | .inf _ => fp32.nanCode
  | .fin n m e =>
    let (g, x) := sinTurn (toFix m e % (2 * 2 ^ fixBits))
    if x.m = 0 ∧ !x.st then fp32.withSign n 0 else fp32.roundFin .rn (n != g) x

/-- FCOS (05 R116, R117). -/
def fcos (a : Val) : Nat :=
  match a with
  | .nan => fp32.nanCode
  | .inf _ => fp32.nanCode
  | .fin _ m e =>
    let (g, x) := sinTurn ((toFix m e + 2 ^ (fixBits - 1)) % (2 * 2 ^ fixBits))
    if x.m = 0 ∧ !x.st then 0 else fp32.roundFin .rn g x

end Sys2Proof.Machine
end

