-- ==== Sys2Proof/Machine/Float.lean ====
section
/-! DEFINITION. The meanings of the floating-point and conversion instructions (05 R104 to R127). -/

namespace Sys2Proof.Machine

open Sys2Proof

/-- An operand under ABS and then NEG on its sign bit of width `w` (03 R75, 05 R106). -/
def absNeg (w : Nat) (abs neg : Bool) (x : Nat) : Nat :=
  let x := if abs then x % 2 ^ (w - 1) else x
  if neg then (x + 2 ^ (w - 1)) % 2 ^ w else x

/-- VA, VB and VC under their modifiers at the places of 03 R75. -/
def Ctx.ma (c : Ctx) (w x : Nat) : Nat := absNeg w (c.m 4) (c.m 3) x
def Ctx.mb (c : Ctx) (w x : Nat) : Nat := absNeg w (c.m 6) (c.m 5) x
def Ctx.mc (c : Ctx) (w x : Nat) : Nat := absNeg w (c.m 11) (c.m 10) x
/-- A constant under NEGB. -/
def Ctx.mkon (c : Ctx) (w x : Nat) : Nat := absNeg w false (c.m 5) x
/-- The rounding mode of an arithmetic instruction. -/
def Ctx.rm (c : Ctx) : Rm := rmOf (bitsAt c.f.mod 0 3)
/-- FP32 operands. -/
def Ctx.fa (c : Ctx) : Val := fp32.decode (c.ma 32 c.va.toNat)
def Ctx.fb (c : Ctx) : Val := fp32.decode (c.mb 32 c.vb.toNat)
def Ctx.fc (c : Ctx) : Val := fp32.decode (c.mc 32 c.vc.toNat)
def Ctx.fk (c : Ctx) (k : Word) : Val := fp32.decode (c.mkon 32 k.toNat)
/-- FP64 operands. -/
def Ctx.da (c : Ctx) : Val := fp64.decode (c.ma 64 (c.p c.f.va).toNat)
def Ctx.db (c : Ctx) : Val := fp64.decode (c.mb 64 (c.p c.f.vb).toNat)
def Ctx.dc (c : Ctx) : Val := fp64.decode (c.mc 64 (c.p c.f.vc).toNat)
def Ctx.dk (c : Ctx) (k : DWord) : Val := fp64.decode (c.mkon 64 k.toNat)

/-- The FP32 bits of a rounded value. -/
def out32 (rm : Rm) (v : Val) : Word := BitVec.ofNat 32 (fp32.round rm v)
/-- The FP64 bits of a rounded value. -/
def out64 (rm : Rm) (v : Val) : DWord := BitVec.ofNat 64 (fp64.round rm v)
/-- a + b under a mode (05 R109). -/
def vadd (rm : Rm) (a b : Val) : Val := Val.add (rm == .rd) a b
/-- a x b + c, rounded once (05 R110). -/
def vfma (rm : Rm) (a b k : Val) : Val := Val.add (rm == .rd) (Val.mul a b) k

/-- FADD, A64 (05 R109). -/
def execFaddA64 (f : FA64) (s : State) : Host.Outcome State Fault Refusal :=
  issueEach (.faddA64 f) (put32 fun c => out32 c.rm (vadd c.rm c.fa c.fb)) s
/-- FADD, I64, rounding RN (05 R107, R109). -/
def execFaddI64 (f : FI64) (s : State) : Host.Outcome State Fault Refusal :=
  issueEach (.faddI64 f) (put32 fun c => out32 .rn (vadd .rn (fp32.decode c.va.toNat) (fp32.decode c.kf20.toNat))) s
/-- FADD, C64 (05 R107, R109). -/
def execFaddC64 (f : FC64) (s : State) : Host.Outcome State Fault Refusal :=
  issueEach (.faddC64 f) (putK fun c k => out32 c.rm (vadd c.rm c.fa (c.fk k))) s
/-- FADD, I96, rounding RN (05 R107, R109). -/
def execFaddI96 (f : FI96) (s : State) : Host.Outcome State Fault Refusal :=
  issueEach (.faddI96 f) (put32 fun c => out32 .rn (vadd .rn (fp32.decode c.va.toNat) (fp32.decode c.lit.toNat))) s
/-- FSUB (05 R109). -/
def execFsub (f : FA64) (s : State) : Host.Outcome State Fault Refusal :=
  issueEach (.fsub f) (put32 fun c => out32 c.rm (vadd c.rm c.fa c.fb.neg)) s
/-- FMUL, A64 (05 R109). -/
def execFmulA64 (f : FA64) (s : State) : Host.Outcome State Fault Refusal :=
  issueEach (.fmulA64 f) (put32 fun c => out32 c.rm (Val.mul c.fa c.fb)) s
/-- FMUL, I64 (05 R107, R109). -/
def execFmulI64 (f : FI64) (s : State) : Host.Outcome State Fault Refusal :=
  issueEach (.fmulI64 f) (put32 fun c => out32 .rn (Val.mul (fp32.decode c.va.toNat) (fp32.decode c.kf20.toNat))) s
/-- FMUL, C64 (05 R107, R109). -/
def execFmulC64 (f : FC64) (s : State) : Host.Outcome State Fault Refusal :=
  issueEach (.fmulC64 f) (putK fun c k => out32 c.rm (Val.mul c.fa (c.fk k))) s
/-- FMUL, I96 (05 R107, R109). -/
def execFmulI96 (f : FI96) (s : State) : Host.Outcome State Fault Refusal :=
  issueEach (.fmulI96 f) (put32 fun c => out32 .rn (Val.mul (fp32.decode c.va.toNat) (fp32.decode c.lit.toNat))) s
/-- FFMA, A96 (05 R110). -/
def execFfmaA96 (f : FA96) (s : State) : Host.Outcome State Fault Refusal :=
  issueEach (.ffmaA96 f) (put32 fun c => out32 c.rm (vfma c.rm c.fa c.fb c.fc)) s
/-- FFMA, I64, tied: VD x VA + K (05 R107, R110). -/
def execFfmaI64 (f : FI64) (s : State) : Host.Outcome State Fault Refusal :=
  issueEach (.ffmaI64 f)
    (put32 fun c => out32 .rn (vfma .rn (fp32.decode c.vd.toNat) (fp32.decode c.va.toNat) (fp32.decode c.kf20.toNat))) s
/-- FFMA, C64, tied: VD x VA + K (05 R107, R110). -/
def execFfmaC64 (f : FC64) (s : State) : Host.Outcome State Fault Refusal :=
  issueEach (.ffmaC64 f) (putK fun c k => out32 c.rm (vfma c.rm (fp32.decode c.vd.toNat) c.fa (c.fk k))) s
/-- FFMA, I96: VA x VB + K (05 R107, R110). -/
def execFfmaI96 (f : FI96) (s : State) : Host.Outcome State Fault Refusal :=
  issueEach (.ffmaI96 f)
    (put32 fun c => out32 .rn (vfma .rn (fp32.decode c.va.toNat) (fp32.decode c.vb.toNat) (fp32.decode c.lit.toNat))) s
/-- DADD, A64 (05 R109). -/
def execDaddA64 (f : FA64) (s : State) : Host.Outcome State Fault Refusal :=
  issueEach (.daddA64 f) (put64 fun c => out64 c.rm (vadd c.rm c.da c.db)) s
/-- DADD, C64 (05 R107, R109). -/
def execDaddC64 (f : FC64) (s : State) : Host.Outcome State Fault Refusal :=
  issueEach (.daddC64 f) (putK64 fun c k => out64 c.rm (vadd c.rm c.da (c.dk k))) s
/-- DSUB (05 R109). -/
def execDsub (f : FA64) (s : State) : Host.Outcome State Fault Refusal :=
  issueEach (.dsub f) (put64 fun c => out64 c.rm (vadd c.rm c.da c.db.neg)) s
/-- DMUL, A64 (05 R109). -/
def execDmulA64 (f : FA64) (s : State) : Host.Outcome State Fault Refusal :=
  issueEach (.dmulA64 f) (put64 fun c => out64 c.rm (Val.mul c.da c.db)) s
/-- DMUL, C64 (05 R107, R109). -/
def execDmulC64 (f : FC64) (s : State) : Host.Outcome State Fault Refusal :=
  issueEach (.dmulC64 f) (putK64 fun c k => out64 c.rm (Val.mul c.da (c.dk k))) s
/-- DFMA, A96 (05 R110). -/
def execDfmaA96 (f : FA96) (s : State) : Host.Outcome State Fault Refusal :=
  issueEach (.dfmaA96 f) (put64 fun c => out64 c.rm (vfma c.rm c.da c.db c.dc)) s
/-- DFMA, C64, tied (05 R107, R110). -/
def execDfmaC64 (f : FC64) (s : State) : Host.Outcome State Fault Refusal :=
  issueEach (.dfmaC64 f) (putK64 fun c k => out64 c.rm (vfma c.rm (fp64.decode (c.p c.f.vd).toNat) c.da (c.dk k))) s

/-- The order of minimum and maximum, in which -0 lies below +0 (05 R111). -/
def belowMin (a b : Val) : Bool :=
  match a.cmp b with
  | .lt => true
  | .gt => false
  | .eq => match a, b with | .fin x _ _, .fin y _ _ => x && !y | _, _ => false

/-- FMIN and FMAX on raw bits (05 R111): the chosen operand's own bits, the other operand of a NaN, CanonNaN of two. -/
def minMax (p : Fp) (max : Bool) (a b : Nat) : Nat :=
  let x := p.decode a
  let y := p.decode b
  if x == .nan then (if y == .nan then p.nanCode else b)
  else if y == .nan then a
  else if belowMin y x then (if max then a else b) else if belowMin x y then (if max then b else a) else a

/-- FMIN, A64 (05 R111). -/
def execFminA64 (f : FA64) (s : State) : Host.Outcome State Fault Refusal :=
  issueEach (.fminA64 f) (put32 fun c => BitVec.ofNat 32 (minMax fp32 false (c.ma 32 c.va.toNat) (c.mb 32 c.vb.toNat))) s
/-- FMIN, I64 (05 R111). -/
def execFminI64 (f : FI64) (s : State) : Host.Outcome State Fault Refusal :=
  issueEach (.fminI64 f) (put32 fun c => BitVec.ofNat 32 (minMax fp32 false c.va.toNat c.kf20.toNat)) s
/-- FMIN, C64 (05 R111). -/
def execFminC64 (f : FC64) (s : State) : Host.Outcome State Fault Refusal :=
  issueEach (.fminC64 f) (putK fun c k => BitVec.ofNat 32 (minMax fp32 false (c.ma 32 c.va.toNat) (c.mkon 32 k.toNat))) s
/-- FMAX, A64 (05 R111). -/
def execFmaxA64 (f : FA64) (s : State) : Host.Outcome State Fault Refusal :=
  issueEach (.fmaxA64 f) (put32 fun c => BitVec.ofNat 32 (minMax fp32 true (c.ma 32 c.va.toNat) (c.mb 32 c.vb.toNat))) s
/-- FMAX, I64 (05 R111). -/
def execFmaxI64 (f : FI64) (s : State) : Host.Outcome State Fault Refusal :=
  issueEach (.fmaxI64 f) (put32 fun c => BitVec.ofNat 32 (minMax fp32 true c.va.toNat c.kf20.toNat)) s
/-- FMAX, C64 (05 R111). -/
def execFmaxC64 (f : FC64) (s : State) : Host.Outcome State Fault Refusal :=
  issueEach (.fmaxC64 f) (putK fun c k => BitVec.ofNat 32 (minMax fp32 true (c.ma 32 c.va.toNat) (c.mkon 32 k.toNat))) s
/-- DMIN (05 R111). -/
def execDmin (f : FA64) (s : State) : Host.Outcome State Fault Refusal :=
  issueEach (.dmin f) (put64 fun c =>
    BitVec.ofNat 64 (minMax fp64 false (c.ma 64 (c.p c.f.va).toNat) (c.mb 64 (c.p c.f.vb).toNat))) s
/-- DMAX (05 R111). -/
def execDmax (f : FA64) (s : State) : Host.Outcome State Fault Refusal :=
  issueEach (.dmax f) (put64 fun c =>
    BitVec.ofNat 64 (minMax fp64 true (c.ma 64 (c.p c.f.va).toNat) (c.mb 64 (c.p c.f.vb).toNat))) s

/-- The float conditions (05 R112). -/
def cmpFloat (cc : Nat) (a b : Val) : Bool :=
  if a == .nan || b == .nan then cc == 1 || cc == 6
  else
    let o := a.cmp b
    match cc with
    | 0 => o == .eq | 1 => o != .eq | 2 => o == .lt | 3 => o != .gt | 4 => o == .gt | 5 => o != .lt | 6 => false | _ => true

/-- FCMP, A64 (05 R112). -/
def execFcmpA64 (f : FA64) (s : State) : Host.Outcome State Fault Refusal :=
  issueEach (.fcmpA64 f) (put32 fun c => bool32 (cmpFloat (bitsAt c.f.mod 0 3) c.fa c.fb)) s
/-- FCMP, C64 (05 R112). -/
def execFcmpC64 (f : FC64) (s : State) : Host.Outcome State Fault Refusal :=
  issueEach (.fcmpC64 f) (putK fun c k => bool32 (cmpFloat (bitsAt c.f.mod 0 3) c.fa (c.fk k))) s
/-- DCMP (05 R112). -/
def execDcmp (f : FA64) (s : State) : Host.Outcome State Fault Refusal :=
  issueEach (.dcmp f) (put32 fun c => bool32 (cmpFloat (bitsAt c.f.mod 0 3) c.da c.db)) s

/-- The class mask of raw bits (05 R113). -/
def classify (p : Fp) (x : Nat) : Nat :=
  let code := x % 2 ^ p.magw
  let neg := bitAt x p.magw
  if code > p.infCode then (if bitAt code (p.fb - 1) then 2 ^ 9 else 2 ^ 8)
  else if code = p.infCode then (if neg then 1 else 2 ^ 7)
  else if code = 0 then (if neg then 2 ^ 3 else 2 ^ 4)
  else if code < 2 ^ p.fb then (if neg then 2 ^ 2 else 2 ^ 5)
  else if neg then 2 ^ 1 else 2 ^ 6

/-- FCLASS (05 R113). -/
def execFclass (f : FA64) (s : State) : Host.Outcome State Fault Refusal :=
  issueEach (.fclass f) (put32 fun c => BitVec.ofNat 32 (classify fp32 c.va.toNat)) s
/-- DCLASS (05 R113). -/
def execDclass (f : FA64) (s : State) : Host.Outcome State Fault Refusal :=
  issueEach (.dclass f) (put32 fun c => BitVec.ofNat 32 (classify fp64 (c.p c.f.va).toNat)) s

/-- A value rounded to an integral value of its format (05 R114). -/
def integral (rm : Rm) (v : Val) : Val :=
  match v with
  | .fin n m e => .fin n (roundInt rm n m e) 0
  | v => v
/-- FRND (05 R114). -/
def execFrnd (f : FA64) (s : State) : Host.Outcome State Fault Refusal :=
  issueEach (.frnd f) (put32 fun c => out32 .rn (integral c.rm c.fa)) s
/-- DRND (05 R114). -/
def execDrnd (f : FA64) (s : State) : Host.Outcome State Fault Refusal :=
  issueEach (.drnd f) (put64 fun c => out64 .rn (integral c.rm c.da)) s
/-- FSCALE (05 R115). -/
def execFscale (f : FA64) (s : State) : Host.Outcome State Fault Refusal :=
  issueEach (.fscale f) (put32 fun c => out32 c.rm (c.fa.scale c.vb.toInt)) s
/-- DSCALE (05 R115). -/
def execDscale (f : FA64) (s : State) : Host.Outcome State Fault Refusal :=
  issueEach (.dscale f) (put64 fun c => out64 c.rm (c.da.scale c.vb.toInt)) s

/-- FRCP (05 R116). -/
def execFrcp (f : FA64) (s : State) : Host.Outcome State Fault Refusal :=
  issueEach (.frcp f) (put32 fun c => BitVec.ofNat 32 (frcp c.rm c.fa)) s
/-- FRSQ (05 R116). -/
def execFrsq (f : FA64) (s : State) : Host.Outcome State Fault Refusal :=
  issueEach (.frsq f) (put32 fun c => BitVec.ofNat 32 (frsq c.fa)) s
/-- FSQRT (05 R116). -/
def execFsqrt (f : FA64) (s : State) : Host.Outcome State Fault Refusal :=
  issueEach (.fsqrt f) (put32 fun c => BitVec.ofNat 32 (fsqrt c.rm c.fa)) s
/-- FDIV (05 R116). -/
def execFdiv (f : FA64) (s : State) : Host.Outcome State Fault Refusal :=
  issueEach (.fdiv f) (put32 fun c => BitVec.ofNat 32 (fdiv c.rm c.fa c.fb)) s
/-- FEXP2 (05 R116). -/
def execFexp2 (f : FA64) (s : State) : Host.Outcome State Fault Refusal :=
  issueEach (.fexp2 f) (put32 fun c => BitVec.ofNat 32 (fexp2 c.fa)) s
/-- FLOG2 (05 R116). -/
def execFlog2 (f : FA64) (s : State) : Host.Outcome State Fault Refusal :=
  issueEach (.flog2 f) (put32 fun c => BitVec.ofNat 32 (flog2 c.fa)) s
/-- FSIN (05 R116). -/
def execFsin (f : FA64) (s : State) : Host.Outcome State Fault Refusal :=
  issueEach (.fsin f) (put32 fun c => BitVec.ofNat 32 (fsin c.fa)) s
/-- FCOS (05 R116). -/
def execFcos (f : FA64) (s : State) : Host.Outcome State Fault Refusal :=
  issueEach (.fcos f) (put32 fun c => BitVec.ofNat 32 (fcos c.fa)) s

/-- The element format of packed arithmetic (05 R106). -/
def Ctx.hp (c : Ctx) : Fp := if c.m 9 then bf16 else fp16
/-- Element `e` of a packed operand (05 R105). -/
def half (x : Word) (e : Nat) : Nat := bitsAt x.toNat (16 * e) 16
/-- Element `e` of VA, VB and VC under their modifiers (05 R119). -/
def Ctx.ha (c : Ctx) (e : Nat) : Nat := c.ma 16 (half c.va e)
def Ctx.hb (c : Ctx) (e : Nat) : Nat := c.mb 16 (half c.vb e)
def Ctx.hc (c : Ctx) (e : Nat) : Nat := c.mc 16 (half c.vc e)
/-- Two 16-bit elements in a register. -/
def pack2 (g : Nat → Nat) : Word := BitVec.ofNat 32 (g 0 + 2 ^ 16 * g 1)

/-- HADD2 (05 R119). -/
def execHadd2 (f : FA96) (s : State) : Host.Outcome State Fault Refusal :=
  issueEach (.hadd2 f)
    (put32 fun c => pack2 fun e => c.hp.round c.rm (vadd c.rm (c.hp.decode (c.ha e)) (c.hp.decode (c.hb e)))) s
/-- HMUL2 (05 R119). -/
def execHmul2 (f : FA96) (s : State) : Host.Outcome State Fault Refusal :=
  issueEach (.hmul2 f)
    (put32 fun c => pack2 fun e => c.hp.round c.rm (Val.mul (c.hp.decode (c.ha e)) (c.hp.decode (c.hb e)))) s
/-- HFMA2 (05 R119). -/
def execHfma2 (f : FA96) (s : State) : Host.Outcome State Fault Refusal :=
  issueEach (.hfma2 f) (put32 fun c => pack2 fun e =>
    c.hp.round c.rm (vfma c.rm (c.hp.decode (c.ha e)) (c.hp.decode (c.hb e)) (c.hp.decode (c.hc e)))) s
/-- HMIN2 (05 R119). -/
def execHmin2 (f : FA96) (s : State) : Host.Outcome State Fault Refusal :=
  issueEach (.hmin2 f) (put32 fun c => pack2 fun e => minMax c.hp false (c.ha e) (c.hb e)) s
/-- HMAX2 (05 R119). -/
def execHmax2 (f : FA96) (s : State) : Host.Outcome State Fault Refusal :=
  issueEach (.hmax2 f) (put32 fun c => pack2 fun e => minMax c.hp true (c.ha e) (c.hb e)) s
/-- HCMP2 (05 R119). -/
def execHcmp2 (f : FA96) (s : State) : Host.Outcome State Fault Refusal :=
  issueEach (.hcmp2 f) (put32 fun c => pack2 fun e =>
    b2n (cmpFloat (bitsAt c.f.mod 0 3) (c.hp.decode (c.ha e)) (c.hp.decode (c.hb e)))) s
/-- HDOT2: VC + a0 x b0 + a1 x b1, rounded once (05 R120, 02 R58). -/
def execHdot2 (f : FA96) (s : State) : Host.Outcome State Fault Refusal :=
  issueEach (.hdot2 f) (put32 fun c =>
    let prod (e : Nat) : Val := Val.mul (c.hp.decode (half c.va e)) (c.hp.decode (half c.vb e))
    let vs := [fp32.decode c.vc.toNat, prod 0, prod 1]
    let v := match accSum (fp32.decode c.vc.toNat) [prod 0, prod 1] with | .fin n 0 e => .fin (n || (c.rm == .rd && !allPosZero vs)) 0 e | v => v
    out32 c.rm v) s
where
  /-- Whether every value is a zero of positive sign. -/
  allPosZero (vs : List Val) : Bool := vs.all fun v => match v with | .fin n m _ => !n && m == 0 | _ => false

/-- The source value of a float conversion (05 R105, R123). -/
def Ctx.cvtIn (c : Ctx) (fmt : Nat) : Nat :=
  if fmt == 0x0E then (c.p c.f.va).toNat else if fmt == 0x0D then c.va.toNat else c.va.toNat % 2 ^ 16
/-- The rounding mode of a conversion, with SR's hash of the VB seed and the VC coordinate (05 R124). -/
def Ctx.cvtRm (c : Ctx) : Rm :=
  if cvRm c.f = 5 then .sr (srHash c.vb.toNat [c.vc.toNat]) else rmOf (cvRm c.f)
/-- A conversion result in VD or its pair. -/
def Ctx.cvtPut (c : Ctx) (fmt v : Nat) (s : State) : State :=
  if isWideFmt fmt then c.putP (BitVec.ofNat 64 v) s else c.put (BitVec.ofNat 32 v) s

/-- FCVT (05 R123): equal formats return the value unchanged but for NaN and SAT. -/
def execFcvt (f : FA96) (s : State) : Host.Outcome State Fault Refusal :=
  issueEach (.fcvt f) (fun c s =>
    let src := fpOf (cvSrc c.f)
    let dst := fpOf (cvDst c.f)
    .ok (c.cvtPut (cvDst c.f) (dst.roundSat c.cvtRm (cvSat c.f) (src.decode (c.cvtIn (cvSrc c.f)))) s)) s
/-- F2I (05 R123, 02 R54). -/
def execF2i (f : FA96) (s : State) : Host.Outcome State Fault Refusal :=
  issueEach (.f2i f) (fun c s =>
    let x := floatToInt (cvDst c.f) (rmOf (cvRm c.f)) ((fpOf (cvSrc c.f)).decode (c.cvtIn (cvSrc c.f)))
    .ok (c.cvtPut (cvDst c.f) (wrapNat 64 x) s)) s
/-- I2F (05 R123, 02 R54). -/
def execI2f (f : FA96) (s : State) : Host.Outcome State Fault Refusal :=
  issueEach (.i2f f) (fun c s =>
    let x := intDecode (cvSrc c.f) (if isWideFmt (cvSrc c.f) then (c.p c.f.va).toNat else c.va.toNat)
    .ok (c.cvtPut (cvDst c.f) ((fpOf (cvDst c.f)).roundSat c.cvtRm (cvSat c.f) (Val.ofInt x 0)) s)) s

/-- FORMAT-TAG of an invalid record (05 R127). -/
def recTrap (r : Word) : Trap := { cause := 7, detail := 3, addr := r.setWidth 64 }

/-- One element of MFPACK (05 R125). -/
def mfPackElem (p : Fp) (rm : Rm) (sat ftz : Bool) (scale x : Nat) : Nat :=
  if scale = 255 then p.nanCode
  else
    let e := p.roundSat rm sat ((fp32.decode x).scale (127 - (scale : Int)))
    match ftz, p.decode e with
    | true, .fin n m k =>
      if m != 0 && decide ((Nat.log2 m : Int) + k < 1 - p.bias) then p.withSign n 0 else e
    | _, _ => e

/-- MFPACK (05 R125, R127). -/
def execMfpack (f : FA96) (s : State) : Host.Outcome State Fault Refusal :=
  issueEach (.mfpack f) (fun c s =>
    let code := cvDst c.f
    if !recValid code c.vb.toNat then .error (recTrap c.vb)
    else
      let p := mfOf c.vb.toNat
      let w := mfWidth code
      let rm (i : Nat) : Rm :=
        if cvRm c.f = 5 then .sr (srHash (c.r (c.f.vc + 1)).toNat [c.vc.toNat / 256, i]) else rmOf (cvRm c.f)
      let v := (List.range (mfCount code)).foldl (fun n i =>
        n + 2 ^ (w * i) * mfPackElem p (rm i) (cvSat c.f) (cvFtz c.f) (c.vc.toNat % 256) (c.r (c.f.va + i)).toNat) 0
      .ok (c.put (BitVec.ofNat 32 v) s)) s

/-- MFUNPACK (05 R126, R127). -/
def execMfunpack (f : FA96) (s : State) : Host.Outcome State Fault Refusal :=
  issueEach (.mfunpack f) (fun c s =>
    let code := cvDst c.f
    if !recValid code c.vb.toNat then .error (recTrap c.vb)
    else
      let p := mfOf c.vb.toNat
      let w := mfWidth code
      .ok (c.write ((List.range (mfCount code)).map fun i =>
        let v := scaleElem (c.vc.toNat % 256) (p.decode (bitsAt c.va.toNat (w * i) w))
        (c.f.vd + i, BitVec.ofNat 32 (fp32.roundSat (rmOf (cvRm c.f)) (cvSat c.f) v))) s)) s

end Sys2Proof.Machine
end

