-- ==== Sys2Proof/Machine/Spad.lean ====
section
/-! DEFINITION. Scratchpad: regions, loads, stores, constant loads, atomics, fences, buoys and peer accesses (08 R162 to
R184, 15 R319 to R323). Loads, stores, atomics and buoy updates are performed at their completion, BTRY and BWAIT sample at issue
(log 17). -/

namespace Sys2Proof.Machine

open Sys2Proof

/-- The pool byte at which a slot's region begins (08 R162). -/
def regionBase (s : State) (core slot : Nat) : Nat :=
  (s.core core).cfg.regG * 65536 + slot * (s.core core).cfg.spadP * 4096

/-- Bytes of pool storage. -/
def poolRead (s : State) (core off n : Nat) : Nat := mgetN (s.core core).pool off n
/-- Whether a pool range touches a poisoned 64-bit word (13 R310). -/
def poolPoisoned (s : State) (core off n : Nat) : Bool :=
  n != 0 && (s.core core).poolPoison.any fun w => decide (off < 8 * w + 8) && decide (8 * w < off + n)

/-- A pool write: the bytes, and the poison of every 64-bit word wholly written is cleared (13 R310). -/
def poolWriteBytes (core off : Nat) (bs : List Byte) (s : State) : State :=
  s.modCore core fun c =>
    { c with pool := mputs c.pool off bs,
             poolPoison := c.poolPoison.filter fun w => !(decide (off ≤ 8 * w) && decide (8 * w + 8 ≤ off + bs.length)) }
def poolWrite (core off n v : Nat) (s : State) : State := poolWriteBytes core off (leBytes n v) s
/-- Mark the 64-bit words of a pool range poisoned (13 R310). -/
def poolPoison (core off n : Nat) (s : State) : State :=
  if n = 0 then s
  else s.modCore core fun c => { c with poolPoison :=
    (List.range ((off + n - 1) / 8 - off / 8 + 1)).foldl (fun l k => nadd l (off / 8 + k)) c.poolPoison }

/-- An access place: a core and a pool byte. -/
structure Place where
  core : Nat
  off : Nat
  deriving DecidableEq, Repr

/-- The issuing team. -/
def Ctx.team (c : Ctx) (s : State) : Option Team := s.team? c.t.team

/-- The place of a scratchpad address of the issuing team, or SCRATCH-RANGE (08 R162). -/
def Ctx.spad (c : Ctx) (a size : Nat) (s : State) : Except Trap Place :=
  match c.team s with
  | none => .error { cause := 0x0A, detail := 0, addr := BitVec.ofNat 64 a }
  | some tm =>
    if a % size != 0 then .error { cause := 0x0A, detail := 1, addr := BitVec.ofNat 64 a }
    else if a + size > tm.spadP * 4096 then .error { cause := 0x0A, detail := 0, addr := BitVec.ofNat 64 a }
    else .ok { core := tm.core, off := regionBase s tm.core tm.slot + a }

/-- The address of an M64 instruction (03 R73). -/
def Ctx.addrM (c : Ctx) : Nat := wrapNat 32 ((c.va.toNat : Int) + signedOf 16 c.f.imm)
/-- The address of an atomic, with OFF in MOD[25:10] (08 R170). -/
def Ctx.addrA (c : Ctx) : Nat := wrapNat 32 ((c.va.toNat : Int) + signedOf 16 (bitsAt c.f.mod 10 16))

/-- The team of a cohort by index, with its region resident (15 R318, R320). -/
def cohortMember (s : State) (tm : Team) (k : Nat) : Option Team :=
  (s.teams.find? fun e => e.2.grid == tm.grid && e.2.idx == tm.idx / tm.cohort * tm.cohort + k
    && e.2.state != .saved && e.2.state != .released).map (·.2)

/-- The place of a peer address, or PEER-RANGE (15 R319, R320). -/
def Ctx.peer (c : Ctx) (a size : Nat) (s : State) : Except Trap Place :=
  let bad (d : Nat) : Except Trap Place := .error { cause := 0x0B, detail := d, addr := BitVec.ofNat 64 a }
  match c.team s with
  | none => bad 2
  | some tm =>
    if bitsAt a 30 2 != 0 || bitsAt a 20 4 != 0 then bad 1
    else if bitsAt a 24 6 ≥ tm.cohort then bad 2
    else match cohortMember s tm (bitsAt a 24 6) with
      | none => bad 2
      | some p =>
        if bitsAt a 0 20 + size > p.spadP * 4096 then bad 3
        else if a % size != 0 then bad 4
        else .ok { core := p.core, off := regionBase s p.core p.slot + bitsAt a 0 20 }

/-- A tile operation has scratchpad accesses still to be performed (10 R216, R229). -/
def TileOp.pending (o : TileOp) : Bool := o.load.isSome || !o.stores.isEmpty

/-- A tile operation's accesses touch bytes of its core's pool. -/
def TileOp.touches (o : TileOp) (off n : Nat) : Bool :=
  let hit (a k : Nat) : Bool := decide (a < off + n) && decide (off < a + k)
  (match o.load with | some (as, sb) => as.any (hit · 16) || sb.any (hit · 512) | none => false)
    || o.stores.any fun w => hit w.1 w.2.length

/-- An access is still to be performed: a thread's own, or those of a tile operation. -/
def accPending (s : State) (k : Nat) : Bool :=
  s.cores.any fun c => (tfind c.2.accs k).isSome || c.2.tileOps.any fun o => o.key == k && o.pending

/-- The accesses of a thread that are still to be performed, its part in tile operations among them (08 R165, 10 R216). -/
def threadAccs (s : State) (core tid : Nat) : List Nat :=
  let c := s.core core
  (c.accs.filter fun a => a.2.thread == tid).map (·.1)
    ++ (c.tileOps.filter fun o => o.pending && o.threads.contains tid).map (·.key)

/-- What a fence, a barrier or an acquire puts before the later accesses of a thread and is still to be performed (08 R165). -/
def fencedAccs (s : State) (tid : Nat) : List Nat :=
  match s.thread? tid with | some t => t.before.filter (accPending s) | none => []

/-- What is performed before an access to `size` bytes at a place: what is fenced before it, the thread's earlier accesses that
overlap it, and before a release all of them (08 R165). -/
def Ctx.prior (c : Ctx) (p : Place) (size : Nat) (rel : Bool) (s : State) : List Nat :=
  let x := s.core c.t.core
  let hit (a : Access) : Bool := a.core == p.core && decide (a.off < p.off + size) && decide (p.off < a.off + a.size)
  fencedAccs s c.tid ++ if rel then threadAccs s c.t.core c.tid
    else (x.accs.filter fun a => a.2.thread == c.tid && hit a.2).map (·.1)
      ++ (x.tileOps.filter fun o => p.core == c.t.core && o.threads.contains c.tid && o.touches p.off size).map (·.key)

/-- An access is issued: it is performed, and its instruction completes, at an INSTRUCTION_COMPLETION (01 R24, 08 R164, R165). -/
def Ctx.access (c : Ctx) (p : Place) (size : Nat) (op : AccessOp) (acq rel : Bool) (s : State) : State :=
  let key := s.fresh
  let a : Access :=
    { thread := c.tid, team := c.t.team, core := p.core, off := p.off, size := size, op := op, prior := c.prior p size rel s }
  let s := { s.modCore c.t.core (fun x => { x with accs := tput x.accs key a }) with fresh := key + 1 }
  let s := if acq then s.modThread c.tid fun t => { t with before := t.before ++ [key] } else s
  c.fly { cls := .v, ready := c.clk, flag := c.flag, regs := [], poison := [], sreg := none, wait := .access key } s

/-- Load `n` registers from a place: 32-bit words in ascending order (08 R168). -/
def Ctx.loadRegs (c : Ctx) (p : Place) (n : Nat) (bad : Bool) (s : State) : State :=
  c.access p (4 * n) (.load ((List.range n).map fun i => (c.f.vd + i, 4 * i, 4, false)) bad) false false s
/-- Store bytes at a place (08 R168). -/
def Ctx.storeBytes (c : Ctx) (p : Place) (bs : List Byte) (bad : Bool) (s : State) : State :=
  c.access p bs.length (.store bs bad) false false s

/-- The bytes of `n` data registers. -/
def Ctx.dataBytes (c : Ctx) (n : Nat) : List Byte := (List.range n).flatMap fun i => leBytes 4 (c.r (c.f.vd + i)).toNat

/-- An instruction without a result completes with its set flag alone. -/
def Ctx.done (c : Ctx) (s : State) : State := c.write [] s

/-- LDS (08 R168). -/
def execLds (f : FM64) (s : State) : Host.Outcome State Fault Refusal :=
  issueEach (.lds f) (fun c s =>
    let n := widthRegs c.f.mod
    match c.spad c.addrM (4 * n) s with | .error t => .error t | .ok p => .ok (c.loadRegs p n false s)) s
/-- LDS of 8 and 16 bits (08 R168). -/
def execLdsNarrow (f : FM64) (s : State) : Host.Outcome State Fault Refusal :=
  issueEach (.ldsNarrow f) (fun c s =>
    let n := if c.m 0 then 2 else 1
    match c.spad c.addrM n s with
    | .error t => .error t
    | .ok p => .ok (c.access p n (.load [(c.f.vd, 0, n, c.m 1)] false) false false s)) s
/-- STS (08 R168). -/
def execSts (f : FM64) (s : State) : Host.Outcome State Fault Refusal :=
  issueEach (.sts f) (fun c s =>
    let n := widthRegs c.f.mod
    match c.spad c.addrM (4 * n) s with
    | .error t => .error t
    | .ok p => .ok (c.storeBytes p (c.dataBytes n) false s)) s
/-- STS of 8 and 16 bits (08 R168). -/
def execStsNarrow (f : FM64) (s : State) : Host.Outcome State Fault Refusal :=
  issueEach (.stsNarrow f) (fun c s =>
    let n := if c.m 0 then 2 else 1
    match c.spad c.addrM n s with
    | .error t => .error t
    | .ok p => .ok (c.storeBytes p (leBytes n c.vd.toNat) false s)) s

/-- DATA-POISON of a constant word for LDC (13 R308), else its value; offsets past the bank read zero (08 R169). -/
def Ctx.ldcWord (c : Ctx) (off : Nat) (s : State) : Except Trap Word :=
  if off ≥ 65536 then .ok 0
  else
    let (w, bad) := bankWord s c.t.core (c.f.mod % 4) off
    if bad then .error (bankPoisonTrap (c.f.mod % 4) off) else .ok w
/-- LDC (08 R169). -/
def execLdc (f : FM64) (s : State) : Host.Outcome State Fault Refusal :=
  issueEach (.ldc f) (fun c s =>
    match c.ldcWord (c.addrM / 4 * 4) s with | .error t => .error t | .ok w => .ok (c.put w s)) s
/-- LDC of 64 bits (08 R169). -/
def execLdcB64 (f : FM64) (s : State) : Host.Outcome State Fault Refusal :=
  issueEach (.ldcB64 f) (fun c s =>
    match c.ldcWord (c.addrM / 8 * 8) s with
    | .error t => .error t
    | .ok l => match c.ldcWord (c.addrM / 8 * 8 + 4) s with
      | .error t => .error t
      | .ok h => .ok (c.putP (pair64 l h) s)) s

/-- A peer access counts in PEERACC (15 R335). -/
def Ctx.countPeer (c : Ctx) (s : State) : State := s.bumpCore c.t.core 0x0320 1
/-- The errors of a peer transfer: one that its retry clears is counted; one that persists is also reported (15 R334, R335). -/
def Ctx.peerError (c : Ctx) (s : State) : Bool × State :=
  let cl := clusterOf c.t.core
  let k := (s.cluster cl).netErr
  if k = 0 then (false, s)
  else
    let s := s.modCluster cl fun x => { x with netErr := 0, counters := bumpAt x.counters 0x20 1 }
    let s := perturb (partOfCore s c.t.core) s
    if k = 1 then (false, s) else (true, coreError c.t.core 11 0 0 s)
/-- LDP (15 R322). -/
def execLdp (f : FM64) (s : State) : Host.Outcome State Fault Refusal :=
  issueEach (.ldp f) (fun c s =>
    let n := widthRegs c.f.mod
    match c.peer c.addrM (4 * n) s with
    | .error t => .error t
    | .ok p =>
      let (bad, s) := c.peerError (c.countPeer s)
      .ok (c.loadRegs p n bad s)) s
/-- STP (15 R322). -/
def execStp (f : FM64) (s : State) : Host.Outcome State Fault Refusal :=
  issueEach (.stp f) (fun c s =>
    let n := widthRegs c.f.mod
    match c.peer c.addrM (4 * n) s with
    | .error t => .error t
    | .ok p =>
      let (bad, s) := c.peerError (c.countPeer s)
      .ok (c.storeBytes p (c.dataBytes n) bad s)) s

/-- New(old, b) of the atomics on `w` bits (08 R171). -/
def atomNew (op w old b : Nat) : Nat :=
  let so := signedOf w old
  let sb := signedOf w b
  let p := if w = 64 then fp64 else fp32
  match op with
  | 0 => (old + b) % 2 ^ w
  | 1 => if so ≤ sb then old else b
  | 2 => if so ≥ sb then old else b
  | 3 => min old b
  | 4 => max old b
  | 5 => old &&& b
  | 6 => old ||| b
  | 7 => old ^^^ b
  | 8 => b
  | 9 => if old ≥ b then 0 else old + 1
  | 10 => if old = 0 ∨ old > b then b else old - 1
  | 11 => p.round .rn (Val.add false (p.decode old) (p.decode b))
  | 12 => minMax p false old b
  | _ => minMax p true old b

/-- DATA-POISON of a scratchpad word read by an atomic or buoy instruction (13 R308). -/
def spadPoisonTrap (a : Nat) : Trap := { cause := 0x10, detail := 2, addr := BitVec.ofNat 64 a }
/-- A register or pair as a number under W64. -/
def Ctx.wideReg (c : Ctx) (k : Nat) : Nat := if w64Of c.f then (c.p k).toNat else (c.r k).toNat
/-- Bytes of an atomic's element. -/
def Ctx.atomSize (c : Ctx) : Nat := if w64Of c.f then 8 else 4

/-- An atomic on an element at a place, which a poisoned word stops (08 R165, R170, R171, 13 R308). -/
def Ctx.atomic (c : Ctx) (a : Nat) (p : Place) (op : Nat) (bad : Bool) (s : State) : Except Trap State :=
  if poolPoisoned s p.core p.off c.atomSize then .error (spadPoisonTrap a)
  else .ok (c.access p c.atomSize (.atomic op (c.wideReg c.f.vb) (if op = 14 then c.wideReg c.f.vc else 0) c.f.vd bad) (c.m 5) (c.m 6) s)

/-- ATOMS (08 R171). -/
def execAtoms (f : FA96) (s : State) : Host.Outcome State Fault Refusal :=
  issueEach (.atoms f) (fun c s =>
    match c.spad c.addrA c.atomSize s with
    | .error t => .error t
    | .ok p => c.atomic c.addrA p (opOf c.f) false s) s
/-- CASS (08 R172). -/
def execCass (f : FA96) (s : State) : Host.Outcome State Fault Refusal :=
  issueEach (.cass f) (fun c s =>
    match c.spad c.addrA c.atomSize s with
    | .error t => .error t
    | .ok p => c.atomic c.addrA p 14 false s) s
/-- ATOMP (15 R323). -/
def execAtomp (f : FA96) (s : State) : Host.Outcome State Fault Refusal :=
  issueEach (.atomp f) (fun c s =>
    match c.peer c.addrA c.atomSize s with
    | .error t => .error t
    | .ok p =>
      if poolPoisoned s p.core p.off c.atomSize then .error (spadPoisonTrap c.addrA)
      else
        let (bad, s) := c.peerError (c.countPeer s)
        c.atomic c.addrA p (opOf c.f) bad s) s
/-- FENCES: every earlier access of the thread is performed before every later one, and before the fence completes (08 R165,
R173). -/
def execFences (f : FA96) (s : State) : Host.Outcome State Fault Refusal :=
  issueEach (.fences f) (fun c s =>
    let keys := fencedAccs s c.tid ++ threadAccs s c.t.core c.tid
    let s := s.modThread c.tid fun t => { t with before := keys }
    .ok (c.fly { cls := .v, ready := c.clk, flag := c.flag, regs := [], poison := [], sreg := none, wait := .fence keys } s)) s

/-- A buoy (08 R179). -/
structure Buoy where
  expB : Nat
  arrB : Nat
  expT : Nat
  arrT : Nat
  phase : Nat
  err : Bool
  rsv : Nat
  poison : Nat
  deriving DecidableEq, Repr

/-- A buoy from its 128 bits (08 R179). -/
def buoyOf (x : Nat) : Buoy :=
  { expB := bitsAt x 0 32, arrB := bitsAt x 32 32, expT := bitsAt x 64 16, arrT := bitsAt x 80 16, phase := bitsAt x 96 1,
    err := bitAt x 97, rsv := bitsAt x 98 14, poison := bitsAt x 112 16 }
/-- The 128 bits of a buoy (08 R179). -/
def buoyBits (b : Buoy) : Nat :=
  b.expB + 2 ^ 32 * b.arrB + 2 ^ 64 * b.expT + 2 ^ 80 * b.arrT + 2 ^ 96 * b.phase + 2 ^ 97 * b2n b.err + 2 ^ 98 * b.rsv
    + 2 ^ 112 * b.poison

/-- The phase is met (08 R180). -/
def Buoy.met (b : Buoy) : Bool := decide (b.arrB ≥ b.expB) && decide (b.arrT ≥ b.expT)

/-- An update that adds `db` bytes and `dt` arrivals (08 R180). -/
def Buoy.update (b : Buoy) (db dt : Nat) : Buoy :=
  let s := b.arrB + db
  let t := b.arrT + dt
  let b := { b with err := b.err || decide (s ≥ 2 ^ 32) || decide (t ≥ 2 ^ 16), arrB := s % 2 ^ 32, arrT := t % 2 ^ 16 }
  if b.met then
    let b := { b with arrB := b.arrB - b.expB, arrT := b.arrT - b.expT, phase := 1 - b.phase }
    if b.met && (decide (b.arrB > 0) || decide (b.arrT > 0)) then { b with err := true } else b
  else b

/-- The buoy at a place. -/
def buoyAt (s : State) (p : Place) : Buoy := buoyOf (poolRead s p.core p.off 16)
/-- A buoy written at a place. -/
def putBuoy (p : Place) (b : Buoy) (s : State) : State := poolWrite p.core p.off 16 (buoyBits b) s

/-- BINIT, BEXP and BARR on a buoy (08 R180, R181). -/
def Buoy.init (b : Buoy) (bytes arrivals : Nat) : Buoy :=
  { expB := bytes, arrB := 0, expT := arrivals, arrT := 0, phase := 0, err := false, rsv := b.rsv, poison := 0 }
def Buoy.expect (b : Buoy) (set : Bool) (bytes : Nat) : Buoy :=
  let e := if set then bytes else b.expB + bytes
  ({ b with expB := e % 2 ^ 32, err := b.err || decide (e ≥ 2 ^ 32) } : Buoy).update 0 0

/-- New of an atomic's element, `none` where nothing is written (08 R171, R172). -/
def atomWrite (op w old b c : Nat) : Option Nat := if op = 14 then (if old = b then some c else none) else some (atomNew op w old b)

/-- An access is performed: the registers it brings, those of them that are poisoned, and the state after it (08 R164, R168, R171,
R172, R181, 13 R310, 15 R334; log 17). -/
def Access.perform (a : Access) (s : State) : (List (Nat × Word) × List Nat) × State :=
  let p : Place := { core := a.core, off := a.off }
  let poisoned := poolPoisoned s a.core a.off a.size
  let spoil (bad : Bool) (s : State) : State := if bad then poolPoison a.core a.off a.size s else s
  match a.op with
  | .load rs bad =>
    let value (r : Nat × Nat × Nat × Bool) : Nat × Word :=
      let x := poolRead s a.core (a.off + r.2.1) r.2.2.1
      (r.1, if r.2.2.2 then wrap32 (signedOf (8 * r.2.2.1) x) else BitVec.ofNat 32 x)
    let poi := (rs.filter fun r => bad || poolPoisoned s a.core (a.off + r.2.1) r.2.2.1).map (·.1)
    ((storable (rs.map value), poi), s)
  | .store bs bad => (([], []), spoil bad (poolWriteBytes a.core a.off bs s))
  | .atomic op b c d bad =>
    let old := poolRead s a.core a.off a.size
    let ws := if a.size = 8 then [(d, BitVec.ofNat 32 old), (d + 1, BitVec.ofNat 32 (old / 2 ^ 32))] else [(d, BitVec.ofNat 32 old)]
    let s := match atomWrite op (8 * a.size) old b c with | some v => poolWrite a.core a.off a.size v s | none => s
    ((storable ws, if poisoned then ws.map (·.1) else []), spoil bad s)
  | .binit n k => (([], []), putBuoy p ((buoyAt s p).init n k) s)
  | .bexp set n => (([], []), putBuoy p ((buoyAt s p).expect set n) s)
  | .barr d =>
    let b := (buoyAt s p).update 0 1
    ((storable [(d, BitVec.ofNat 32 (2 * b2n b.err + (buoyAt s p).phase))], if poisoned then [d] else []), putBuoy p b s)

/-- Everything that an access follows has been performed (08 R165). -/
def Access.ready (a : Access) (s : State) : Bool := a.prior.all fun k => !accPending s k

/-- An access of a core's threads is performed and forgotten; what it brings. -/
def performAccess (core key : Nat) (a : Access) (s : State) : (List (Nat × Word) × List Nat) × State :=
  a.perform (s.modCore core fun c => { c with accs := tdel c.accs key })

/-- The place of a buoy instruction, checked for range and poison (08 R181, 13 R308). -/
def Ctx.buoy (c : Ctx) (s : State) : Except Trap Place :=
  match c.spad c.addrM 16 s with
  | .error t => .error t
  | .ok p => if poolPoisoned s p.core p.off 16 then .error (spadPoisonTrap c.addrM) else .ok p

/-- BINIT (08 R181). -/
def execBinit (f : FM64) (s : State) : Host.Outcome State Fault Refusal :=
  issueEach (.binit f) (fun c s =>
    match c.buoy s with
    | .error t => .error t
    | .ok p => .ok (c.access p 16 (.binit c.vd.toNat ((c.r (c.f.vd + 1)).toNat % 2 ^ 16)) false false s)) s
/-- BEXP (08 R181). -/
def execBexp (f : FM64) (s : State) : Host.Outcome State Fault Refusal :=
  issueEach (.bexp f) (fun c s =>
    match c.buoy s with
    | .error t => .error t
    | .ok p => .ok (c.access p 16 (.bexp (c.m 0) c.vd.toNat) false false s)) s
/-- BARR: a release (08 R165, R181). -/
def execBarr (f : FM64) (s : State) : Host.Outcome State Fault Refusal :=
  issueEach (.barr f) (fun c s =>
    match c.buoy s with
    | .error t => .error t
    | .ok p => .ok (c.access p 16 (.barr c.f.vd) false true s)) s

/-- BUOY-ERROR (06 R138). -/
def buoyTrap (a : Nat) : Trap := { cause := 0x0D, detail := 0, addr := BitVec.ofNat 64 a }

/-- BTRY (08 R182). -/
def execBtry (f : FM64) (s : State) : Host.Outcome State Fault Refusal :=
  issueEach (.btry f) (fun c s =>
    match c.buoy s with
    | .error t => .error t
    | .ok p =>
      let b := buoyAt s p
      if b.err then .error (buoyTrap c.addrM) else .ok (c.put (bool32 (b.phase != c.vd.toNat % 2)) s)) s

/-- A thread's wait at an instruction is over: it runs, and the instruction has still to issue (07 R157, R158, 08 R182). -/
def Thread.release (t : Thread) (i : Instr) : Thread := { t with conv := .run, held := some i, released := true }

/-- One thread at a BWAIT is sampled: it traps, may issue, or is held (08 R182). -/
def sampleBwait (f : FM64) (tid : Nat) (s : State) : State :=
  match s.thread? tid with
  | none => s
  | some t =>
    let i := Instr.bwait f
    let fl := fldsOf i
    let c := ctxOf i fl .v tid t s
    match checkIssue i shBwait fl t s.count tid with
    | .error tr => enterTrap tid t.pc c.next tr s
    | .ok _ => match poisonTrap shBwait fl t s.count tid with
      | some tr => enterTrap tid t.pc c.next tr s
      | none => match c.buoy s with
        | .error tr => enterTrap tid t.pc c.next tr s
        | .ok p =>
          let b := buoyAt s p
          if b.err then enterTrap tid t.pc c.next (buoyTrap c.addrM) s
          else if b.phase != c.vd.toNat % 2 then s.modThread tid fun t => t.release i
          else s.modThread tid fun t => { t with conv := .heldBuoy, held := some i }

/-- BWAIT: a member whose phase has been found issues, its set flag rising and falling in the cycle of issue; another is sampled
(08 R182). -/
def execBwait (f : FM64) (s : State) : Host.Outcome State Fault Refusal :=
  let one (s : State) (tid : Nat) : State := match s.thread? tid with
    | none => s
    | some t =>
      if t.released then
        retireIn (ctxOf (.bwait f) (fldsOf (.bwait f)) .v tid t s) none (s.modThread tid fun t => { t with conv := .run, held := none })
      else sampleBwait f tid s
  .next { s.issue.foldl one s with issue := [] }

/-- A thread that waits in HELD-BUOY, of a team whose threads may issue, is sampled again (08 R182). -/
def sampleWaiter (tid : Nat) (s : State) : State :=
  match s.thread? tid with
  | some t => match t.conv, t.held, s.team? t.team with
    | .heldBuoy, some (.bwait f), some x => if !x.killReq && x.state == .live then sampleBwait f tid s else s
    | _, _, _ => s
  | none => s

/-- BUOY_WAITER_SAMPLE: a held waiter is sampled again after a write to its buoy (08 R182). -/
def execBuoyWaiterSample (thread : Nat) (s : State) : Host.Outcome State Fault Refusal := .next (sampleWaiter thread s)

end Sys2Proof.Machine
end

