-- ==== Sys2Proof/Machine/TRec.lean ====
section
/-! DEFINITION. The tensor record: its fields, element and scale addresses, footprint and the checks of SEAL (11 R234 to
R239), and the route table's (27 R494 to R496). -/

namespace Sys2Proof.Machine

open Sys2Proof

/-- The fields of a tensor record (11 R234). -/
structure TRec where
  base : Nat
  scbase : Nat
  fmt : Fmt
  sc : Bool
  ftz : Bool
  sat : Bool
  rm : Nat
  swz : Nat
  dims : Nat
  kind : Nat
  seed : Nat
  fill : Nat
  ext : List Nat
  box : List Nat
  stride : List Int
  padlo : List Nat
  padhi : List Nat
  deriving DecidableEq, Repr

/-- The fields of a record's bits (11 R234). -/
def trecOf (r : Rec) : TRec :=
  let x := r.toNat
  let d5 (g : Nat → Nat) : List Nat := (List.range 5).map g
  { base := bitsAt x 0 64, scbase := bitsAt x 64 64, fmt := { code := bitsAt x 128 5, frec := bitsAt x 160 32 },
    sc := bitAt x 145, ftz := bitAt x 146, sat := bitAt x 147, rm := bitsAt x 148 3, swz := bitsAt x 151 2,
    dims := bitsAt x 153 3, kind := bitsAt x 156 4, seed := bitsAt x 192 32, fill := bitsAt x 256 64,
    ext := d5 fun d => bitsAt x (32 * d + 320) 32, box := d5 fun d => bitsAt x (32 * d + 512) 32,
    stride := 0 :: (List.range 4).map fun d => signedOf 64 (bitsAt x (64 * d + 704) 64),
    padlo := d5 fun d => bitsAt x (12 * d + 960) 6, padhi := d5 fun d => bitsAt x (12 * d + 966) 6 }

/-- Element `d` of a list of numbers, or zero. -/
def at0 (l : List Nat) (d : Nat) : Nat := (l[d]?).getD 0
/-- Element `d` of a list of integers, or zero. -/
def at0i (l : List Int) (d : Nat) : Int := (l[d]?).getD 0

/-- MODE, SPACE, PEER and the offset of a base (11 R235). -/
def baseMode (b : Nat) : Nat := bitsAt b 62 2
def baseTile (b : Nat) : Bool := bitsAt b 30 2 == 1
def basePeer (b : Nat) : Nat := bitsAt b 24 6
def baseOff (b : Nat) : Nat := if baseMode b = 0 then bitsAt b 0 56 else bitsAt b 0 20

/-- Bits of an element (02 R33). -/
def TRec.width (r : TRec) : Nat := fmtBits r.fmt.code

/-- The first byte r of an element's row (11 R236). -/
def TRec.row (r : TRec) (x : List Int) : Int :=
  ((List.range (r.dims - 1)).map fun d => at0i x (d + 1) * at0i r.stride (d + 1)).foldl (· + ·) (baseOff r.base : Int)

/-- The first bit of an element within its row's packing (02 R35, 11 R236). -/
def TRec.bit (r : TRec) (x : List Int) : Nat := r.width * (at0i x 0).toNat

/-- The byte addresses of an element before the swizzle, rising. -/
def TRec.bytes (r : TRec) (x : List Int) : List Nat :=
  let b := r.bit x
  let a := (r.row x + (b / 8 : Nat)).toNat
  (List.range ((b + r.width - 1) / 8 - b / 8 + 1)).map fun k => a + k

/-- The bits of a row of `n` elements, rounded up to whole bytes, or to whole groups of three bytes for MF6 (02 R35). -/
def rowBits (w n : Nat) : Nat := if w = 6 then 24 * ceilDiv n 4 else 8 * ceilDiv (w * n) 8

/-- The bits behind the last element of a row, which its write leaves zero: the first and the number of them (02 R35; log 111).
-/
def TRec.pad (r : TRec) (x : List Int) : Nat × Nat :=
  let b := r.width * at0 r.ext 0
  (b, if (at0i x 0).toNat + 1 = at0 r.ext 0 then rowBits r.width (at0 r.ext 0) - b else 0)

/-- The byte addresses that the write of an element changes before the swizzle, rising (02 R35, 11 R248). -/
def TRec.writes (r : TRec) (x : List Int) : List Nat :=
  let b := r.bit x
  let a := (r.row x + (b / 8 : Nat)).toNat
  (List.range ((b + r.width + (r.pad x).2 - 1) / 8 - b / 8 + 1)).map fun k => a + k

/-- The address of an element's scale byte (11 R236). -/
def TRec.scaleAddr (r : TRec) (x : List Int) : Nat :=
  let n (d : Nat) : Nat := (at0i x d).toNat
  let e (d : Nat) : Nat := if d < r.dims then at0 r.ext d else 1
  baseOff r.scbase + n 0 / 32 + ceilDiv (at0 r.ext 0) 32 * (n 1 + e 1 * (n 2 + e 2 * (n 3 + e 3 * n 4)))

/-- Coordinates within the extent (11 R246). -/
def TRec.inside (r : TRec) (x : List Int) : Bool :=
  (List.range r.dims).all fun d => decide (0 ≤ at0i x d) && decide (at0i x d < at0 r.ext d)

/-- The bytes of a record's scales (11 R236). -/
def TRec.scaleBytes (r : TRec) : Nat :=
  ((List.range (r.dims - 1)).map fun d => at0 r.ext (d + 1)).foldl (· * ·) (ceilDiv (at0 r.ext 0) 32)

/-- The lowest and highest byte of the rows within the extent (02 R35, 11 R239; log 111). -/
def TRec.span (r : TRec) : Int × Int :=
  let t (d : Nat) : Int := ((at0 r.ext (d + 1) : Int) - 1) * at0i r.stride (d + 1)
  let ds := List.range (r.dims - 1)
  let b : Int := baseOff r.base
  (ds.foldl (fun a d => a + min 0 (t d)) b,
    ds.foldl (fun a d => a + max 0 (t d)) b + (rowBits r.width (at0 r.ext 0) / 8 - 1 : Nat))

/-- A range of bytes lies in the space that a base names (11 R239): 2^56 bytes, the region, one tile or one side-band. -/
def spanOk (tm : Team) (b : Nat) (lo hi : Int) : Bool :=
  if baseMode b = 0 then decide (0 ≤ lo) && decide (hi < (2 : Int) ^ 56)
  else if !baseTile b then decide (0 ≤ lo) && decide (hi < tm.spadP * 4096)
  else
    decide (0 ≤ lo) &&
      (if hi < 0x80000 then lo.toNat / 8192 == hi.toNat / 8192 && decide (hi.toNat / 8192 < tm.tiles)
       else decide (lo ≥ 0x80000) && (lo.toNat - 0x80000) / 512 == (hi.toNat - 0x80000) / 512
         && decide ((hi.toNat - 0x80000) / 512 < tm.tiles))

/-- A reserved bit of a base is set, or its MODE or SPACE is reserved (11 R235). -/
def baseBad (b : Nat) : Bool :=
  bitsAt b 56 6 != 0 ||
    match baseMode b with
    | 0 => false
    | 1 => bitsAt b 32 24 != 0 || decide (bitsAt b 30 2 ≥ 2) || bitsAt b 20 10 != 0
    | 2 => bitsAt b 32 24 != 0 || decide (bitsAt b 30 2 ≥ 2) || bitsAt b 20 4 != 0
    | _ => true

/-- The storage unit of a format in bytes (11 R239). -/
def unitOfFmt (c : Nat) : Nat := if c = 0x12 then 3 else if fmtBits c < 8 then 1 else min (fmtBits c / 8) 8

/-- The number of positions of a box with its padding (11 R245). -/
def TRec.count (r : TRec) : Nat :=
  (List.range r.dims).foldl (fun n d => n * (at0 r.box d + at0 r.padlo d + at0 r.padhi d)) 1

/-- The record names its own team, or a peer of the cohort (11 R239). -/
def peerBad (tm : Team) (b : Nat) : Bool := baseMode b == 2 && decide (basePeer b ≥ tm.cohort)

/-- Statuses 0x02 to 0x08 of a tensor record (11 R239); 0 where none holds. -/
def tensorStatus (tm : Team) (rc : Rec) : Nat :=
  let x := rc.toNat
  let r := trecOf rc
  let ds := List.range r.dims
  let off := (List.range 5).filter fun d => decide (r.dims ≤ d)
  let mf := isMfFmt r.fmt.code
  let u := unitOfFmt r.fmt.code
  let (lo, hi) := r.span
  if bitsAt x 1020 4 != 0 || bitsAt x 672 32 != 0 || bitsAt x 480 32 != 0 || bitsAt x 224 32 != 0 || bitsAt x 133 12 != 0
      || decide (r.kind ≥ 2) || baseBad r.base || (r.sc && baseBad r.scbase) then 2
  else if !isElemFmt r.fmt.code || (if mf then !recValid r.fmt.code r.fmt.frec else r.fmt.frec != 0)
      || ((r.sc || r.ftz) && !mf) || (!r.sc && r.scbase != 0) || decide (r.rm ≥ 6) then 3
  else if r.dims = 0 || decide (r.dims > 5) || ds.any (fun d => at0 r.ext d == 0 || at0 r.box d == 0)
      || r.stride.any (fun t => decide (t < -(2 : Int) ^ 47) || decide (t > (2 : Int) ^ 47 - 1))
      || off.any (fun d => at0 r.ext d != 0 || at0 r.box d != 0 || at0i r.stride d != 0 || at0 r.padlo d != 0
        || at0 r.padhi d != 0) then 4
  else if baseOff r.base % u != 0 || r.stride.any (fun t => t % (u : Int) != 0) then 5
  else if peerBad tm r.base || (r.sc && peerBad tm r.scbase) || !spanOk tm r.base lo hi
      || (r.sc && !spanOk tm r.scbase (baseOff r.scbase) ((baseOff r.scbase + r.scaleBytes : Nat) - 1)) then 6
  else if decide (ceilDiv (r.count * r.width) 8 ≥ 2 ^ 32) then 7
  else if r.swz != 0 && (baseMode r.base == 0 || baseTile r.base) then 8
  else 0

/-- The fields of a route table (27 R494). -/
structure RTab where
  obase : Nat
  dbase : Nat
  fmt : Nat
  op : Nat
  alg : Nat
  net : Bool
  lwin : Nat
  m : Nat
  rank : Nat
  n : Nat
  thresh : Nat
  buoy : Nat
  rdy : Nat
  pbase : Nat
  pstride : Nat
  deriving DecidableEq, Repr

/-- The fields of a route table's bits (27 R494). -/
def rtabOf (r : Rec) : RTab :=
  let x := r.toNat
  { obase := bitsAt x 0 64, dbase := bitsAt x 64 64, fmt := bitsAt x 128 5, op := bitsAt x 133 3, alg := bitsAt x 136 2,
    net := bitAt x 138, lwin := bitsAt x 144 4, m := bitsAt x 160 7, rank := bitsAt x 168 6, n := bitsAt x 176 9,
    thresh := bitsAt x 192 32, buoy := bitsAt x 224 32, rdy := bitsAt x 256 32, pbase := bitsAt x 320 64,
    pstride := bitsAt x 384 64 }

/-- Bytes of a routed tile (27 R495). -/
def RTab.tb (t : RTab) : Nat := 128 * fmtBits t.fmt
/-- The one-shot algorithm is selected (27 R500). -/
def RTab.oneShot (t : RTab) : Bool :=
  match t.alg with
  | 1 => true
  | 2 => false
  | _ => decide (t.n * t.tb < (if t.thresh = 0 then 1024 else t.thresh) * 1024)
/-- Q: slots of a tile and parity (27 R495). -/
def RTab.q (t : RTab) : Nat := if t.oneShot then t.m else 3
/-- Bytes of the landing area (27 R496). -/
def RTab.landing (t : RTab) : Nat := 2 * t.n * t.q * t.tb

/-- Reserved fields of a route table (27 R494). -/
def rtabReserved (r : Rec) : Bool :=
  let x := r.toNat
  bitsAt x 448 576 != 0 || bitsAt x 288 32 != 0 || bitsAt x 185 7 != 0 || bitsAt x 174 2 != 0 || bitsAt x 167 1 != 0
    || bitsAt x 148 8 != 0 || bitsAt x 139 5 != 0

/-- Two byte ranges overlap. -/
def overlaps (a n b m : Nat) : Bool := decide (a < b + m) && decide (b < a + n)

/-- The checks of a route table by SEAL (27 R496). `bound` says that its landing window is bound. -/
def rtabBad (tm : Team) (t : RTab) (bound : Bool) : Bool :=
  let spad (a n : Nat) : Bool := decide (a + n ≤ tm.spadP * 4096)
  let areaOk (b n : Nat) : Bool := if baseMode b = 0 then decide (baseOff b + n ≤ 2 ^ 56) else spad (baseOff b) n
  let st := 64 + 8 * t.n
  let same (b c : Nat) : Bool := (baseMode b == 0) == (baseMode c == 0)
  let inPad (b a n k : Nat) : Bool := baseMode b != 0 && overlaps (baseOff b) k a n
  !([0x0B, 0x0C, 0x0D, 0x0E, 0x0F, 0x10, 7].contains t.fmt)
    || decide (t.op ≥ 3) || (t.op != 0 && isCplx t.fmt) || t.alg == 3
    || decide (t.m < 2) || decide (t.m > 64) || decide (t.rank ≥ t.m) || t.n == 0 || decide (t.n > 256)
    || (!t.net && (t.m != tm.cohort || t.rank != tm.idx % tm.cohort))
    || baseBad t.obase || baseBad t.dbase || decide (baseMode t.dbase > 1) || (baseMode t.dbase == 1 && baseTile t.dbase)
    || (if t.net then baseMode t.obase != 0 else baseMode t.obase != 1 || baseTile t.obase)
    || baseOff t.obase % 256 != 0 || baseOff t.dbase % 256 != 0 || t.buoy % 16 != 0 || t.rdy % 16 != 0
    || !areaOk t.obase t.landing || !areaOk t.dbase (t.n * t.tb) || !spad t.buoy 16 || !spad t.rdy st
    || (same t.obase t.dbase && overlaps (baseOff t.obase) t.landing (baseOff t.dbase) (t.n * t.tb))
    || inPad t.obase t.buoy 16 t.landing || inPad t.obase t.rdy st t.landing
    || inPad t.dbase t.buoy 16 (t.n * t.tb) || inPad t.dbase t.rdy st (t.n * t.tb) || overlaps t.buoy 16 t.rdy st
    || (t.net && (t.pstride % 65536 != 0 || bound))

end Sys2Proof.Machine
end

