-- ==== Sys2Proof/Machine/Cmd.lean ====
section
/-! DEFINITION. Commands that are not gone: lookup, buoy counting, fault records, failing and cancelling (11 R237, R243,
R255 to R261, 18 R369). -/

namespace Sys2Proof.Machine

open Sys2Proof

/-- ceil(log2 n). -/
def clog2 (n : Nat) : Nat := if n ≤ 1 then 0 else Nat.log2 (n - 1) + 1

/-- H: the handle entries of a team of a core (11 R237). -/
def handlesPer (c : Core) : Nat := 256 / 2 ^ clog2 c.cfg.slots
/-- E: the task entries of a team of a core (19 R392). -/
def tasksPer (c : Core) : Nat := 512 / 2 ^ clog2 c.cfg.slots

/-- The handle entry of a team by team-relative number (11 R237). -/
def handleEntry (s : State) (tm : Team) (i : Nat) : Handle :=
  let c := s.core tm.core
  tget c.handles (tm.slot * handlesPer c + i) {}
/-- Set a handle entry of a team. -/
def putHandle (tm : Team) (i : Nat) (h : Handle) (s : State) : State :=
  s.modCore tm.core fun c => { c with handles := tput c.handles (tm.slot * handlesPer c + i) h }

/-- The snapshot that a handle names, if it is valid for the team (11 R237). -/
def handleRec (s : State) (tm : Team) (h : Nat) : Option Rec :=
  if h % 256 < handlesPer (s.core tm.core) then
    let e := handleEntry s tm (h % 256)
    if e.valid && e.gen == h / 256 && e.gen != 0 then some e.rcd else none
  else none

/-- A command that is not gone. -/
def State.cmd? (s : State) (core k : Nat) : Option Command := tfind (s.core core).cmds k
def State.putCmd (s : State) (core k : Nat) (x : Command) : State :=
  s.modCore core fun c => { c with cmds := tput c.cmds k x }
def State.modCmd (s : State) (core k : Nat) (f : Command → Command) : State :=
  match s.cmd? core k with | some x => s.putCmd core k (f x) | none => s
/-- A command becomes gone (12 R269). -/
def State.dropCmd (s : State) (core k : Nat) : State := s.modCore core fun c => { c with cmds := tdel c.cmds k }

/-- The commands of a team. -/
def teamCmds (s : State) (core team : Nat) : List (Nat × Command) := (s.core core).cmds.filter fun e => e.2.team == team

/-- A core counter that counts only while the core is configured (11 R261). -/
def State.countCore (s : State) (core off n : Nat) : State :=
  if (s.core core).cfg.slots = 0 then s else s.bumpCore core off n

/-- The copy engine's update of a buoy in a team's region; a poisoned buoy gets ERR (08 R183, 13 R310). -/
def engineBuoy (tm : Team) (a : Nat) (f : Buoy → Buoy) (s : State) : State :=
  let p : Place := { core := tm.core, off := regionBase s tm.core tm.slot + a }
  let b := f (buoyAt s p)
  if poolPoisoned s p.core p.off 16 then poolPoison p.core p.off 16 (putBuoy p { b with err := true } s) else putBuoy p b s

/-- ERR set in a buoy of a team (08 R183). -/
def buoyError (tm : Team) (a : Nat) (s : State) : State := engineBuoy tm a (fun b => { b with err := true }) s

/-- `n` bytes counted into the command's buoy, and in CBYTES (11 R255, R261). -/
def countBytes (tm : Team) (buoy : Option Nat) (n : Nat) (s : State) : State :=
  match buoy with
  | none => s
  | some a => if n = 0 then s else (engineBuoy tm a (fun b => b.update n 0) s).countCore tm.core 0x0208 n

/-- A FAULT-layout record of a command (18 R369). -/
def cmdRecord (type kind id : Nat) (x : Command) (tm : Team) (va ctx : Nat) : List DWord :=
  [recWord type kind, recWord id x.ticket, BitVec.ofNat 64 va, recWord (x.c % 2 ^ 32) ctx,
   tm.idx |> BitVec.ofNat 32 |> fun t => t ++ tm.gridId, 0, 0, 0]

/-- The next FAULTID of a core (18 R369). -/
def nextFaultId (core : Nat) (s : State) : Nat × State :=
  let q := (s.core core).faultSeq
  (faultLoc core + q, s.modCore core fun c => { c with faultSeq := (q + 1) % 2 ^ 22 })

/-- The fault record of a parked or stalled command is withdrawn (18 R369). -/
def withdraw (tm : Team) (x : Command) (s : State) : State :=
  match x.park with
  | none => s
  | some p =>
    let kind := p.kind + 256 * p.level + 2048 * b2n p.write
    postFault tm.part (cmdRecord 2 kind p.id x tm p.va p.ctx) s

/-- The words of a debugger record (24 R473). -/
def dbgWords (type info src thread : Nat) (pc retired : DWord) (grid team stamp a b : Nat) : List DWord :=
  [recWord type info, recWord src thread, pc, retired, recWord grid team, BitVec.ofNat 64 stamp, BitVec.ofNat 64 a, BitVec.ofNat 64 b]

/-- A debugger record posted by a core for a team, with the core's next record sequence (24 R473). -/
def postDbgCore (core : Nat) (tm : Team) (type info thread : Nat) (pc retired : DWord) (a b : Nat) (s : State) : State :=
  let q := (s.core core).dbgSeq
  let s := s.modCore core fun c => { c with dbgSeq := (q + 1) % 2 ^ 22 }
  postDebug tm.part (dbgWords type info (faultLoc core + q) thread pc retired tm.gridId.toNat tm.idx (s.clkOf core) a b) s

/-- The THREAD field of a debugger record (24 R473). -/
def dbgThread (num : Nat) (task : Bool) : Nat := num % 2048 + 65536 * b2n task

/-- The RCB address of a ring command (12 R271). -/
def Command.rcb (x : Command) : Nat := (x.regs[2]?).elim 0 (·.toNat)

/-- A command bound as a ring. -/
def Command.isRing (x : Command) : Bool := match x.instr with | .cpyst _ => true | _ => false

/-- The engine writes the RO fields of a ring's RCB (12 R270). -/
def pubRing (tm : Team) (rcb : Nat) (r : Ring) (s : State) : State :=
  let a := regionBase s tm.core tm.slot + rcb
  let s := poolWrite tm.core (a + 8) 17
    (r.chunks + 2 ^ 32 * r.next + 2 ^ 64 * r.done + 2 ^ 96 * r.ticket + 2 ^ 128 * r.state) s
  (List.range r.n).foldl (fun s k =>
    let e := a + 32 + 32 * k
    let old := poolRead s tm.core (e + 20) 2
    poolWrite tm.core (e + 16) 6
      ((r.chunk[k]?).getD 0 % 2 ^ 32 + 2 ^ 32 * (old / 2048 * 2048 + (r.rel[k]?).getD 0 % 2048)) s) s

/-- A ring's state set and its RCB's fields written. -/
def putRing (team : Nat) (tm : Team) (rcb : Nat) (r : Ring) (s : State) : State :=
  pubRing tm rcb r (s.modTeam team fun t => { t with rings := tput t.rings rcb r })

/-- A ring stops as failed (2) or cancelled (3); ERR is set in every slot buoy unless its consumers are gone (12 R276). -/
def stopRing (team : Nat) (tm : Team) (x : Command) (st : Nat) (err : Bool) (s : State) : State :=
  match tfind tm.rings x.rcb with
  | none => s
  | some r =>
    let s := putRing team tm x.rcb { r with state := st, cur := none } s
    if err then (List.range r.n).foldl (fun s k => buoyError tm (x.rcb + 32 + 32 * k) s) s else s

/-- A route fails: STATE 1, and ERR in its buoy (27 R507). -/
def failRoute (team h : Nat) (s : State) : State :=
  match s.team? team with
  | none => s
  | some tm => match tfind tm.routes h with
    | none => s
    | some r =>
      let t := rtabOf r.snap
      let s := s.modTeam team fun v => { v with routes := tput v.routes h { r with failed := true } }
      let s := poolWrite tm.core (regionBase s tm.core tm.slot + t.rdy + 0x24) 4 1 s
      buoyError tm t.buoy s

/-- An entry added to the failure list, the oldest of more than 16 dropped (11 R259). -/
def addFail (l : List FailEntry) (e : FailEntry) : List FailEntry :=
  let l := l ++ [e]
  l.drop (l.length - 16)

/-- The parked contexts in use on a core. -/
def usedContexts (s : State) (core : Nat) : List Nat :=
  (s.core core).cmds.filterMap fun e => match e.2.park with | some p => if p.ctx < 16 then some p.ctx else none | none => none

/-- Stalled commands of a core move to parked contexts that are free, in the order of their faults (11 R258). -/
def fillContexts (core : Nat) : Nat → State → State
  | 0, s => s
  | n + 1, s =>
    let used := usedContexts s core
    let stalled := (s.core core).cmds.filterMap fun e => match e.2.state, e.2.park with
      | .stalled, some p => some (p.id, e.1, p)
      | _, _ => none
    match (List.range 16).find? fun i => !used.contains i, (sortOn (fun (x : Nat × Nat × Park) => x.1) stalled).head? with
    | some i, some (_, k, p) =>
      let s := s.modCmd core k fun x => { x with state := .parked, park := some { p with ctx := i } }
      fillContexts core n (s.countCore core 0x0220 1)
    | _, _ => s

/-- A command ends as failed (state 4) or cancelled (5): its record is withdrawn when cancelled, ERR is set in its buoy or
its ring's, it enters the failure list and is gone (11 R258, R260, 12 R276, 27 R507). -/
def endCmd (core k st reason : Nat) (s : State) : State :=
  match s.cmd? core k with
  | none => s
  | some x => match s.team? x.team with
    | none => s.dropCmd core k
    | some tm =>
      let s := if st = 5 then withdraw tm x s else s
      let s := s.dropCmd core k
      let s := if x.isRing then stopRing x.team tm x (if st = 5 then 3 else 2) true s
        else match x.buoy with | some a => buoyError tm a s | none => s
      let s := match x.instr with
        | .drainRoute _ =>
          let h := (x.regs[0]?).elim 0 (·.toNat) % 256
          if (tfind tm.routes h).map Route.snap == x.snaps.head? then failRoute x.team h s else s
        | _ => s
      let s := s.modTeam x.team fun t =>
        { t with fails := addFail t.fails { ticket := x.ticket, st := st, reason := if st = 4 then reason else 0, c := x.c },
                 tx := if x.bracketed then { t.tx with failed := true } else t.tx }
      let s := s.modGrid tm.grid fun g => { g with fails := g.fails + 1 }
      fillContexts core 16 (s.countCore core (if st = 5 then 0x0230 else 0x0228) 1)

/-- A command fails with a reason (11 R258). -/
def failCmd (core k reason : Nat) (s : State) : State := endCmd core k 4 reason s
/-- A command is cancelled (11 R260). -/
def cancelCmd (core k : Nat) (s : State) : State := endCmd core k 5 0 s

/-- A command fails at once with a FAULT record of CONTEXT 17: kind ATOMIC-PATH, or a LAND or atomic write to a window
(11 R258, 18 R369, 26 R492). -/
def failAtOnce (core k kind va level : Nat) (write : Bool) (reason : Nat) (s : State) : State :=
  match s.cmd? core k with
  | none => s
  | some x => match s.team? x.team with
    | none => s
    | some tm =>
      let (id, s) := nextFaultId core s
      let s := postFault tm.part (cmdRecord 1 (kind + 256 * level + 2048 * b2n write) id x tm va 17) s
      failCmd core k reason s

/-- A command stops at a fault: its record is sent and it parks in the lowest free context, or stalls (11 R258, 18 R369). -/
def parkCmd (core k va kind level : Nat) (write : Bool) (s : State) : State :=
  match s.cmd? core k with
  | none => s
  | some x => match s.team? x.team with
    | none => s
    | some tm =>
      let used := usedContexts s core
      let ctx := ((List.range 16).find? fun i => !used.contains i).getD 16
      let (id, s) := nextFaultId core s
      let s := postFault tm.part (cmdRecord 1 (kind + 256 * level + 2048 * b2n write) id x tm va ctx) s
      let s := s.putCmd core k { x with
        state := if ctx = 16 then .stalled else .parked,
        park := some { va := va, kind := kind, level := level, write := write, id := id, ctx := ctx } }
      if ctx = 16 then s else s.countCore core 0x0220 1

/-- The commands of a core that are active, the stalled among them (11 R257, R258). -/
def activeCmds (s : State) (core : Nat) : List (Nat × Command) :=
  (s.core core).cmds.filter fun e => e.2.state == .active || e.2.state == .stalled

/-- A stopped command goes on at its count: active again while fewer than 16 are, else in its place in the queue (11 R257, R258,
18 R370). -/
def unpark (core k : Nat) (s : State) : State :=
  let others := (activeCmds s core).filter fun e => e.1 != k
  fillContexts core 16 (s.modCmd core k fun x =>
    { x with state := if others.length < 16 then .active else .queued, park := none })

/-- The bracket of a team aborts: its held writes are discarded and every bracketed command fails with reason 0x03 (12
R281). -/
def abortTx (team reason : Nat) (code : Nat) (s : State) : State :=
  match s.team? team with
  | none => s
  | some tm =>
    if tm.tx.depth = 0 || tm.tx.aborted then s
    else
      let s := s.modTeam team fun t => { t with tx := { t.tx with aborted := true, reason := reason, code := code, held := [], lines := [] } }
      ((teamCmds s tm.core team).filter fun e => e.2.bracketed).foldl (fun s e => failCmd tm.core e.1 3 s) s

end Sys2Proof.Machine
end

