-- ==== Sys2Proof/Machine/Coll.lean ====
section
/-! DEFINITION. Convergence: arrivals, releases, the wave collectives, BAR and BARC, and the divergence tests (07 R156 to
R160, 08 R174 to R178, 15 R324 to R326). -/

namespace Sys2Proof.Machine

open Sys2Proof

/-- A thread arrives at a convergence instruction after steps 1 to 3 of 03 R78, or in trap mode takes a double fault
(06 R140, 07 R156). -/
def arrive (conv : Conv) (i : Instr) (tid : Nat) (s : State) : State :=
  match s.thread? tid with
  | none => s
  | some t =>
    if t.conv != .run then s
    else match shapeOf t.tm i with
      | none => s
      | some sh =>
        let f := fldsOf i
        match checkIssue i sh f t s.count tid with
        | .error tr => enterTrap tid t.pc (nextStart s t.core t.pc f.words) tr s
        | .ok _ =>
          if t.tm then
            doubleFault t { cause := 0x11, detail := 1, addr := words01 i } (addr64 t.pc) (t.trapCause.toNat % 256) t.trapPc s
          else s.putThread tid { t with conv := conv, held := some i }

/-- Threads that wait in one convergence state at one address. -/
def allWaitAt (conv : Conv) (ts : List (Nat × Thread)) : Bool :=
  match ts with
  | [] => false
  | e :: _ => ts.all fun x => x.2.conv == conv && x.2.pc == e.2.pc

/-- The live threads of a wave that the dispatcher created; a lane task is a wave of its own (19 R395). -/
def waveThreads (s : State) (team wave : Nat) : List (Nat × Thread) :=
  s.threads.filter fun e => e.2.team == team && e.2.wave.toNat == wave && e.2.task.isNone
/-- The live threads of a team that the dispatcher created (19 R395). -/
def ownThreads (s : State) (team : Nat) : List (Nat × Thread) := (s.threadsOf team).filter fun e => e.2.task.isNone

/-- What becomes of a released thread: a trap, no contribution, or a part in the operation. -/
inductive Role where
  | traps (tr : Trap)
  | idle
  | takes

/-- The role of a released thread (03 R78, 08 R174). -/
def roleOf (i : Instr) (c : Ctx) : Role :=
  match shapeOf c.t.tm i with
  | none => .idle
  | some sh => match checkIssue i sh c.f c.t c.count c.tid with
    | .error tr => .traps tr
    | .ok false => .idle
    | .ok true => match poisonTrap sh c.f c.t c.count c.tid with
      | some tr => .traps tr
      | none => .takes

/-- A released thread leaves its wait. -/
def unhold (tid : Nat) (s : State) : State := s.modThread tid fun t => { t with conv := .run, held := none }

/-- A convergence instruction issues for its released threads: those with a true guard take part, each writes what `eff`
gives it from the participants' contexts; the others only retire (07 R157, 08 R174). -/
def releaseSet (i : Instr) (eff : List Ctx → Ctx → List (Nat × Word)) (ts : List (Nat × Thread)) (s : State) : State :=
  let cs := ts.map fun e => ctxOf i (fldsOf i) .v e.1 e.2 s
  let parts := cs.filter fun c => match roleOf i c with | .takes => true | _ => false
  cs.foldl (fun s c =>
    let s := unhold c.tid s
    match roleOf i c with
    | .traps tr => enterTrap c.tid c.pc c.next tr s
    | .idle => retireIn c none s
    | .takes => c.write (eff parts c) (retireIn c c.flag s)) s

/-- Lane of a context. -/
def Ctx.lane (c : Ctx) : Nat := c.t.lane.toNat
/-- Segment width and base of a lane (08 R174). -/
def segW (c : Ctx) : Nat := 32 / 2 ^ segOf c.f
def segBase (c : Ctx) : Nat := c.lane - c.lane % segW c
/-- The participants of a lane's segment, in lane order. -/
def segParts (parts : List Ctx) (c : Ctx) : List Ctx :=
  (List.range 32).flatMap fun l => parts.filter fun p => p.lane == l && segBase p == segBase c
/-- A result of 32 or 64 bits in VD. -/
def wideRes (c : Ctx) (w64 : Bool) (v : Nat) : List (Nat × Word) :=
  if w64 then [(c.f.vd, BitVec.ofNat 32 v), (c.f.vd + 1, BitVec.ofNat 32 (v / 2 ^ 32))] else [(c.f.vd, BitVec.ofNat 32 v)]

/-- SHFL (08 R175). -/
def shflEff (parts : List Ctx) (c : Ctx) : List (Nat × Word) :=
  let k := c.vb.toNat
  let w := segW c
  let t : Int := ((if bitAt k 16 then 0 else c.lane - segBase c) ^^^ (k % 32) : Nat) + signedOf 6 (bitsAt k 8 6)
  let ok := !bitAt c.f.mod 0 || (decide (0 ≤ t) && decide (t < w))
  let src := segBase c + (if bitAt c.f.mod 0 then t.toNat else (t % w).toNat)
  let v := match if ok then parts.find? (fun p => p.lane == src) else none with
    | some p => p.wideReg p.f.va
    | none => c.wideReg c.f.vc
  wideRes c (w64Of c.f) v

/-- The lane mask of contexts. -/
def laneMask (cs : List Ctx) : Nat := cs.foldl (fun n c => n + 2 ^ c.lane) 0
/-- The lowest lane of contexts in lane order. -/
def firstLane (cs : List Ctx) : Nat := match cs with | [] => 0xFFFFFFFF | c :: _ => c.lane

/-- VOTE (08 R176). -/
def voteEff (parts : List Ctx) (c : Ctx) : List (Nat × Word) :=
  let p := segParts parts c
  let q := p.filter fun x => x.va.getLsbD 0
  let v := match opOf c.f with
    | 0 => laneMask q
    | 1 => q.length
    | 2 => (q.filter fun x => decide (x.lane < c.lane)).length
    | 3 => firstLane q
    | 4 => laneMask p
    | 5 => b2n (!q.isEmpty)
    | 6 => b2n (q.length == p.length)
    | _ => b2n (p.all fun x => x.va == c.va)
  [(c.f.vd, BitVec.ofNat 32 v)]

/-- MATCH (08 R176). -/
def matchEff (parts : List Ctx) (c : Ctx) : List (Nat × Word) :=
  let g := (segParts parts c).filter fun x => x.wideReg x.f.va == c.wideReg c.f.va
  let v := match opOf c.f with | 0 => laneMask g | 1 => firstLane g | _ => g.length
  [(c.f.vd, BitVec.ofNat 32 v)]

/-- A reduction of REDW and SCANW over values of `w` bits; of none it is the identity (08 R177). -/
def reduceVals (op w : Nat) (vs : List Nat) : Nat :=
  let p := if w = 64 then fp64 else fp32
  match op with
  | 0 => vs.foldl (fun a b => (a + b) % 2 ^ w) 0
  | 1 => vs.foldl (atomNew 1 w) (2 ^ (w - 1) - 1)
  | 2 => vs.foldl (atomNew 2 w) (2 ^ (w - 1))
  | 3 => vs.foldl min (2 ^ w - 1)
  | 4 => vs.foldl max 0
  | 5 => vs.foldl (· &&& ·) (2 ^ w - 1)
  | 6 => vs.foldl (· ||| ·) 0
  | 7 => vs.foldl (· ^^^ ·) 0
  | 8 => p.round .rn (exactSum (vs.map p.decode))
  | 9 => vs.foldl (minMax p false) p.nanCode
  | _ => vs.foldl (minMax p true) p.nanCode

/-- REDW (08 R177). -/
def redwEff (parts : List Ctx) (c : Ctx) : List (Nat × Word) :=
  let w := if w64Of c.f then 64 else 32
  wideRes c (w64Of c.f) (reduceVals (opOf c.f) w ((segParts parts c).map fun x => x.wideReg x.f.va))

/-- SCANW (08 R177). -/
def scanwEff (parts : List Ctx) (c : Ctx) : List (Nat × Word) :=
  let w := if w64Of c.f then 64 else 32
  let below := (segParts parts c).filter fun x => decide (x.lane < c.lane) || (!bitAt c.f.mod 8 && x.lane == c.lane)
  wideRes c (w64Of c.f) (reduceVals (opOf c.f) w (below.map fun x => x.wideReg x.f.va))

/-- What a wave collective writes for each participant. -/
def collEff : Instr → List Ctx → Ctx → List (Nat × Word)
  | .shfl _ => shflEff
  | .vote _ => voteEff
  | .matchL _ => matchEff
  | .redw _ => redwEff
  | .scanw _ => scanwEff
  | _ => fun _ _ => []

/-- The rank of a wave's released set in the order of 07 R153. -/
def waveRank (s : State) (core : Nat) (ts : List (Nat × Thread)) : Nat :=
  setRank (ts.any fun e => e.2.starved) (ts.foldl (fun k e => min k (e.2.key (detMode s core))) (2 ^ 64))
    (match ts with | e :: _ => e.2.pc | [] => 0)

/-- Every live thread of a wave has arrived at one collective (07 R157). -/
def waveReady (s : State) (team wave : Nat) : Bool := allWaitAt .heldColl (waveThreads s team wave)

/-- A wave's collective is released when every live thread of the wave has arrived at it: its threads form one issue set, which
competes for the LSU (07 R157). -/
def releaseWave (team wave : Nat) (s : State) : State :=
  if waveReady s team wave then
    (waveThreads s team wave).foldl (fun s e => match e.2.held with
      | some i => s.modThread e.1 fun t => t.release i
      | none => s) s
  else s

/-- BAR's held instruction rather than TURN's. -/
def heldIsBar (t : Thread) : Bool := match t.held with | some (.bar _) => true | _ => false

/-- The accesses of threads that a barrier puts before every later access of each of them (08 R178, 15 R325). -/
def barrierAccs (s : State) (ts : List (Nat × Thread)) : List Nat :=
  ts.foldl (fun l e => (fencedAccs s e.1 ++ threadAccs s e.2.core e.1).foldl nadd l) []

/-- Threads released without a port by a barrier: each issues, a set flag rises and falls in one cycle, and its later accesses
follow given ones (08 R178, 15 R324, R325). -/
def releaseBarrier (keys : List Nat) (ts : List (Nat × Thread)) (s : State) : State :=
  ts.foldl (fun s e => match e.2.held with
    | some i =>
      let c := ctxOf i (fldsOf i) .v e.1 e.2 s
      (retireIn c none (unhold e.1 s)).modThread e.1 fun t => { t with before := keys }
    | none => s) s

/-- Release a team's BAR when every live thread of the team has arrived at it (07 R157, 08 R178). It counts one set in SETS
(DESIGN CHOICE, log 138). -/
def releaseBar (team : Nat) (s : State) : State :=
  let ts := ownThreads s team
  if allWaitAt .heldBar ts && ts.all (fun e => heldIsBar e.2) then
    match ts with
    | (_, t) :: _ => (releaseBarrier (barrierAccs s ts) ts s).bumpCore t.core 0x0050 1
    | [] => s
  else s

/-- The distinct addresses at which threads wait. -/
def waitAddrs (ts : List (Nat × Thread)) : List VAddr :=
  ts.foldl (fun l e => if l.contains e.2.pc then l else l ++ [e.2.pc]) []

/-- A thread in a state that counts as waiting (07 R158). -/
def Thread.waiting (t : Thread) : Bool := t.conv == .heldColl || t.conv == .heldBar || t.conv == .heldBarc

/-- Threads in order of their thread number. -/
def byNumber (ts : List (Nat × Thread)) : List (Nat × Thread) := sortOn (fun e => e.2.num) ts

/-- DIVERGED-BARRIER of one waiting thread (06 R138). `addr` is the other waiting address it reports. -/
def divergedTrap (n : Nat) (addr : VAddr) (ts : List (Nat × Thread)) (t : Thread) : Trap :=
  { cause := 8, detail := min n 255, addr := addr64 addr,
    mask := BitVec.ofNat 32 ((ts.filter fun e => e.2.team == t.team && e.2.wave == t.wave && e.2.pc == t.pc).foldl
      (fun m e => m ||| 2 ^ e.2.lane.toNat) 0) }

/-- The divergence test of a team, after its releases (07 R159, R160): every waiting thread traps at its own instruction. -/
def divergeTeam (team : Nat) (s : State) : State :=
  let ts := byNumber (ownThreads s team)
  if ts.all (fun e => e.2.waiting) && decide ((waitAddrs ts).length ≥ 2) then
    ts.foldl (fun s e =>
      let other := match ts.find? fun x => x.2.pc != e.2.pc with | some x => x.2.pc | none => e.2.pc
      match e.2.held with
      | some i =>
        let next := nextStart s e.2.core e.2.pc (fldsOf i).words
        enterTrap e.1 e.2.pc next (divergedTrap (waitAddrs ts).length other ts e.2) (unhold e.1 s)
      | none => s) s
  else s

/-- The teams of a cohort that are neither ENDED nor KILLED (15 R324). -/
def cohortTeams (s : State) (grid cohort : Nat) : List (Nat × Team) :=
  s.teams.filter fun e => e.2.grid == grid && e.2.idx / e.2.cohort == cohort
    && e.2.state != .ended && e.2.state != .killed && e.2.state != .released

/-- A team part is complete: the team is LIVE and every live thread waits at one BARC (15 R324). -/
def barcPart (s : State) (e : Nat × Team) : Option VAddr :=
  let ts := ownThreads s e.1
  if e.2.state == .live && allWaitAt .heldBarc ts then ts.head?.map fun x => x.2.pc else none

/-- The cohort condition holds: every part is complete, at one address (15 R324). -/
def barcReady (s : State) (grid cohort : Nat) : Bool :=
  match (cohortTeams s grid cohort).map (barcPart s) with
  | [] => false
  | a :: r => a.isSome && r.all (· == a)

/-- The cohort is diverged: every part is complete, at two or more addresses (15 R326). -/
def divergeCohort (grid cohort : Nat) (s : State) : State :=
  let teams := sortOn (fun e => e.2.idx) (cohortTeams s grid cohort)
  let parts := teams.map (barcPart s)
  let addrs := parts.foldl (fun l (a : Option VAddr) => if l.contains a then l else l ++ [a]) []
  if parts.all (·.isSome) && decide (addrs.length ≥ 2) then
    teams.foldl (fun s e =>
      let ts := ownThreads s e.1
      ts.foldl (fun s x =>
        let other := match parts.find? fun a => a != some x.2.pc with | some (some a) => a | _ => x.2.pc
        match x.2.held with
        | some i =>
          let next := nextStart s x.2.core x.2.pc (fldsOf i).words
          enterTrap x.1 x.2.pc next (divergedTrap addrs.length other ts x.2) (unhold x.1 s)
        | none => s) s) s
  else s

/-- The grid and cohort of a team. -/
def cohortOf (s : State) (team : Nat) : Nat × Nat :=
  match s.team? team with | some t => (t.grid, t.idx / t.cohort) | none => (0, 0)

/-- Steps 3 and 4 of 07 R159 for a team: releases before divergence tests. A cohort's release takes its own event. -/
def settleTeam (team : Nat) (s : State) : State :=
  let waves := (ownThreads s team).foldl (fun l e => nadd l e.2.wave.toNat) []
  let s := waves.foldl (fun s w => releaseWave team w s) s
  let s := divergeTeam team (releaseBar team s)
  divergeCohort (cohortOf s team).1 (cohortOf s team).2 s

/-- The teams of the issue set's members. -/
def issueTeams (s : State) : List Nat :=
  s.issue.foldl (fun l tid => match s.thread? tid with | some t => nadd l t.team | none => l) []

/-- A lane-task thread at a convergence instruction: its collective is a wave of itself alone, released at arrival, and its
barriers issue at arrival; at TURN it goes on (19 R395). -/
def taskArrives (conv : Conv) (i : Instr) (tid : Nat) (s : State) : State :=
  let s := arrive conv i tid s
  match s.thread? tid with
  | some t =>
    if t.conv != conv then s
    else if conv == .heldColl then s.putThread tid (t.release i)
    else (releaseBarrier (barrierAccs s [(tid, t)]) [(tid, t)] s).bumpCore t.core 0x0050 1
  | none => s

/-- A thread arrives at a convergence instruction (07 R156, 19 R395). -/
def arriveAt (conv : Conv) (i : Instr) (s : State) (tid : Nat) : State :=
  match s.thread? tid with
  | some t => if t.task.isSome then taskArrives conv i tid s else arrive conv i tid s
  | none => s

/-- The members of the issue set that are released at the instruction issue as one set (07 R157); the others arrive, and their
teams' waits are released or found diverged. -/
def arriveEach (conv : Conv) (i : Instr) (s : State) : Host.Outcome State Fault Refusal :=
  let teams := issueTeams s
  let ts := s.issue.filterMap fun k => (s.thread? k).map fun t => (k, t)
  let s := releaseSet i (collEff i) (ts.filter (·.2.released)) s
  let s := (ts.filter fun e => !e.2.released).foldl (fun s e => arriveAt conv i s e.1) s
  .next { teams.foldl (fun s t => settleTeam t s) s with issue := [] }

/-- SHFL (08 R175). -/
def execShfl (f : FA96) (s : State) : Host.Outcome State Fault Refusal := arriveEach .heldColl (.shfl f) s
/-- VOTE (08 R176). -/
def execVote (f : FA96) (s : State) : Host.Outcome State Fault Refusal := arriveEach .heldColl (.vote f) s
/-- REDW (08 R177). -/
def execRedw (f : FA96) (s : State) : Host.Outcome State Fault Refusal := arriveEach .heldColl (.redw f) s
/-- SCANW (08 R177). -/
def execScanw (f : FA96) (s : State) : Host.Outcome State Fault Refusal := arriveEach .heldColl (.scanw f) s
/-- MATCH (08 R176). -/
def execMatchL (f : FA96) (s : State) : Host.Outcome State Fault Refusal := arriveEach .heldColl (.matchL f) s
/-- BAR (08 R178). -/
def execBar (f : FA96) (s : State) : Host.Outcome State Fault Refusal := arriveEach .heldBar (.bar f) s
/-- BARC (15 R324); its release is the event BARC_RELEASE. -/
def execBarc (f : FA96) (s : State) : Host.Outcome State Fault Refusal := arriveEach .heldBarc (.barc f) s

/-- COLLECTIVE_RELEASE (07 R157). -/
def execCollectiveRelease (team wave : Nat) (s : State) : Host.Outcome State Fault Refusal := .next (releaseWave team wave s)
end Sys2Proof.Machine
end

