-- ==== Sys2Proof/Machine/Tile.lean ====
section
/-! DEFINITION. Tiles, their tags and pending writes, the instances of a tile instruction, and the instructions that move,
convert and inspect tiles (09 R185 to R193, 10 R208 to R221). -/

namespace Sys2Proof.Machine

open Sys2Proof

/-- A memory with patches applied in order. -/
def applyPatches (m : Memory) (ps : List Patch) : Memory := ps.foldl (fun m p => mpatch m p.1 p.2.1 (mslice p.2.2 p.1 p.2.1)) m

/-- The tile store and the side-bands as the next tile instruction sees them: with the writes of every earlier one, in
issue order (09 R193). -/
def Core.tileView (c : Core) : Memory := c.tileOps.foldl (fun m o => applyPatches m o.data) c.tiles
def Core.sideView (c : Core) : Memory := c.tileOps.foldl (fun m o => applyPatches m o.side) c.sideBand

/-- The tag of a core tile (09 R186). -/
def tagAt (s : State) (core tile : Nat) : Nat := tget (s.core core).tags tile 0
/-- A tag written (09 R186). -/
def setTag (core tile tag : Nat) (s : State) : State := s.modCore core fun c => { c with tags := tput c.tags tile tag }
/-- A tag with POI set. -/
def poisonTag (tag : Nat) : Nat := if tagPoi tag then tag else tag + 8
/-- POI set in a tile's tag (09 R190). -/
def poisonTile (core tile : Nat) (s : State) : State := setTag core tile (poisonTag (tagAt s core tile)) s

/-- What reading words of a tile found: words corrected, words re-read, and whether an error persists (09 R190). -/
structure Scrub where
  fixed : Nat
  again : Nat
  bad : Bool
  deriving DecidableEq, Repr

/-- A TLOAD that has not read reads its chunks and side-band now; a poisoned word poisons its tile (10 R216). -/
def TileOp.loaded (o : TileOp) (c : Core) : TileOp :=
  match o.load with
  | none => o
  | some (xs, sb) =>
    let d := o.writes.headD 0
    let dirty (a n : Nat) : Bool := c.poolPoison.any fun w => decide (a < 8 * w + 8) && decide (8 * w < a + n)
    let side := match sb with | some a => mgets c.pool a 512 | none => []
    { o with load := none,
             data := [(8192 * d, 8192, cellsOf (8192 * d) (xs.flatMap fun x => mgets c.pool x 16))],
             side := [(512 * d, 512, cellsOf (512 * d) side)],
             poi := o.poi || xs.any (dirty · 16) || sb.any (dirty · 512) }

/-- The TLOADs that write given tiles and have not read read now, a later tile instruction naming those tiles (10 R216). -/
def readLoads (core : Nat) (tiles : List Nat) (s : State) : State :=
  let reads (o : TileOp) : Bool := o.load.isSome && o.writes.any tiles.contains
  if !(s.core core).tileOps.any reads then s
  else s.modCore core fun c =>
    let ops := c.tileOps.map fun o => if reads o then (true, o.loaded c) else (false, o)
    let bad := (ops.filter fun e => e.1 && e.2.poi).flatMap fun e => e.2.writes
    { c with tileOps := ops.map (·.2), tags := bad.foldl (fun m t => tput m t (poisonTag (tget m t 0))) c.tags }

/-- The 64-bit words `lo` to `lo + n - 1` of a tile are read: errors are corrected or re-read, and a persistent one sets
POI (09 R190). Words from 1,024 on are the side-band's. -/
def scrubWords (core tile lo n : Nat) (s : State) : Scrub × State :=
  let base := 1088 * tile + lo
  let errs := (s.core core).tileErr.filter fun e => decide (base ≤ e.1) && decide (e.1 < base + n)
  if errs.isEmpty then ({ fixed := 0, again := 0, bad := false }, s) else
  let fixed := errs.filter fun e => e.2 == 1
  let again := errs.filter fun e => e.2 != 1
  let bad := errs.any fun e => decide (e.2 ≥ 3)
  let gone := (errs.filter fun e => decide (e.2 < 3)).map (·.1)
  let s := s.modCore core fun c => { c with tileErr := gone.foldl tdel c.tileErr }
  let s := if again.isEmpty then s else s.bumpCore core 0x0138 again.length
  let s := if again.isEmpty then s else perturb (partOfCore s core) s
  let s := if bad && !(s.core core).withdrawn then coreError core 3 512 (8 * (base % 1088) + 8704 * tile) (withdrawCore core s) else s
  ({ fixed := fixed.length, again := again.length, bad := bad }, if bad then poisonTile core tile s else s)

/-- A whole tile with its side-band is read. -/
def scrubTile (core tile : Nat) (s : State) : Scrub × State := scrubWords core tile 0 1088 s

/-- Bytes of the tile store, or of its side-bands, are read: the words that they touch (09 R190). -/
def scrubBytes (core a n : Nat) (side : Bool) (s : State) : State :=
  let size := if side then 512 else 8192
  let first := if side then 1024 else 0
  if n = 0 || (s.core core).tileErr.isEmpty then s
  else (List.range ((a + n - 1) / 8 - a / 8 + 1)).foldl (fun s k =>
    let w := a / 8 + k
    (scrubWords core (8 * w / size) (first + w % (size / 8)) 1 s).2) s

/-- An instance of a tile instruction: its participants in lane order, their leader, the core and the team (10 R209). -/
structure Inst where
  lead : Ctx
  parts : List Ctx
  core : Nat
  team : Nat
  tm : Team

/-- The core tile of a team tile name, or TILE-RANGE (10 R208). -/
def Inst.tile (n : Inst) (s : State) (t : Nat) : Except Trap Nat :=
  if t ≥ n.tm.tiles then .error { cause := 0x0E, detail := t, addr := words01 n.lead.i }
  else .ok (n.tm.slot * (s.core n.core).cfg.tiles + t)

/-- The format of a tag with its record in the team's table (09 R187). -/
def Inst.fmt (n : Inst) (tag : Nat) : Fmt :=
  { code := tagFmt tag, frec := if isMfFmt (tagFmt tag) then (tget n.tm.tfmt (tagFrec tag) 0).toNat else 0 }

/-- FORMAT-TAG of a tile (09 R189). -/
def tagTrap (detail tile tag : Nat) : Trap := { cause := 7, detail := detail, addr := BitVec.ofNat 64 (tag + 65536 * tile) }
/-- DATA-POISON of a tile (09 R189). -/
def tilePoisonTrap (tile : Nat) : Trap := { cause := 0x10, detail := 3, addr := BitVec.ofNat 64 (0x100 + tile) }

/-- The tag check of a source tile (09 R189, 10 R212): the first failing condition, then POI. -/
def Inst.tagFault (n : Inst) (empty : Bool) (role : Nat → Bool) (poiOk : Bool) (tile tag : Nat) : Option Trap :=
  let f := tagFmt tag
  if f = 0 && !empty then some (tagTrap 1 tile tag)
  else if tag % 8 != 0 || decide (tagScale tag ≥ 2) || decide (f ≥ 0x15) then some (tagTrap 2 tile tag)
  else if (if isMfFmt f then !recValid f (n.fmt tag).frec else tagFrec tag != 0) then some (tagTrap 3 tile tag)
  else if (tagScale tag == 1 && !isMfFmt f) || (tagPk tag && !isMfFmt f && f != 1 && f != 3) then some (tagTrap 4 tile tag)
  else if !role tag then some (tagTrap 5 tile tag)
  else if tagPoi tag && !poiOk then some (tilePoisonTrap tile)
  else none

/-- The participants of an issue set and their instances, in ascending key of their leaders (10 R209). -/
def instancesOf (s : State) (cs : List Ctx) : List Inst :=
  let groups := cs.foldl (fun l (c : Ctx) => let g := (c.t.team, c.t.wave.toNat); if l.contains g then l else l ++ [g]) []
  let insts := groups.filterMap fun g =>
    let ps := sortOn Ctx.lane (cs.filter fun c => c.t.team == g.1 && c.t.wave.toNat == g.2)
    match ps.head?, s.team? g.1 with
    | some l, some tm => some { lead := l, parts := ps, core := l.t.core, team := g.1, tm := tm }
    | _, _ => none
  sortOn (fun (n : Inst) => n.lead.t.key (detMode s n.core)) insts

/-- A meaning of one instance: the state after its effect, or the trap of its operation. The participants have retired. -/
abbrev InstBody := Inst → State → Except Trap State

/-- The team tiles that the fields of a tile instruction can name, an MMA's operand offsets among them (10 R208, R222). -/
def Inst.named (n : Inst) : List Nat :=
  match n.lead.i with
  | .ringacq _ | .ringrel _ | .xbegin _ | .xabort _ | .xcommit _ | .tfmt _ => []
  | _ =>
    let x := n.lead.f
    let off := n.lead.va.toNat
    [taOf x, taOf x + 1, tbOf x, tdOf x, taOf x + off % 64, tdOf x + bitsAt off 8 6, tdOf x + bitsAt off 8 6 + 1]

/-- An instance as its team stands, and TLOADs of the tiles that it can name read (10 R209, R216). -/
def Inst.fresh (n : Inst) (s : State) : Inst := { n with tm := (s.team? n.team).getD n.tm }
def Inst.readLoads (n : Inst) (s : State) : State :=
  Machine.readLoads n.core (n.named.map (n.tm.slot * (s.core n.core).cfg.tiles + ·)) s

/-- DATA-POISON of a source that the leader reads for an instance (03 R78, 10 R209). -/
def Inst.leadTrap (n : Inst) : Option Trap :=
  (shapeOf n.lead.t.tm n.lead.i).bind fun sh => poisonTrap sh n.lead.f n.lead.t n.lead.count n.lead.tid

/-- What a body gives, after the poison of the leader's sources (03 R78). -/
def Inst.perform (n : Inst) (body : InstBody) (s : State) : Except Trap State :=
  match n.leadTrap with | some tr => .error tr | none => body n s

/-- One instance is performed, or every participant takes its trap (10 R209, log 19). -/
def runInst (body : InstBody) (n : Inst) (s : State) : State :=
  let n := n.fresh s
  let s := n.readLoads s
  match n.perform body (n.parts.foldl (fun s c => retireIn c c.flag s) s) with
  | .ok s => s
  | .error tr => n.parts.foldl (fun s c => enterTrap c.tid c.pc c.next tr s) s

/-- The contexts of the issue set's members. -/
def setContexts (i : Instr) (s : State) : List Ctx :=
  s.issue.filterMap fun k => (s.thread? k).map fun t =>
    ctxOf i (fldsOf i) (match shapeOf t.tm i with | some sh => sh.cls | none => .v) k t s

/-- A tile instruction whose participants read their own sources (10 R217). -/
def ownSources : Instr → Bool
  | .tmovvRead _ | .tmovvWrite _ => true
  | _ => false

/-- The role of a member of a tile instruction's set: it takes part if its guard is true; the copies of a source that the leader reads
for all are ignored (10 R209). -/
def instRole (i : Instr) (c : Ctx) : Role :=
  if ownSources i then roleOf i c
  else match shapeOf c.t.tm i with
    | none => .idle
    | some sh => match checkIssue i sh c.f c.t c.count c.tid with
      | .error tr => .traps tr
      | .ok false => .idle
      | .ok true => .takes

/-- A member without a part issues: it traps, or its guard is false and it retires. -/
def issueRest (i : Instr) (s : State) (c : Ctx) : State :=
  match instRole i c with
  | .traps tr => enterTrap c.tid c.pc c.next tr s
  | .idle => retireIn c none s
  | .takes => s

/-- The participants of a tile instruction among its members (10 R209). -/
def instParts (i : Instr) (cs : List Ctx) : List Ctx := cs.filter fun c => match instRole i c with | .takes => true | _ => false

/-- The members of an issue set that issue one instruction with effect, each for itself. -/
def takersOf (i : Instr) (cs : List Ctx) : List Ctx := cs.filter fun c => match roleOf i c with | .takes => true | _ => false

/-- A tile instruction issues for a set: its members' traps and guards, then each instance (10 R209). -/
def issueInsts (i : Instr) (body : InstBody) (s : State) : Host.Outcome State Fault Refusal :=
  let cs := setContexts i s
  let insts := instancesOf s (instParts i cs)
  let s := cs.foldl (issueRest i) s
  .next { insts.foldl (fun s n => runInst body n s) s with issue := [] }

/-- A drain, whose poison goes with what it reads: a tile that it writes is left EMPTY and clean (10 R227, R232). -/
def TileOp.drains (o : TileOp) : Bool := !o.stores.isEmpty || o.cmd.isSome

/-- A tile's last pending writer has poisoned results (09 R203). -/
def pendingPoi (c : Core) (tiles : List Nat) : Bool :=
  tiles.any fun t => match (c.tileOps.filter fun o => o.writes.contains t).getLast? with
    | some o => o.poi && !o.drains
    | none => false

/-- An instance enters what it writes: a tile operation, if it touches tiles, and the register results of its
participants, which complete with it (09 R186, R193, 10 R210). -/
def Inst.finish (n : Inst) (op : Option TileOp) (regs : Ctx → List (Nat × Word)) (bad : Bool) (s : State) : State :=
  let key := s.fresh
  let s := match op with
    | some o => { s.modCore n.core (fun c => { c with tileOps := c.tileOps ++ [{ o with key := key, poi := o.poi || pendingPoi c o.reads }] }) with fresh := key + 1 }
    | none => s
  n.parts.foldl (fun s c =>
    let ws := storable (regs c)
    c.fly { cls := .v, ready := c.clk, flag := c.flag, regs := ws, poison := if bad then ws.map (·.1) else [], sreg := none,
            wait := match op with | some _ => .tile key | none => .free } s) s

/-- A tile operation that reads and writes given tiles. -/
def opOf' (reads writes : List Nat) (data side : List Patch) : TileOp :=
  { key := 0, step := false, reads := reads, writes := writes, data := data, side := side }

/-- What is performed before scratchpad writes of an instance: what is fenced before them, and the participants' earlier accesses to
their bytes (08 R165, 10 R216). -/
def Inst.prior (n : Inst) (ws : List (Nat × List Byte)) (s : State) : List Nat :=
  let ids := n.parts.map (·.tid)
  let x := s.core n.core
  let hit (a : Access) : Bool :=
    a.core == n.core && ws.any fun w => decide (a.off < w.1 + w.2.length) && decide (w.1 < a.off + a.size)
  ids.foldl (fun l k => (fencedAccs s k).foldl nadd l) []
    ++ (x.accs.filter fun a => ids.contains a.2.thread && hit a.2).map (·.1)
    ++ (x.tileOps.filter fun o => o.threads.any ids.contains && ws.any fun w => o.touches w.1 w.2.length).map (·.key)

/-- A tile operation that writes scratchpad when it takes effect, from a source that is poisoned or not (10 R216, R229, R232). -/
def Inst.storing (n : Inst) (o : TileOp) (ws : List (Nat × List Byte)) (bad : Bool) (s : State) : TileOp :=
  { o with stores := ws, threads := n.parts.map (·.tid), prior := n.prior ws s, poi := bad }

/-- A whole tile's bytes and side-band replaced. -/
def wholeTile (t : Nat) (cells : Memory) : Patch := (8192 * t, 8192, cells)
def wholeSide (t : Nat) (cells : Memory) : Patch := (512 * t, 512, cells)

/-- TZERO (10 R215). -/
def execTzero (f : FA128) (s : State) : Host.Outcome State Fault Refusal :=
  issueInsts (.tzero f) (fun n s =>
    match n.tile s (tdOf n.lead.f) with
    | .error t => .error t
    | .ok d =>
      let s := setTag n.core d (tagOf n.lead.f) s
      .ok (n.finish (some (opOf' [] [d] [wholeTile d []] [wholeSide d []])) (fun _ => []) false s)) s

/-- The first offending address of the chunks of a tile transfer: misaligned, or outside the region (10 R216). -/
def chunkFault (size : Nat) (addrs : List Nat) : Option Trap :=
  (addrs.find? fun x => x % 16 != 0 || decide (x + 16 > size)).map fun x =>
    { cause := 0x0A, detail := if x % 16 != 0 then 1 else 0, addr := BitVec.ofNat 64 x }

/-- The first offending address of a contiguous side-band transfer (10 R216). -/
def rangeFault (size b len align : Nat) : Option Trap :=
  if b % align != 0 then some { cause := 0x0A, detail := 1, addr := BitVec.ofNat 64 b }
  else if b + len > size then some { cause := 0x0A, detail := 0, addr := BitVec.ofNat 64 (max b size) }
  else none

/-- The scratchpad addresses of a tile's chunks, line by line (10 R216). -/
def chunkAddrs (a st z : Nat) : List Nat :=
  (List.range 32).flatMap fun l => (List.range 16).map fun c => swizzle (a + l * st + 16 * c) z

/-- TLOAD (10 R216). Poisoned words are read at issue, where they set POI; others when the operation takes effect, or before a later
tile instruction that names the tile (log 17). -/
def execTload (f : FA128) (s : State) : Host.Outcome State Fault Refusal :=
  issueInsts (.tload f) (fun n s =>
    match n.tile s (tdOf n.lead.f) with
    | .error t => .error t
    | .ok d =>
      let size := n.tm.spadP * 4096
      let tag := tagOf n.lead.f
      let sc := tagScale tag == 1
      let addrs := chunkAddrs n.lead.va.toNat n.lead.vb.toNat (bitsAt n.lead.f.mod 0 2)
      let sb := n.lead.vc.toNat
      match chunkFault size addrs, if sc then rangeFault size sb 512 16 else none with
      | some t, _ => .error t
      | none, some t => .error t
      | none, none =>
        let base := regionBase s n.core n.tm.slot
        let op : TileOp :=
          { opOf' [] [d] [] [] with
            threads := n.parts.map (·.tid),
            load := some (addrs.map (base + ·), if sc then some (base + sb) else none) }
        let now := op.loaded (s.core n.core)
        let s := setTag n.core d (if now.poi then poisonTag tag else tag) s
        .ok (n.finish (some (if now.poi then now else op)) (fun _ => []) false s)) s

/-- A scratchpad write of a tile instruction, poisoned when its source is (10 R232). -/
def putScratch (core off : Nat) (bs : List Byte) (bad : Bool) (s : State) : State :=
  let s := poolWriteBytes core off bs s
  if bad then poolPoison core off bs.length s else s

/-- DATA-POISON of a register that the case at hand reads (03 R78, 13 R309). -/
def Ctx.regFault (c : Ctx) (r : Nat) : Option Trap :=
  if (c.t.readAny c.count c.tid r).2 then some { cause := 0x10, detail := 1, addr := BitVec.ofNat 64 r } else none

/-- TSTORE (10 R216, R232): the scratchpad is written when the operation takes effect (log 17). -/
def execTstore (f : FA128) (s : State) : Host.Outcome State Fault Refusal :=
  issueInsts (.tstore f) (fun n s =>
    match n.tile s (taOf n.lead.f) with
    | .error t => .error t
    | .ok a =>
      let tag := tagAt s n.core a
      let size := n.tm.spadP * 4096
      let sc := tagScale tag == 1
      let addrs := chunkAddrs n.lead.va.toNat n.lead.vb.toNat (bitsAt n.lead.f.mod 0 2)
      let sb := n.lead.vc.toNat
      match if sc then n.lead.regFault n.lead.f.vc else none, n.tagFault false (fun _ => true) true a tag,
          chunkFault size addrs, if sc then rangeFault size sb 512 16 else none with
      | some t, _, _, _ => .error t
      | none, some t, _, _ => .error t
      | none, none, some t, _ => .error t
      | none, none, none, some t => .error t
      | none, none, none, none =>
        let (e, s) := scrubTile n.core a s
        let bad := tagPoi tag || e.bad
        let base := regionBase s n.core n.tm.slot
        let v := (s.core n.core).tileView
        let side := mgets (s.core n.core).sideView (512 * a) 512
        let ws := ((numbered addrs).map fun x => (base + x.2, mgets v (8192 * a + 16 * x.1) 16))
          ++ if sc then [(base + sb, side)] else []
        .ok (n.finish (some (n.storing (opOf' [a] [] [] []) ws bad s)) (fun _ => []) false s)) s

/-- TMOVV, reading (10 R217). -/
def execTmovvRead (f : FA128) (s : State) : Host.Outcome State Fault Refusal :=
  issueInsts (.tmovvRead f) (fun n s =>
    match n.tile s (taOf n.lead.f) with
    | .error t => .error t
    | .ok a =>
      if tagPoi (tagAt s n.core a) then .error (tilePoisonTrap a)
      else
        let word (c : Ctx) : Nat := c.va.toNat % 2048
        let (bad, s) := n.parts.foldl (fun (r : Bool × State) c =>
          let (e, s) := scrubWords n.core a (word c / 2) 1 r.2
          (r.1 || e.bad, s)) (false, s)
        let v := (s.core n.core).tileView
        .ok (n.finish (some (opOf' [a] [] [] []))
          (fun c => [(c.f.vd, BitVec.ofNat 32 (mgetN v (8192 * a + 4 * word c) 4))]) bad s)) s

/-- TMOVV, writing: the write of the highest lane stands (10 R217). -/
def execTmovvWrite (f : FA128) (s : State) : Host.Outcome State Fault Refusal :=
  issueInsts (.tmovvWrite f) (fun n s =>
    match n.tile s (tdOf n.lead.f) with
    | .error t => .error t
    | .ok d =>
      let ps := n.parts.map fun c =>
        let o := 8192 * d + 4 * (c.va.toNat % 2048)
        ((o, 4, cellsOf o (leBytes 4 c.vb.toNat)) : Patch)
      .ok (n.finish (some (opOf' [d] [d] ps [])) (fun _ => []) false s)) s

/-- TMOV copies data, side-band and tag (10 R217). -/
def execTmov (f : FA128) (s : State) : Host.Outcome State Fault Refusal :=
  issueInsts (.tmov f) (fun n s =>
    match n.tile s (taOf n.lead.f), n.tile s (tdOf n.lead.f) with
    | .error t, _ => .error t
    | .ok _, .error t => .error t
    | .ok a, .ok d =>
      if a = d then .ok (n.finish none (fun _ => []) false s)
      else
        let (_, s) := scrubTile n.core a s
        let c := s.core n.core
        let data := mmove c.tileView (8192 * a) (8192 * d) 8192
        let side := mmove c.sideView (512 * a) (512 * d) 512
        let s := setTag n.core d (tagAt s n.core a) s
        .ok (n.finish (some (opOf' [a] [d] [wholeTile d data] [wholeSide d side])) (fun _ => []) false s)) s

/-- TTAG (10 R218). -/
def execTtag (f : FA128) (s : State) : Host.Outcome State Fault Refusal :=
  issueInsts (.ttag f) (fun n s =>
    match n.tile s (tdOf n.lead.f) with
    | .error t => .error t
    | .ok d =>
      let old := tagAt s n.core d
      let new := if tagPoi old then poisonTag (tagOf n.lead.f) else tagOf n.lead.f
      .ok (n.finish none (fun c => [(c.f.vd, BitVec.ofNat 32 old)]) false (setTag n.core d new s))) s

/-- TSTAT (10 R218). -/
def execTstat (f : FA128) (s : State) : Host.Outcome State Fault Refusal :=
  issueInsts (.tstat f) (fun n s =>
    match n.tile s (taOf n.lead.f) with
    | .error t => .error t
    | .ok a => .ok (n.finish none (fun c => [(c.f.vd, BitVec.ofNat 32 (65536 * a + tagAt s n.core a))]) false s)) s

/-- TFMT (10 R218). -/
def execTfmt (f : FA128) (s : State) : Host.Outcome State Fault Refusal :=
  issueInsts (.tfmt f) (fun n s =>
    let k := bitsAt n.lead.f.x 18 4
    let old := match s.team? n.team with | some tm => tget tm.tfmt k 0 | none => 0
    let s := s.modTeam n.team fun tm => { tm with tfmt := tput tm.tfmt k n.lead.va }
    .ok (n.finish none (fun c => [(c.f.vd, old)]) false s)) s

/-- Elements of a line by format (10 R211). -/
def lineElems (code : Nat) : Nat := match fmtBits code with | 6 => 340 | w => 2048 / w
/-- Scale blocks of a line (10 R211). -/
def lineBlocks (code : Nat) : Nat := ceilDiv (lineElems code) 32

/-- A line of a tile as one number (10 R211). -/
def lineNum (v : Memory) (tile l : Nat) : Nat := mgetN v (8192 * tile + 256 * l) 256
/-- The scale code of an element's block under a tag with block scales (09 R188). -/
def scaleAt (side : Memory) (tile tag l k : Nat) : Option Nat :=
  if tagScale tag = 1 then some (mget side (512 * tile + l * lineBlocks (tagFmt tag) + k / 32)).toNat else none

/-- The values of element `k` of a line. -/
def elemVals (f : Fmt) (side : Memory) (tile tag l x k : Nat) : List Val :=
  f.scaled (scaleAt side tile tag l k) (bitsAt x (fmtBits f.code * k) (fmtBits f.code))

/-- The rounding mode of a conversion with SR's coordinates (02 R48, R51). -/
def modeOf (rm seed : Nat) (coord : List Nat) : Rm := if rm = 5 then .sr (srHash seed coord) else rmOf rm

/-- The pairs of destination and source element of a line under PART (10 R219). -/
def partPairs (es ed part : Nat) : List (Nat × Nat) :=
  let n := min es ed
  (List.range n).filterMap fun i =>
    let p := if es ≥ ed then (i, part * n + i) else (part * n + i, i)
    if p.1 < ed && p.2 < es then some p else none

/-- One line converted: its new number, and the codes of the blocks that receive elements (10 R219). -/
def convLine (sf df : Fmt) (scaled : Bool) (rm : Nat → Rm) (sat : Bool) (vals : Nat → List Val) (pairs : List (Nat × Nat))
    (old : Nat) : Nat × List (Nat × Nat) :=
  let w := fmtBits df.code
  if scaled then
    let blocks := pairs.foldl (fun l p => nadd l (p.1 / 32)) []
    blocks.foldl (fun (r : Nat × List (Nat × Nat)) b =>
      let ps := pairs.filter fun p => p.1 / 32 == b
      let q := quantise df (fun k => rm (ps.getD k (0, 0)).1) false (ps.map fun p => (vals p.2).headD .nan)
      ((List.range ps.length).foldl (fun x k => putBits x (w * (ps.getD k (0, 0)).1) w (q.2.getD k 0)) r.1, r.2 ++ [(b, q.1)])) (old, [])
  else
    (pairs.foldl (fun x p => putBits x (w * p.1) w (convert sf df (fun _ => rm p.1) sat false (vals p.2))) old, [])

/-- TCVT (10 R219). The conditions of R189 stand in the order of their table, that on the destination's record among them
(02 R42, log 20). -/
def execTcvt (f : FA128) (s : State) : Host.Outcome State Fault Refusal :=
  issueInsts (.tcvt f) (fun n s =>
    match n.tile s (taOf n.lead.f), n.tile s (tdOf n.lead.f) with
    | .error t, _ => .error t
    | .ok _, .error t => .error t
    | .ok a, .ok d =>
      let x := n.lead.f
      let st := tagAt s n.core a
      let dt := tagOf x
      let sf := n.fmt st
      let df := n.fmt dt
      let rm := trmOf x
      let part := bitsAt x.x 22 3
      let es := lineElems sf.code
      let ed := lineElems df.code
      let ok : Bool := convOk sf df && (rm != 5 || narrowing sf df) && decide (part * min es ed < max es ed)
      match n.tagFault false (fun _ => true) true a st with
      | some t => .error t
      | none =>
        if isMfFmt df.code && !recValid df.code df.frec then .error (tagTrap 3 d dt)
        else match n.tagFault false (fun _ => ok) false a st with
        | some t => .error t
        | none =>
          let (e, s) := scrubTile n.core a s
          let c := s.core n.core
          let v := c.tileView
          let sv := c.sideView
          let pairs := partPairs es ed part
          let lines := (List.range 32).map fun l =>
            let src := lineNum v a l
            convLine sf df (tagScale dt == 1) (fun k => modeOf rm n.lead.va.toNat [l, k]) (bitAt x.x 21)
              (fun k => elemVals sf sv a st l src k) pairs (lineNum v d l)
          let w := fmtBits df.code
          let lo := w * (pairs.foldl (fun m p => min m p.1) ed) / 8
          let hi := ceilDiv (w * pairs.foldl (fun m p => max m (p.1 + 1)) 0) 8
          let data := (numbered lines).map fun r =>
            let o := 8192 * d + 256 * r.1 + lo
            ((o, hi - lo, cellsOf o (((leBytes 256 r.2.1).drop lo).take (hi - lo))) : Patch)
          let side := (List.range 32).flatMap fun l => ((lines.getD l (0, [])).2.map fun (b : Nat × Nat) =>
            let o := 512 * d + l * lineBlocks df.code + b.1
            ((o, 1, cellsOf o [BitVec.ofNat 8 b.2]) : Patch))
          let s := setTag n.core d (if e.bad then poisonTag dt else dt) s
          .ok (n.finish (some (opOf' [a, d] [d] data side)) (fun _ => []) false s)) s

/-- One scale code moved by an exponent (10 R220). -/
def moveScale (d : Int) (code : Nat) : Nat :=
  if code = 255 then 255
  else
    let x : Int := code + d
    if 0 ≤ x ∧ x ≤ 254 then x.toNat else 255

/-- TSCALE (10 R220). -/
def execTscale (f : FA128) (s : State) : Host.Outcome State Fault Refusal :=
  issueInsts (.tscale f) (fun n s =>
    match n.tile s (tdOf n.lead.f) with
    | .error t => .error t
    | .ok d =>
      let tag := tagAt s n.core d
      let fm := n.fmt tag
      match n.tagFault false (fun _ => isRealFloat fm.code || isCplx fm.code) false d tag with
      | some t => .error t
      | none =>
        let (e, s) := scrubTile n.core d s
        let c := s.core n.core
        let k : Int := n.lead.va.toInt
        let w := fmtBits fm.code
        let rm := rmOf (trmOf n.lead.f)
        let op := if tagScale tag = 1 then
            let codes := (mgets c.sideView (512 * d) (32 * lineBlocks fm.code)).map fun b => BitVec.ofNat 8 (moveScale k b.toNat)
            opOf' [d] [d] [] [(512 * d, codes.length, cellsOf (512 * d) codes)]
          else
            let v := c.tileView
            let bytes := (List.range 32).flatMap fun l =>
              let x := lineNum v d l
              leBytes 256 ((List.range (lineElems fm.code)).foldl (fun y i =>
                putBits y (w * i) w (fm.join ((fm.values (bitsAt x (w * i) w)).map fun z => fm.fp.round rm (z.scale k)))) x)
            opOf' [d] [d] [wholeTile d (cellsOf (8192 * d) bytes)] []
        let s := if e.bad then poisonTile n.core d s else s
        .ok (n.finish (some op) (fun _ => []) false s)) s

/-- TCHK (10 R221): poison that the steps before it bring reaches its result, with which it completes. -/
def execTchk (f : FA128) (s : State) : Host.Outcome State Fault Refusal :=
  issueInsts (.tchk f) (fun n s =>
    match n.tile s (taOf n.lead.f) with
    | .error t => .error t
    | .ok a =>
      let (e, s) := scrubTile n.core a s
      let poi := tagPoi (tagAt s n.core a) || pendingPoi (s.core n.core) [a]
      let v := b2n poi * 2 ^ 31 + min e.again 255 * 256 + min e.fixed 255
      .ok (n.finish (some { opOf' [a] [] [] [] with check := true }) (fun c => [(c.f.vd, BitVec.ofNat 32 v)]) false s)) s

/-- Two tile operations must keep their order: one writes a tile that the other names (09 R193). -/
def TileOp.clashes (a b : TileOp) : Bool :=
  (a.writes.any fun t => (b.reads ++ b.writes).contains t) || a.reads.any fun t => b.writes.contains t

/-- A tile operation's turn has come: no earlier one that it must follow is pending (09 R193). -/
def tileTurn (c : Core) (key : Nat) : Bool :=
  match c.tileOps.find? fun o => o.key == key with
  | none => true
  | some o => (c.tileOps.takeWhile fun b => b.key != key).all fun b => !b.clashes o

/-- A tile operation can take effect: its turn has come, and what its scratchpad accesses follow has been performed (09 R193, 10
R216). -/
def tileReady (s : State) (core key : Nat) : Bool :=
  tileTurn (s.core core) key && match (s.core core).tileOps.find? fun o => o.key == key with
    | some o => o.prior.all fun k => !accPending s k
    | none => true

/-- The results that complete with a poisoned tile operation: TCHK's tells the poison, others are poisoned (10 R221, 09 R203). -/
def InFlight.spoil (e : InFlight) (check : Bool) : InFlight :=
  if check then { e with regs := e.regs.map fun w => (w.1, w.2 ||| 0x80000000#32) } else { e with poison := e.regs.map (·.1) }
def spoilResults (key : Nat) (check : Bool) (s : State) : State :=
  { s with threads := s.threads.map fun e =>
      (e.1, { e.2 with flight := e.2.flight.map fun x => if x.wait == .tile key then x.spoil check else x }) }

/-- A tile operation takes effect: its bytes are written in tiles and scratchpad, and poison goes with them: to the tags of its
destinations, or with a drain to scratchpad or to the command that takes its data (09 R193, R203, 10 R216, R232). A tag that a
later instruction has set meanwhile is poisoned as well (DESIGN CHOICE, log 141). -/
def landTileOp (core key : Nat) (s : State) : State :=
  match (s.core core).tileOps.find? fun o => o.key == key with
  | none => s
  | some o =>
    let o := o.loaded (s.core core)
    let s := s.modCore core fun c =>
      { c with tiles := applyPatches c.tiles o.data, sideBand := applyPatches c.sideBand o.side,
               tags := if o.poi && !o.drains then o.writes.foldl (fun t w => tput t w (poisonTag (tget t w 0))) c.tags else c.tags,
               cmds := match o.poi, o.cmd.bind fun k => (tfind c.cmds k).map fun x => (k, x) with
                 | true, some (k, x) => tput c.cmds k { x with poi := true }
                 | _, _ => c.cmds,
               tileOps := c.tileOps.filter fun x => x.key != key }
    let s := o.stores.foldl (fun s w => putScratch core w.1 w.2 o.poi s) s
    if o.poi then spoilResults key o.check s else s

end Sys2Proof.Machine
end

