-- ==== Sys2Proof/Machine/Mma.lean ====
section
/-! DEFINITION. MMA and MMAC: the checks, the sums, the cost of a step and its acceptance (09 R191 to R199, 10 R222,
R223). -/

namespace Sys2Proof.Machine

open Sys2Proof

/-- The nine real matrix formats (10 R211, R222). -/
def isRealMat (c : Nat) : Bool := c == 0x11 || c == 0x12 || c == 0x13 || c == 1 || c == 3 || (0x0B ≤ c && c ≤ 0x0E)
/-- Kmax of an operand format (10 R211). -/
def kMax (c : Nat) : Nat := match fmtBits c with | 4 => 512 | 6 => 320 | 8 => 256 | 16 => 128 | 32 => 64 | 64 => (32 : Nat) | _ => 16
/-- The accumulator format of an operand format (10 R211). -/
def accFmt (c : Nat) : Nat := if isIntFmt c then 7 else if c = 0x0E || isCplx c then c else 0x0D

/-- A step as its checks leave it: core tiles, operand tags and K. -/
structure Plan where
  a : Nat
  b : Nat
  accs : List Nat
  aTag : Nat
  bTag : Nat
  empty : Bool
  k : Nat
  deriving DecidableEq, Repr

/-- The K field. -/
def kOf (f : Flds) : Nat := bitsAt f.x 18 10

/-- The accumulator tiles, or TILE-RANGE (10 R208). -/
def Inst.accTiles (n : Inst) (s : State) (wide : Bool) (t : Nat) : Except Trap (List Nat) :=
  if wide then
    if t % 2 = 1 then .error { cause := 0x0E, detail := t, addr := words01 n.lead.i }
    else match n.tile s t, n.tile s (t + 1) with
      | .error e, _ => .error e
      | .ok _, .error e => .error e
      | .ok x, .ok y => .ok [x, y]
  else match n.tile s t with | .error e => .error e | .ok x => .ok [x]

/-- The first fault of a list of tag checks. -/
def firstFault : List (Option Trap) → Option Trap
  | [] => none
  | some t :: _ => some t
  | none :: r => firstFault r

/-- The checks of an MMA (`cplx` false) or MMAC step; `taken` are the tiles of a pass that its accumulator may not be (10 R208, R212,
R222, R224). -/
def Inst.plan (n : Inst) (cplx : Bool) (taken : List Nat) (s : State) : Except Trap Plan :=
  let x := n.lead.f
  let off := n.lead.va.toNat
  match n.tile s (taOf x + off % 64) with
  | .error e => .error e
  | .ok a => match n.tile s (tbOf x) with
    | .error e => .error e
    | .ok b =>
      let at' := tagAt s n.core a
      let bt := tagAt s n.core b
      let f := tagFmt at'
      match n.accTiles s (cplx && f == 0x10) (tdOf x + bitsAt off 8 6) with
      | .error e => .error e
      | .ok accs =>
        let k := if kOf x = 0 then kMax f else kOf x
        let tags := accs.map (tagAt s n.core)
        let mixed := (tags.any fun t => tagFmt t == 0) && tags.any fun t => tagFmt t != 0
        let sat := bitAt x.mod 2
        let accOk (t : Nat) : Bool :=
          (tagFmt t == 0 || (tagFmt t == accFmt f && tagScale t == 0 && !tagPk t && tagFrec t == 0)) && !mixed
            && !accs.contains a && !accs.contains b && !accs.any taken.contains && (!sat || accFmt f == 7)
        let aOk (t : Nat) : Bool := (if cplx then isCplx (tagFmt t) else isRealMat (tagFmt t)) && decide (k ≤ kMax f)
        match firstFault ([n.tagFault false aOk false a at', n.tagFault false (fun t => tagFmt t == f) false b bt]
            ++ accs.map fun t => n.tagFault true accOk false t (tagAt s n.core t)) with
        | some e => .error e
        | none => .ok { a := a, b := b, accs := accs, aTag := at', bTag := bt, empty := tags.all fun t => tagFmt t == 0, k := k }

/-- The operand rows: the values of elements 0 to K - 1 of every line, conjugated on request (10 R211, R223). -/
def operandRows (f : Fmt) (v side : Memory) (tile tag k : Nat) (conj : Bool) : List (List (List Val)) :=
  (List.range 32).map fun l =>
    let x := lineNum v tile l
    (List.range k).map fun i => match elemVals f side tile tag l x i with
      | [r, im] => [r, if conj then im.neg else im]
      | vs => vs

/-- The first and second part of an element's values. -/
def part0 (vs : List Val) : Val := vs.headD (.fin false 0 0)
def part1 (vs : List Val) : Val := (vs[1]?).getD (.fin false 0 0)

/-- One output element (10 R223): the sum of 02 R56, R57 or R59. -/
def dotElem (code : Nat) (sat : Bool) (acc : Nat) (as bs : List (List Val)) : Nat :=
  if isIntFmt code then
    let t := (as.zip bs).foldl (fun (t : Int) p => t + (part0 p.1).toInt * (part0 p.2).toInt) (signedOf 32 acc)
    wrapNat 32 (intEncode 7 sat t)
  else if isCplx code then
    let f : Fmt := { code := code }
    let acs := f.values acc
    let re := (as.zip bs).flatMap fun p => [(part0 p.1).mul (part0 p.2), ((part1 p.1).mul (part1 p.2)).neg]
    let im := (as.zip bs).flatMap fun p => [(part0 p.1).mul (part1 p.2), (part1 p.1).mul (part0 p.2)]
    f.join [windowSum f.fp (part0 acs) re, windowSum f.fp (part1 acs) im]
  else
    let ps := (as.zip bs).map fun p => (part0 p.1).mul (part0 p.2)
    if code = 0x0D || code = 0x0E then windowSum (fpOf code) ((fpOf code).decode acc) ps
    else narrowSum (fp32.decode acc) ps

/-- The terms of a value as recoded operand (02 R55). -/
def Val.terms : Val → Nat | .fin _ m _ => termCount m | _ => 0

/-- c(t) of 09 R196. -/
def cyc (t : Nat) : Nat := max 1 (ceilDiv t 2)

/-- Consecutive pieces of `u` elements. -/
def pieces {α : Type} (u : Nat) : Nat → List α → List (List α)
  | 0, _ => []
  | _ + 1, [] => []
  | n + 1, l => l.take u :: pieces u n (l.drop u)

/-- k values in a unit (09 R196). -/
def unitK (code : Nat) : Nat := match fmtBits code with | 4 => 4 | 6 | 8 | 16 => 2 | _ => 1

/-- The cost of a unit of recoded operands (09 R196). -/
def unitCost (code : Nat) (vs : List (List Val)) : Nat :=
  let t0 := vs.foldl (fun m v => max m (part0 v).terms) 0
  let t1 := vs.foldl (fun m v => max m (part1 v).terms) 0
  if fmtBits code = 4 then 1
  else if code = 0x0E then 2 * cyc t0
  else if code = 0x0F then 2 * (cyc t0 + cyc t1)
  else if code = 0x10 then 4 * (cyc t0 + cyc t1)
  else cyc t0

/-- C_g for rows of recoded operands that one group uses together (09 R196). -/
def groupCost (code : Nat) (rows : List (List (List Val))) : Nat :=
  let units := rows.map fun r => pieces (unitK code) 512 r
  let k := match units with | [] => 0 | u :: _ => u.length
  (List.range k).foldl (fun c u => c + unitCost code (units.flatMap fun r => r.getD u [])) 0

/-- C_run, C_run - C_min, the idle group cycles and the TERMS amount of a run (09 R196, R199, R200). -/
def runCost (code : Nat) (rb : Bool) (rows : List (List (List Val))) : Nat × Nat × Nat × Nat :=
  let cs := if rb then (List.range 8).map fun g => groupCost code ((rows.drop (4 * g)).take 4)
    else rows.map fun r => groupCost code [r]
  let mult := if rb then 32 else 8
  let hi := cs.foldl max 0
  let lo := cs.foldl min hi
  let t := rows.foldl (fun n r => r.foldl (fun n v => n + (v.foldl (fun n x => n + x.terms) 0)) n) 0
  (hi, hi - lo, mult * cs.foldl (fun n c => n + (hi - c)) 0, 32 * t * (if isCplx code then 2 else 1))

/-- A step's member with its tile operation, and the tags and scrubs of its issue; `bBad` says that its B tile, which a pass reads
once, has an error that persists (09 R190, R206, 10 R223). The step reads its tiles as they are at its issue, also where a copy
command or a peer's drain writes one before it is done (DESIGN CHOICE, log 139). -/
def Inst.member (n : Inst) (cplx : Bool) (p : Plan) (op : Nat) (bBad : Bool) (s : State) : (StepMember × TileOp) × State :=
  let x := n.lead.f
  let (e0, s) := scrubTile n.core p.a s
  let (e2, s) := (if p.empty then [] else p.accs).foldl (fun (r : Bool × State) t =>
    let (e, s) := scrubTile n.core t r.2
    (r.1 || e.bad, s)) (false, s)
  let c := s.core n.core
  let v := c.tileView
  let sv := c.sideView
  let code := tagFmt p.aTag
  let acode := accFmt code
  let w := fmtBits acode
  let as := operandRows (n.fmt p.aTag) v sv p.a p.aTag p.k (cplx && bitAt x.mod 3)
  let bs := operandRows (n.fmt p.bTag) v sv p.b p.bTag p.k (cplx && bitAt x.mod 4)
  let base := 8192 * p.accs.headD 0
  let rowLen := 256 * p.accs.length
  let rows := (List.range 32).map fun i =>
    let acc := if p.empty then 0 else mgetN v (base + rowLen * i) rowLen
    packElems w ((List.range 32).map fun j =>
      dotElem code (!cplx && bitAt x.mod 2) (bitsAt acc (w * j) w) (as.getD i []) (bs.getD j []))
  let rb := bitAt x.mod 0
  let (run, skew, idle, terms) := runCost code rb (if rb then bs else as)
  let m : StepMember := { op := op, parts := n.parts.map (·.tid), run := run, skew := skew, idle := idle, terms := terms }
  let reads := [p.a, p.b] ++ (if p.empty then [] else p.accs)
  let o : TileOp :=
    { key := op, step := true, reads := reads, writes := p.accs,
      data := [(base, 8192 * p.accs.length, cellsOf base (rows.flatMap fun r => leBytes rowLen r))],
      poi := e0.bad || bBad || e2 || pendingPoi c reads }
  ((m, o), s)

/-- The tag effects of a step's issue: the accumulator's format is set and PK cleared in packed operands (10 R223). -/
def Plan.setTags (p : Plan) (core : Nat) (s : State) : State :=
  let unpack (t : Nat) (s : State) : State :=
    let tag := tagAt s core t
    if tagPk tag then setTag core t (tag - 256) s else s
  let s := unpack p.b (unpack p.a s)
  p.accs.foldl (fun s t => setTag core t (accFmt (tagFmt p.aTag) * 2048) s) s

/-- A step enters the queue with its members (09 R192, R197). -/
def acceptStep (core team : Nat) (pk : Bool) (ms : List (StepMember × TileOp)) (s : State) : Nat × State :=
  let key := s.fresh
  let st : EngStep := { key := key, team := team, ready := s.clkOf core + (if pk then 16 else 8), members := ms.map (·.1),
                        todo := List.range ms.length }
  let s := s.modCore core fun c => { c with tileOps := c.tileOps ++ ms.map (·.2), steps := c.steps ++ [st] }
  (key, { s with fresh := key + 1 })

/-- A step with a packed operand (09 R197). -/
def Plan.packed (p : Plan) : Bool := tagPk p.aTag || tagPk p.bTag

/-- A participant's completion waits for a step. -/
def Ctx.waitStep (c : Ctx) (key : Nat) (s : State) : State :=
  c.fly { cls := .v, ready := c.clk, flag := c.flag, regs := [], poison := [], sreg := none, wait := .step key } s

/-- One instance of MMA or MMAC (10 R222, R223). -/
def mmaInst (cplx : Bool) : InstBody := fun n s =>
  match n.plan cplx [] s with
  | .error t => .error t
  | .ok p =>
    let op := s.fresh
    let (b, s) := scrubTile n.core p.b { s with fresh := op + 1 }
    let (mo, s) := n.member cplx p op b.bad s
    let s := p.setTags n.core s
    let (key, s) := acceptStep n.core n.team p.packed [mo] s
    .ok (n.parts.foldl (fun s c => c.waitStep key s) s)

/-- The steps that an MMA or MMAC of the issue set's members needs (10 R209). -/
def stepsOf (i : Instr) (s : State) : Nat := (instancesOf s (instParts i (setContexts i s))).length

/-- The step queue has room for a number of steps (09 R192). -/
def queueRoom (s : State) (core n : Nat) : Bool := decide ((s.core core).steps.length + n ≤ 16)

/-- MMA or MMAC issues for a set if the step queue has room for all of its steps (10 R209). -/
def issueMma (i : Instr) (cplx : Bool) (s : State) : Host.Outcome State Fault Refusal :=
  let core := match s.issue.head?.bind s.thread? with | some t => t.core | none => 0
  if queueRoom s core (stepsOf i s) then issueInsts i (mmaInst cplx) s else .next { s with issue := [] }

/-- MMA (10 R222, R223). -/
def execMma (f : FA128) (s : State) : Host.Outcome State Fault Refusal := issueMma (.mma f) false s
/-- MMAC (10 R222, R223). -/
def execMmac (f : FA128) (s : State) : Host.Outcome State Fault Refusal := issueMma (.mmac f) true s

end Sys2Proof.Machine
end

