-- ==== Sys2Proof/Machine/Drain.lean ====
section
/-! DEFINITION. DRAIN: its source checks and conversion, and the scratchpad form (10 R226 to R229, R232). -/

namespace Sys2Proof.Machine

open Sys2Proof

/-- An accumulator format (10 R211). -/
def isAccFmt (c : Nat) : Bool := c == 7 || c == 0x0D || c == 0x0E || c == 0x0F || c == 0x10

/-- A drain's source: its core tiles, tag and poison, and the destination format. -/
structure Drained where
  tiles : List Nat
  tag : Nat
  dst : Fmt
  scaled : Bool
  deriving DecidableEq, Repr

/-- The checks of a drain's source, then those of its destination format where one is given (10 R208, R212, R226). Each
tile of a CFP64 pair is checked by itself. An invalid record of the destination tag is DETAIL 0x03 (02 R42, log 20). -/
def Inst.drainPlan (n : Inst) (into : Option Fmt) (scaled : Bool) (s : State) : Except Trap Drained :=
  let dst := into.getD { code := 0 }
  let x := n.lead.f
  match n.tile s (taOf x) with
  | .error e => .error e
  | .ok a =>
    let tag := tagAt s n.core a
    match n.accTiles s (tagFmt tag == 0x10) (taOf x) with
    | .error e => .error e
    | .ok tiles =>
      let sf : Fmt := { code := tagFmt tag }
      match firstFault (tiles.map fun t => n.tagFault false (fun g => isAccFmt (tagFmt g)) true t (tagAt s n.core t)) with
      | some e => .error e
      | none =>
        if into.isSome && isMfFmt dst.code && !recValid dst.code dst.frec then .error (tagTrap 3 a (tagOf x))
        else if into.isSome && !(convOk sf dst && (trmOf x != 5 || narrowing sf dst)) then .error (tagTrap 5 a tag)
        else .ok { tiles := tiles, tag := tag, dst := dst, scaled := scaled }

/-- The source rows of a drain and whether the source is poisoned; its words are read (09 R190, 10 R232). -/
def Inst.drainRead (n : Inst) (d : Drained) (s : State) : (List Nat × Bool) × State :=
  let (bad, s) := d.tiles.foldl (fun (r : Bool × State) t =>
    let (e, s) := scrubTile n.core t r.2
    (r.1 || e.bad || tagPoi (tagAt s n.core t), s)) (false, s)
  let c := s.core n.core
  let v := c.tileView
  let len := 256 * d.tiles.length
  (((List.range 32).map fun i => mgetN v (8192 * d.tiles.headD 0 + len * i) len, bad || pendingPoi c d.tiles), s)

/-- One row of a drain converted: its scale code, if any, and its 32 elements (10 R226). Nothing is flushed to zero, whatever the
destination's FTZ (DESIGN CHOICE, log 130). -/
def drainRow (d : Drained) (rm seed : Nat) (sat : Bool) (i row : Nat) : Nat × List Nat :=
  let sf : Fmt := { code := tagFmt d.tag }
  let w := fmtBits sf.code
  let vals (j : Nat) : List Val := sf.values (bitsAt row (w * j) w)
  if d.scaled then
    quantise d.dst (fun j => modeOf rm seed [i, j, 0]) false ((List.range 32).map fun j => part0 (vals j))
  else
    (0, (List.range 32).map fun j => convert sf d.dst (fun p => modeOf rm seed [i, j, p]) sat false (vals j))

/-- Z: the source becomes EMPTY at issue and zero once it is read (10 R227). -/
def Inst.drainZero (n : Inst) (d : Drained) (s : State) : TileOp × State :=
  if bitAt n.lead.f.x 22 then
    (opOf' d.tiles d.tiles (d.tiles.map fun t => wholeTile t []) (d.tiles.map fun t => wholeSide t []),
      d.tiles.foldl (fun s t => setTag n.core t 0 s) s)
  else (opOf' d.tiles [] [] [], s)

/-- The first offending address of a drain's rows (10 R229). -/
def rowFault (size len : Nat) (addrs : List Nat) : Option Trap :=
  (addrs.find? fun x => x % 8 != 0 || decide (x + len > size)).map fun x =>
    if x % 8 != 0 then { cause := 0x0A, detail := 1, addr := BitVec.ofNat 64 x }
    else { cause := 0x0A, detail := 0, addr := BitVec.ofNat 64 (max x size) }

/-- DRAIN to scratchpad (10 R226 to R229, R232): the scratchpad is written when the operation takes effect (log 17). -/
def execDrainS (f : FA128) (s : State) : Host.Outcome State Fault Refusal :=
  issueInsts (.drainS f) (fun n s =>
    let x := n.lead.f
    let dt := tagOf x
    let sc := tagScale dt == 1
    match n.drainPlan (some (n.fmt dt)) sc s with
    | .error t => .error t
    | .ok d =>
      let size := n.tm.spadP * 4096
      let len := 4 * fmtBits d.dst.code
      let addrs := (List.range 32).map fun i => n.lead.va.toNat + i * n.lead.vb.toNat
      match rowFault size len addrs, if sc then rangeFault size n.lead.vc.toNat 32 1 else none with
      | some t, _ => .error t
      | none, some t => .error t
      | none, none =>
        let ((rows, bad), s) := n.drainRead d s
        let base := regionBase s n.core n.tm.slot
        let ws := (numbered addrs).flatMap fun a =>
          let (code, es) := drainRow d (trmOf x) n.lead.ve.toNat (bitAt x.x 21) a.1 (rows.getD a.1 0)
          (base + a.2, leBytes len (packElems (fmtBits d.dst.code) es))
            :: if sc then [(base + n.lead.vc.toNat + a.1, [BitVec.ofNat 8 code])] else []
        let (op, s) := n.drainZero d s
        .ok (n.finish (some (n.storing op ws bad s)) (fun _ => []) false s)) s

end Sys2Proof.Machine
end

