-- ==== Sys2Proof/Machine/CmdIssue.lean ====
section
/-! DEFINITION. SEAL, UNSEAL and the issue of copy commands: operands, checks, tickets and the queue (11 R237 to R254,
R259, R260, 10 R230, R231, 12 R266, R267, R277). -/

namespace Sys2Proof.Machine

open Sys2Proof

/-- The members of an issue set issue one instruction in ascending key (07 R150). -/
def issueKeyed (i : Instr) (body : Body) (s : State) : Host.Outcome State Fault Refusal :=
  let key (k : Nat) : Nat := match s.thread? k with | some t => t.key (detMode s t.core) | none => 0
  issueEach i body { s with issue := sortOn key s.issue }

/-- The team of the issuing thread, for an instruction whose thread always has one. -/
def Ctx.withTeam (c : Ctx) (s : State) (f : Team → Except Trap State) : Except Trap State :=
  match c.team s with | some tm => f tm | none => .ok s

/-- The first failing chunk of 16 bytes of a scratchpad range, as SCRATCH-RANGE (08 R162). -/
def Ctx.chunks (c : Ctx) (a n : Nat) (s : State) : Except Trap Nat :=
  match (List.range (n / 16)).findSome? fun k => match c.spad (a + 16 * k) 16 s with | .error t => some t | .ok _ => none with
  | some t => .error t
  | none => match c.team s with
    | some tm => .ok (regionBase s tm.core tm.slot + a)
    | none => .ok a

/-- BAD-HANDLE (06 R138). -/
def badHandle (d h : Nat) : Trap := { cause := 0x0C, detail := d, addr := BitVec.ofNat 64 h }

/-- The lowest invalid handle entry of a team (11 R238). -/
def freeHandle (s : State) (tm : Team) : Option Nat :=
  (List.range (handlesPer (s.core tm.core))).find? fun i => !(handleEntry s tm i).valid

/-- The status of a record as SEAL checks it (11 R239, 27 R494, R496). -/
def sealStatus (s : State) (tm : Team) (rc : Rec) (bad : Bool) : Nat :=
  if (freeHandle s tm).isNone then 1
  else if bitsAt rc.toNat 156 4 = 1 then
    let t := rtabOf rc
    if rtabReserved rc then 2
    else if bad then 9
    else if rtabBad tm t (tfind (s.part tm.part).lands t.lwin).isSome then 10
    else 0
  else
    let st := tensorStatus tm rc
    if st != 0 then st else if bad then 9 else 0

/-- The engine's side of sealing a route table: its state begins, the state block is written and a landing window bound (27
R496, R498). -/
def sealRoute (team : Nat) (tm : Team) (i : Nat) (rc : Rec) (s : State) : State :=
  if bitsAt rc.toNat 156 4 != 1 then s
  else
    let t := rtabOf rc
    let s := s.modTeam team fun v => { v with routes := tput v.routes i { snap := rc } }
    let s := poolWriteBytes tm.core (regionBase s tm.core tm.slot + t.rdy) (List.replicate (64 + 8 * t.n) 0) s
    if t.net then s.modPart tm.part fun v => { v with lands := tput v.lands t.lwin (team, i) } else s

/-- The engine's side of a handle that stops being valid (27 R496, R507). -/
def dropRoute (team i : Nat) (s : State) : State :=
  match s.team? team with
  | none => s
  | some tm => match tfind tm.routes i with
    | none => s
    | some r =>
      let t := rtabOf r.snap
      let s := s.modTeam team fun v => { v with routes := tdel v.routes i }
      if t.net then s.modPart tm.part fun v => { v with lands := tdel v.lands t.lwin, pend := tdel v.pend t.lwin } else s

/-- SEAL (11 R238, R239). -/
def execSeal (f : FA128) (s : State) : Host.Outcome State Fault Refusal :=
  issueKeyed (.seal f) (fun c s => c.withTeam s fun tm =>
    let a := c.va.toNat
    match c.chunks a 128 s with
    | .error t => .error t
    | .ok off =>
      let rc : Rec := BitVec.ofNat 1024 (poolRead s tm.core off 128)
      let st := sealStatus s tm rc (poolPoisoned s tm.core off 128)
      match st, freeHandle s tm with
      | 0, some i =>
        let g := (handleEntry s tm i).gen
        let g := if g + 1 ≥ 2 ^ 24 then 1 else g + 1
        let s := putHandle tm i { gen := g, valid := true, rcd := rc } s
        .ok (c.put (BitVec.ofNat 32 (256 * g + i)) (sealRoute c.t.team tm i rc s))
      | st, _ => .ok (c.put (BitVec.ofNat 32 st) s)) s

/-- UNSEAL (11 R240). -/
def execUnseal (f : FA128) (s : State) : Host.Outcome State Fault Refusal :=
  issueKeyed (.unseal f) (fun c s => c.withTeam s fun tm =>
    let h := c.va.toNat
    if (handleRec s tm h).isNone then .ok (c.put 1 s)
    else
      let i := h % 256
      let s := putHandle tm i { handleEntry s tm i with valid := false } s
      .ok (c.put 0 (dropRoute c.t.team i s))) s

/-- The access kinds of a command: bit 0 reads, bit 1 writes (12 R267). -/
def cmdKinds : Instr → Nat
  | .cpyf _ | .drainRoute _ => 2
  | .drainH f => if bitAt f.x.toNat 25 then 3 else 2
  | .cpypf _ | .cpyrc _ => 1
  | _ => 3

/-- The ordering field of a command (12 R262). -/
def Command.flds (x : Command) : Flds := fldsOf x.instr
/-- NB (11 R241). -/
def nbOf (i : Instr) (f : Flds) : Bool :=
  match i with
  | .cpy _ | .cpyg _ | .cpys _ | .cpyf _ | .cpypf _ | .cpyrc _ | .catom _ => bitAt f.mod 1
  | .drainRoute _ | .cpyst _ => true
  | _ => false

/-- A bracketed command that transactions do not carry (12 R277). -/
def unsupported : Instr → Bool
  | .catom _ | .cpyst _ | .drainRoute _ => true
  | _ => false

/-- A command enters the queue: its ticket, its place in the thread's order and in the team's bracket, and the accesses of the thread
that its own follow (11 R243, R256, 12 R267, R277). The answer is its key. -/
def Ctx.push (c : Ctx) (tm : Team) (snaps : List Rec) (origins : List Word) (os od : List Int) (oi : Int) (data : List Nat)
    (poi : Bool) (s : State) : Nat × State :=
  let key := s.fresh
  let open' := decide (tm.tx.depth > 0) && tm.tx.commit.isNone
  let x : Command :=
    { team := c.t.team, thread := c.tid, num := c.t.num, instr := c.i, ticket := tm.ticket,
      regs := [c.va, c.vb, c.vc] ++ origins, snaps := snaps, os := os, od := od, oi := oi,
      buoy := if nbOf c.i c.f then none else some c.vc.toNat, ready := c.clk + 4,
      fences := match s.thread? c.tid with | some t => t.fences | none => [],
      prior := fencedAccs s c.tid ++ threadAccs s tm.core c.tid,
      bracketed := open', afterCommit := tm.tx.commit.isSome, data := data, poi := poi, retired := c.t.retired }
  let s := { s with fresh := key + 1 }.putCmd tm.core key x
  let s := s.modTeam c.t.team fun t => { t with ticket := (t.ticket + 1) % 2 ^ 32 }
  let s := s.modThread c.tid fun t => { t with cmdKinds := t.cmdKinds ||| cmdKinds c.i }
  let s := s.countCore tm.core 0x0200 1
  let s := if !open' then s
    else if tm.tx.aborted then failCmd tm.core key 3 s
    else if unsupported c.i then abortTx c.t.team 6 0 s else s
  (key, s)

/-- The ticket in VD, written at acceptance 4 clk after issue (11 R243). -/
def Ctx.ticketTo (c : Ctx) (key ticket : Nat) (s : State) : State :=
  c.fly { cls := .v, ready := c.clk, flag := c.flag, regs := storable [(c.f.vd, BitVec.ofNat 32 ticket)], poison := [],
          sreg := none, wait := .accept key (c.clk + 4) } s

/-- The snapshot of a handle register, or BAD-HANDLE 0x01 (11 R244). -/
def Ctx.handle (_c : Ctx) (s : State) (tm : Team) (h : Nat) : Except Trap Rec :=
  match handleRec s tm h with | some r => .ok r | none => .error (badHandle 1 h)

/-- The origin range of `n` registers from VE: REGISTER-RANGE, then the poison of its registers (11 R242, 03 R78). -/
def Ctx.origins (c : Ctx) (n : Nat) : Except Trap (List Word) :=
  let e := c.f.ve
  if e = 255 then .ok (List.replicate n 0)
  else
    let rs := (List.range n).map (· + e)
    let trap (d : Nat) : Trap := { cause := 2, detail := d, addr := words01 c.i }
    match rs.find? fun r => decide (c.t.nregs ≤ r) && decide (r < 255) with
    | some r => .error (trap r)
    | none =>
      if e + n > 255 then .error (trap 0xFF)
      else match rs.find? fun r => (c.t.readAny c.count c.tid r).2 with
        | some r => .error { cause := 0x10, detail := 1, addr := BitVec.ofNat 64 r }
        | none => .ok (rs.map c.r)

/-- The poison of V(VE) comes before a trap of the operation that leaves the origin range unknown (03 R78, 11 R242). -/
def Ctx.afterVe (c : Ctx) {α : Type} (x : Except Trap α) : Except Trap α :=
  match x, if c.f.ve = 255 then none else c.regFault c.f.ve with
  | .error _, some t => .error t
  | x, _ => x

/-- Signed origins. -/
def ints (ws : List Word) : List Int := ws.map (·.toInt)

/-- PERM as a list, the identity when all of it is zero (11 R241). -/
def permOf (x nd : Nat) : List Nat :=
  if bitsAt x 0 15 = 0 then List.range nd else (List.range nd).map fun d => bitsAt x (3 * d) 3

/-- PERM is a permutation of the dimensions, zero beyond them (11 R244). -/
def permOk (x nd : Nat) : Bool :=
  let p := permOf x nd
  bitsAt x (3 * nd) (15 - 3 * nd) == 0 && (List.range nd).all p.contains

/-- A record with padding (11 R244). -/
def TRec.padded (r : TRec) : Bool := r.padlo.any (· != 0) || r.padhi.any (· != 0)

/-- The conditions of BAD-HANDLE 0x03 on a scaled destination (11 R244). -/
def scaledBad (d : TRec) (o0 : Int) (box0 : Nat) : Bool :=
  d.sc && (at0 d.padlo 0 != 0 || at0 d.padhi 0 != 0 || o0 % 32 != 0
    || (box0 % 32 != 0 && decide (o0 + box0 < at0 d.ext 0)))

/-- A transfer that copies bits (11 R247). -/
def bitCopy (s d : TRec) (conj : Bool) : Bool := s.fmt == d.fmt && !s.sc && !d.sc && !conj

/-- Formats that a reduction allows (11 R250). -/
def opAllowed (op fmt : Nat) : Bool :=
  if op = 0 then true
  else if op ≤ 6 then 3 ≤ fmt && fmt ≤ 0x0A
  else if op = 7 then 0x0B ≤ fmt && fmt ≤ 0x10
  else 0x0B ≤ fmt && fmt ≤ 0x0E

/-- The conditions of BAD-HANDLE 0x04 on a transfer (11 R244). -/
def formatsBad (s d : TRec) (conj : Bool) (op : Nat) : Bool :=
  (!bitCopy s d conj && (!convOk s.fmt d.fmt || (d.rm == 5 && !narrowing s.fmt d.fmt)))
    || (conj && !(isCplx s.fmt.code && isCplx d.fmt.code)) || !opAllowed op d.fmt.code

/-- The scratchpad checks of the buoy and, for CATOM, the operand block (11 R244). -/
def Ctx.buoyChecks (c : Ctx) (nb : Bool) (block : Option Nat) (s : State) : Option Trap :=
  let one (a : Nat) : Option Trap := match c.spad a 16 s with | .error t => some t | .ok _ => none
  match if nb then none else one c.vc.toNat with
  | some t => some t
  | none => match block with | some a => one a | none => none

/-- Refuse with a trap where a condition holds, else go on. -/
def guardTrap (bad : Bool) (t : Trap) (k : Except Trap State) : Except Trap State := if bad then .error t else k

/-- CPY, CPYG and CPYS (11 R241 to R250): `g` is the indexed dimension, `op` the operation. -/
def Ctx.issueCopy (c : Ctx) (gather scatter : Bool) (s : State) : Except Trap State := c.withTeam s fun tm =>
  let hd := c.va.toNat
  let hs := c.vb.toNat
  match c.afterVe (c.handle s tm hd) with
  | .error t => .error t
  | .ok rd => match c.afterVe (c.handle s tm hs) with
    | .error t => .error t
    | .ok rs =>
      let d := trecOf rd
      let r := trecOf rs
      let idx := gather || scatter
      let nd := d.dims
      let ns := r.dims
      match c.origins (ns + nd + if idx then 2 else 0) with
      | .error t => .error t
      | .ok ws =>
        let hi := if idx then ((ws[ns + nd]?).getD 0).toNat else 0
        match if idx then (c.handle s tm hi).map some else .ok none with
        | .error t => .error t
        | .ok ri =>
          let conj := c.m 0
          let op := if scatter then bitsAt c.f.mod 2 4 else 0
          let g := bitsAt c.f.x 15 3
          let o := ints ws
          let os := o.take ns
          let od := (o.drop ns).take nd
          let perm := permOf c.f.x nd
          let idxBad := match ri with
            | some q => let q := trecOf q; q.kind == 1 || q.dims != 1 || q.fmt.code != 7
            | none => false
          let shape := ns != nd || !permOk c.f.x nd || (idx && decide (g ≥ nd))
            || (List.range nd).any (fun k => !(idx && k == g) && at0 d.box k != at0 r.box (at0 perm k))
            || (scatter && d.padded) || scaledBad d (at0i od 0) (at0 d.box 0)
          guardTrap (d.kind == 1) (badHandle 2 hd) <|
          guardTrap (r.kind == 1) (badHandle 2 hs) <|
          guardTrap idxBad (badHandle 2 hi) <|
          guardTrap shape (badHandle 3 hd) <|
          guardTrap (formatsBad r d conj op) (badHandle 4 hd) <|
          match c.buoyChecks (c.m 1) none s with
          | some t => .error t
          | none =>
            let snaps := [rd, rs] ++ ri.toList
            let (key, s) := c.push tm snaps ws os od (at0i o (ns + nd + 1)) [] false s
            .ok (c.ticketTo key tm.ticket s)

/-- The commands over one record: CPYF, CPYPF, CPYRC and CATOM (11 R251 to R254). -/
def Ctx.issueOneRec (c : Ctx) (s : State) : Except Trap State := c.withTeam s fun tm =>
  let h := c.va.toNat
  match c.afterVe (c.handle s tm h) with
  | .error t => .error t
  | .ok rc =>
    let r := trecOf rc
    match c.origins r.dims with
    | .error t => .error t
    | .ok ws =>
      let o := ints ws
      let atom := match c.i with | .catom _ => true | _ => false
      let fill := match c.i with | .cpyf _ => true | _ => false
      let op := bitsAt c.f.mod 2 4
      let fmt := r.fmt.code
      let atomBad := atom && (!([7, 8, 9, 0x0A, 0x0D, 0x0E].contains fmt) || op == 15
        || (fmt < 0x0B && 11 ≤ op && op ≤ 13) || (decide (fmt ≥ 0x0B) && decide (op < 11) && op != 8))
      let shape := if fill then scaledBad r (at0i o 0) (at0 r.box 0) else r.padded
      guardTrap (r.kind == 1 || (!fill && baseMode r.base != 0)) (badHandle 2 h) <|
      guardTrap shape (badHandle 3 h) <|
      guardTrap atomBad (badHandle 4 h) <|
      match c.buoyChecks (c.m 1) (if atom then some c.vb.toNat else none) s with
      | some t => .error t
      | none =>
        let (key, s) := c.push tm [rc] ws o o 0 [] false s
        .ok (c.ticketTo key tm.ticket s)

/-- CPY (11 R246). -/
def execCpy (f : FA128) (s : State) : Host.Outcome State Fault Refusal :=
  issueKeyed (.cpy f) (fun c s => c.issueCopy false false s) s
/-- CPYG (11 R249). -/
def execCpyg (f : FA128) (s : State) : Host.Outcome State Fault Refusal :=
  issueKeyed (.cpyg f) (fun c s => c.issueCopy true false s) s
/-- CPYS (11 R249, R250). -/
def execCpys (f : FA128) (s : State) : Host.Outcome State Fault Refusal :=
  issueKeyed (.cpys f) (fun c s => c.issueCopy false true s) s
/-- CPYF (11 R251). -/
def execCpyf (f : FA128) (s : State) : Host.Outcome State Fault Refusal :=
  issueKeyed (.cpyf f) (fun c s => c.issueOneRec s) s
/-- CPYPF (11 R252). -/
def execCpypf (f : FA128) (s : State) : Host.Outcome State Fault Refusal :=
  issueKeyed (.cpypf f) (fun c s => c.issueOneRec s) s
/-- CPYRC (11 R253). -/
def execCpyrc (f : FA128) (s : State) : Host.Outcome State Fault Refusal :=
  issueKeyed (.cpyrc f) (fun c s => c.issueOneRec s) s
/-- CATOM (11 R254). -/
def execCatom (f : FA128) (s : State) : Host.Outcome State Fault Refusal :=
  issueKeyed (.catom f) (fun c s => c.issueOneRec s) s

/-- The converted elements of a drain and its scale codes, row by row: 32 elements and a code a row (10 R226). -/
def drainData (d : Drained) (rm seed : Nat) (sat : Bool) (rows : List Nat) : List Nat :=
  (List.range 32).flatMap fun i => let (code, es) := drainRow d rm seed sat i (rows.getD i 0); es ++ [code]

/-- A drain's source is read and its tile operation entered: the elements, their poison and the operation's key (10 R227, R232). -/
def Inst.drainTake (n : Inst) (d : Drained) (s : State) : List Nat × Bool × Nat × State :=
  let x := n.lead.f
  let ((rows, bad), s) := n.drainRead d s
  let (op, s) := n.drainZero d s
  let key := s.fresh
  let s := { s.modCore n.core (fun c => { c with tileOps := c.tileOps ++ [{ op with key := key }] }) with fresh := key + 1 }
  (drainData d (trmOf x) n.lead.ve.toNat (bitAt x.x 21) rows, bad, key, s)

/-- A drain's command and its tile operation know each other, and the command its team tiles: it goes on once the operation takes
effect, with the poison found until then (10 R227, R232, 13 R293). -/
def Inst.drainOf (n : Inst) (d : Drained) (op key : Nat) (s : State) : State :=
  let s := s.modCore n.core fun c => { c with tileOps := c.tileOps.map fun o => if o.key = op then { o with cmd := some key } else o }
  s.modCmd n.core key fun x =>
    { x with tiles := d.tiles.map (· - n.tm.slot * (s.core n.core).cfg.tiles), source := some op }

/-- The ticket of an instance's command to every participant (10 R230). -/
def Inst.tickets (n : Inst) (key ticket : Nat) (s : State) : State :=
  n.parts.foldl (fun s c => c.ticketTo key ticket s) s

/-- Row and column origins of DRAIN.H (10 R230). -/
def drainOrigins (vb : Word) (dims : Nat) : List Int :=
  ([signedOf 16 (bitsAt vb.toNat 16 16), signedOf 16 (bitsAt vb.toNat 0 16), 0, 0, 0]).take (max dims 2)

/-- DRAIN in the handle form (10 R226, R227, R230). The handle's checks stand between those of the source that need no
destination and the conversion's (log 21). -/
def execDrainH (f : FA128) (s : State) : Host.Outcome State Fault Refusal :=
  issueInsts (.drainH f) (fun n s =>
    let c := n.lead
    let h := c.va.toNat
    match n.drainPlan none false s with
    | .error t => .error t
    | .ok _ => match c.handle s n.tm h with
      | .error t => .error t
      | .ok rc =>
        let r := trecOf rc
        if r.kind = 1 then .error (badHandle 2 h)
        else match n.drainPlan (some r.fmt) r.sc s with
          | .error t => .error t
          | .ok d =>
            let od := drainOrigins c.vb r.dims
            let op := if bitAt c.f.x 25 then (if isIntFmt r.fmt.code then 1 else 7) else 0
            guardTrap (scaledBad { r with padlo := [], padhi := [] } (at0i od 0) 32) (badHandle 3 h) <|
            guardTrap (!opAllowed op r.fmt.code) (badHandle 4 h) <|
            match c.buoyChecks false none s with
            | some t => .error t
            | none =>
              let (es, bad, op, s) := n.drainTake d s
              let (key, s) := c.push n.tm [rc] [] [] od 0 es bad s
              .ok (n.tickets key n.tm.ticket (n.drainOf d op key s))) s

/-- DRAIN in the route form (10 R231, 27 R497). -/
def execDrainRoute (f : FA128) (s : State) : Host.Outcome State Fault Refusal :=
  issueInsts (.drainRoute f) (fun n s =>
    let c := n.lead
    let h := c.va.toNat
    match n.drainPlan none false s with
    | .error t => .error t
    | .ok _ => match c.handle s n.tm h with
      | .error t => .error t
      | .ok rc =>
        let t := rtabOf rc
        if bitsAt rc.toNat 156 4 != 1 then .error (badHandle 2 h)
        else match n.drainPlan (some { code := t.fmt }) false s with
          | .error e => .error e
          | .ok d =>
            if c.vb.toNat ≥ t.n then .error (badHandle 3 h)
            else
              let (es, bad, op, s) := n.drainTake d s
              let (key, s) := c.push n.tm [rc] [] [] [] 0 es bad s
              let s := n.drainOf d op key s
              let failed := match tfind n.tm.routes (h % 256) with | some r => r.failed | none => false
              let s := if failed then failCmd n.core key 1 s else s
              .ok (n.tickets key n.tm.ticket s)) s

/-- CPYQ's state of a command (11 R259). -/
def CmdState.code : CmdState → Nat | .queued => 0 | .active => 1 | .parked => 2 | .stalled => 3

/-- The command of a team with a ticket. -/
def ticketCmd (s : State) (core team ticket : Nat) : Option (Nat × Command) :=
  (teamCmds s core team).find? fun e => e.2.ticket == ticket

/-- CPYQ's answer: the state word and c (11 R259). -/
def cmdStatus (s : State) (team : Nat) (tm : Team) (ticket : Nat) : Nat × Nat :=
  match ticketCmd s tm.core team ticket with
  | some (_, x) => (x.state.code, if x.state == .queued then 0 else x.c)
  | none => match tm.fails.reverse.find? fun e => e.ticket == ticket with
    | some e => (e.st + 256 * e.reason, e.c)
    | none => (7, 0)

/-- CPYQ (11 R259). -/
def execCpyq (f : FA128) (s : State) : Host.Outcome State Fault Refusal :=
  issueKeyed (.cpyq f) (fun c s => c.withTeam s fun tm =>
    let (w, n) := cmdStatus s c.t.team tm c.va.toNat
    .ok (c.write [(c.f.vd, BitVec.ofNat 32 w), (c.f.vd + 1, BitVec.ofNat 32 n)] s)) s

/-- CPYCAN (11 R260). -/
def execCpycan (f : FA128) (s : State) : Host.Outcome State Fault Refusal :=
  issueKeyed (.cpycan f) (fun c s => c.withTeam s fun tm =>
    let (w, _) := cmdStatus s c.t.team tm c.va.toNat
    let s := match ticketCmd s tm.core c.t.team c.va.toNat with | some (k, _) => cancelCmd tm.core k s | none => s
    .ok (c.put (BitVec.ofNat 32 (w % 16)) s)) s

/-- CFENCE (12 R266, R267): the thread's commands that are not gone and have an access of a BEFORE kind hold back its later
ones. Those acquire where BEFORE holds reads; one of device scope also acquires, for the reads behind it, what the thread itself has
acquired (R263; log 136). -/
def execCfence (f : FA96) (s : State) : Host.Outcome State Fault Refusal :=
  issueKeyed (.cfence f) (fun c s =>
    let before := bitsAt c.f.mod 0 2
    let scope := bitsAt c.f.mod 4 3
    let mine := (s.core c.t.core).cmds.filter fun e => e.2.thread == c.tid && (cmdKinds e.2.instr &&& before) != 0
    let after := bitsAt c.f.mod 2 2
    let ever := (s.thread? c.tid).elim 0 (·.cmdKinds) &&& before
    let fence : Fence :=
      { cmds := mine.map (·.1), after := after,
        acq := if bitAt before 0 || (decide (scope ≥ 4) && bitAt after 0) then scope else 0, rel := if bitAt ever 1 then scope else 0 }
    let s := s.modThread c.tid fun t => { t with fences := t.fences ++ [fence] }
    .ok (c.fly { cls := .v, ready := c.clk, flag := c.flag, regs := [], poison := [], sreg := none,
                 wait := .accept s.fresh (c.clk + 4) } s)) s

end Sys2Proof.Machine
end

