-- ==== Sys2Proof/Machine/Ctrl.lean ====
section
/-! DEFINITION. The meanings of the control-flow, special-register and instruction-memory instructions (06 R128 to
R140). BKPT stands in Debug.lean. -/

namespace Sys2Proof.Machine

open Sys2Proof

/-- The PC of the issuing thread set. -/
def Ctx.jump (c : Ctx) (a : VAddr) (s : State) : State := s.modThread c.tid fun t => { t with pc := a }

/-- A taken transfer: the target is checked, then the PC set; a backward one may load the loop buffer (03 R64, 06 R129,
07 R143). -/
def Ctx.transfer (c : Ctx) (a : VAddr) (s : State) : Except Trap State :=
  match checkTarget c.t.core a s with
  | (some tr, _) => .error tr
  | (none, s) => .ok (c.jump a (loadLoop c.t.core c.pc a s))

/-- The target of BRA and CALL (03 R74). -/
def Ctx.relTarget (c : Ctx) : VAddr := BitVec.ofInt 56 ((c.pc.toNat : Int) + 4 * signedOf 24 c.f.imm)
/-- The target in the VA pair (06 R129). -/
def Ctx.pairTarget (c : Ctx) : VAddr := (c.p c.f.va).setWidth 56
/-- A link written to a pair from register `k` (06 R130). -/
def Ctx.link (c : Ctx) (k : Nat) (s : State) : State :=
  c.write [(k, lo32 (addr64 c.next)), (k + 1, hi32 (addr64 c.next))] s

/-- A transfer that writes a link pair; a failed one writes none (06 R130). -/
def Ctx.call (c : Ctx) (k : Nat) (a : VAddr) (s : State) : Except Trap State :=
  match c.transfer a s with
  | .error t => .error t
  | .ok s => .ok (c.link k s)

/-- BRA (06 R129). -/
def execBra (f : FB64) (s : State) : Host.Outcome State Fault Refusal :=
  issueEach (.bra f) (fun c s => c.transfer c.relTarget s) s
/-- CALL (06 R130). -/
def execCall (f : FB64) (s : State) : Host.Outcome State Fault Refusal :=
  issueEach (.call f) (fun c s => c.call (2 * c.f.bank) c.relTarget s) s
/-- BRX (06 R129). -/
def execBrx (f : FA64) (s : State) : Host.Outcome State Fault Refusal :=
  issueEach (.brx f) (fun c s => c.transfer c.pairTarget s) s
/-- CALLX (06 R130). -/
def execCallx (f : FA64) (s : State) : Host.Outcome State Fault Refusal :=
  issueEach (.callx f) (fun c s => c.call c.f.vd c.pairTarget s) s
/-- RET has the effect of BRX (06 R129). -/
def execRet (f : FA64) (s : State) : Host.Outcome State Fault Refusal :=
  issueEach (.ret f) (fun c s => c.transfer c.pairTarget s) s
/-- ADR (06 R131). -/
def execAdr (f : FI64) (s : State) : Host.Outcome State Fault Refusal :=
  issueEach (.adr f)
    (put64 fun c => addr64 (BitVec.ofInt 56 ((c.pc.toNat : Int) + 4 * signedOf 20 c.f.imm))) s

/-- EXIT: the thread issues nothing further and its exit completes when its flags are 0 (06 R132, 01 R30). -/
def execExit (f : FA64) (s : State) : Host.Outcome State Fault Refusal :=
  issueEach (.exit f) (fun c s => .ok (s.modThread c.tid fun t => { t with conv := .exiting })) s
/-- NOP (06 R132). -/
def execNop (f : FA64) (s : State) : Host.Outcome State Fault Refusal :=
  issueEach (.nop f) (fun _ s => .ok s) s
/-- SLEEP: the next issue is no earlier than clk t + 1 + n (06 R132). -/
def execSleep (f : FI64) (s : State) : Host.Outcome State Fault Refusal :=
  issueEach (.sleep f) (fun c s => .ok (s.modThread c.tid fun t => { t with notBefore := c.clk + 1 + c.f.imm })) s
/-- TRAP raises SOFTWARE (06 R138, R139). -/
def execTrap (f : FI64) (s : State) : Host.Outcome State Fault Refusal :=
  issueEach (.trap f) (fun c _ =>
    .error { cause := 5, detail := c.f.imm % 256, addr := BitVec.ofNat 64 c.f.imm, next := true }) s

/-- The committed value of a special register; a 32-bit one in the low half (01 R15). -/
def Thread.sreg (t : Thread) (clk sel : Nat) : DWord :=
  let w (x : Word) : DWord := x.setWidth 64
  match sel with
  | 0x00 => w t.lane | 0x01 => w t.wave | 0x02 => w t.teamIdx | 0x03 => w t.teamDim | 0x04 => w t.gridId
  | 0x05 => w t.cohort | 0x06 => w t.coreNo | 0x07 => w t.clusterNo | 0x08 => w t.dieNo | 0x09 => w t.depth
  | 0x0A => w t.gang | 0x10 => w t.trapCause | 0x11 => t.trapPc | 0x12 => t.trapAddr | 0x13 => w t.trapMask
  | 0x14 => t.epc | 0x20 => BitVec.ofNat 64 clk | 0x21 => t.retired | 0x28 => t.terms | 0x29 => t.termCyc
  | 0x2A => t.termSkew | _ => 0

/-- A special register as an instruction reads it: with a SETS in flight, the old value or a new one (06 R134; log 2). -/
def Thread.readSreg (t : Thread) (count tid clk sel : Nat) : DWord :=
  match t.flight.filterMap fun e => match e.sreg with | some (k, v) => if k = sel then some v else none | none => none with
  | [] => t.sreg clk sel
  | vs => (t.sreg clk sel :: vs).getD (Config.staleChoice count tid (256 + sel) % (vs.length + 1)) 0

/-- GETS (06 R133). -/
def execGets (f : FA64) (s : State) : Host.Outcome State Fault Refusal :=
  issueEach (.gets f) (fun c s =>
    let sel := c.f.mod % 256
    let v := c.t.readSreg c.count c.tid c.clk sel
    .ok (if sregWide sel then c.putP v s else c.put (lo32 v) s)) s

/-- SETS: the write takes place at the instruction's completion (06 R134). -/
def execSets (f : FA64) (s : State) : Host.Outcome State Fault Refusal :=
  issueEach (.sets f) (fun c s =>
    let sel := c.f.mod % 256
    let v : DWord := if sregWide sel then c.p c.f.va else c.va.setWidth 64
    .ok (c.fly { cls := .v, ready := c.clk, flag := c.flag, regs := [], poison := [], sreg := some (sel, v) } s)) s

/-- ERET: EPC is read and checked as a target, then trap mode is left (06 R140). -/
def execEret (f : FA64) (s : State) : Host.Outcome State Fault Refusal :=
  issueEach (.eret f) (fun c s =>
    let epc : VAddr := (c.t.readSreg c.count c.tid c.clk 0x14).setWidth 56
    match checkTarget c.t.core epc s with
    | (some tr, _) => .error tr
    | (none, s) => .ok (leaveTrap c.tid epc s)) s

/-- The cores an ICINV of a scope affects: of the issuing partition (06 R135). -/
def icinvCores (s : State) (core scope : Nat) : List Nat :=
  match scope with
  | 0 => [core]
  | _ =>
    (List.range 768).filter fun k =>
      partOfCore s k == partOfCore s core &&
        (match scope with | 1 => clusterOf k == clusterOf core | 2 => dieOf k == dieOf core | _ => true)

/-- A byte range [a, a + n) modulo 2^56 that overlaps [b, b + m). -/
def overlaps56 (a n b m : Nat) : Bool :=
  let d := (b + 2 ^ 56 - a % 2 ^ 56) % 2 ^ 56
  decide (d < n) || decide (d + m > 2 ^ 56) && n != 0

/-- The physical lines of a virtual range in a partition, by walks of its 64 KiB pages; pages without a translation
have none. -/
def rangePages (d p a n : Nat) (s : State) : List (Nat × Nat) :=
  if n = 0 then []
  else
    let first := a / 65536
    (List.range ((a + n - 1) / 65536 - first + 1)).filterMap fun k =>
      let va := (first + k) * 65536 % 2 ^ 56
      match (walk d p va s).1 with
      | .ok e => some (va, leafPa e va)
      | .error _ => none

/-- Drop the visitor copies of a virtual range's lines from a die (06 R135, 17 R346). -/
def dropRange (p d a n : Nat) (s : State) : State :=
  (rangePages d p a n s).foldl (fun s (pg : Nat × Nat) =>
    (visLinesOf s d p).foldl (fun s l =>
      let pa := 128 * l
      if pa / 65536 = pg.2 / 65536 ∧ overlaps56 a n (pg.1 + pa % 65536) 128 then visDrop d l s else s) s) s

/-- ICINV (06 R135): instruction-cache blocks of the range dropped on the affected cores, the range's visitor lines
dropped from their dies, every loop buffer emptied. All of it is done at issue; the set flag reports it later. No thread goes on with an old block that it
was fetching from (DESIGN CHOICE, log 132). -/
def execIcinv (f : FA64) (s : State) : Host.Outcome State Fault Refusal :=
  issueEach (.icinv f) (fun c s =>
    let a := (c.p c.f.va).toNat % 2 ^ 56
    let n := c.vb.toNat
    let cores := icinvCores s c.t.core (bitsAt c.f.mod 0 2)
    let s := cores.foldl (fun s k => s.modCore k fun v =>
      { v with icache := v.icache.filter (fun e => !overlaps56 a n (32 * e.1) 32), loopBuf := [] }) s
    let p := (partOfCore s c.t.core).getD 0
    let dies := (List.range 4).filter fun d => cores.any fun k => dieOf k == d
    let s := dies.foldl (fun s d => dropRange p d a n s) s
    .ok (c.write [] s)) s

end Sys2Proof.Machine
end

