-- ==== Sys2Proof/Machine/Gang.lean ====
section
/-! DEFINITION. The gang form of MMA and MMAC: the rendezvous latches, their failures and the firing of a pass (09 R204 to
R206, 10 R224, R225). -/

namespace Sys2Proof.Machine

open Sys2Proof

/-- GANG-INVALID (10 R225). -/
def gangTrap (detail : Nat) (t : Thread) : Trap := { cause := 9, detail := detail, addr := t.gangSample.setWidth 64 }

/-- A held thread takes a trap at its MMA.G. -/
def trapHeld (tr : Thread → Trap) (tid : Nat) (s : State) : State :=
  match s.thread? tid with
  | none => s
  | some t => match t.held with
    | none => s
    | some i => enterTrap tid t.pc (nextStart s t.core t.pc (fldsOf i).words) (tr t) (unhold tid s)

/-- Threads take a trap, in order. -/
def trapAll (tr : Thread → Trap) (ts : List (Nat × Thread)) (s : State) : State := ts.foldl (fun s e => trapHeld tr e.1 s) s

/-- The waves that a mask names. -/
def maskWaves (m : Nat) : List Nat := (List.range 32).filter fun w => bitAt m w

/-- A gang mask that a wave may arrive with (10 R225, detail 0x01). -/
def gangMaskOk (tm : Team) (wave m : Nat) : Bool :=
  let n := (maskWaves m).length
  2 ≤ n && n ≤ 6 && bitAt m wave && decide (m < 2 ^ tm.waves)

/-- Set the latches of a team. -/
def putLatches (team : Nat) (ls : List Latch) (s : State) : State := s.modTeam team fun t => { t with latches := ls }

/-- The threads held in an open latch: those of its waves in HELD-GANG. -/
def latchThreads (s : State) (team : Nat) (l : Latch) : List (Nat × Thread) :=
  s.threads.filter fun e => e.2.team == team && bitAt l.mask e.2.wave.toNat && e.2.conv == .heldGang

/-- Open latches of which a member that has not arrived has no live thread left fail (09 R205). -/
def failLatches (team : Nat) (s : State) : State :=
  match s.team? team with
  | none => s
  | some tm =>
    let dead (l : Latch) : Bool := (maskWaves l.mask).any fun w => !l.waves.contains w && (waveThreads s team w).isEmpty
    let gone := tm.latches.filter dead
    let s := putLatches team (tm.latches.filter fun l => !dead l) s
    gone.foldl (fun s l => trapAll (gangTrap 5) (latchThreads s team l) s) s

/-- The members of a latch's pass: the contexts of each wave's threads, in ascending wave number. -/
def latchMembers (s : State) (team : Nat) (l : Latch) : List (List (Nat × Thread)) :=
  (maskWaves l.mask).map fun w => sortOn (fun (e : Nat × Thread) => e.2.lane.toNat) (waveThreads s team w)

/-- What the checks of a firing give a member: nothing to do, a trap, or its plan. -/
inductive MemberCheck where
  | empty
  | bad (tr : Trap)
  | good (n : Inst) (p : Plan)

/-- The instance of a member at its firing, if it has a participant (10 R224). -/
def memberInst (s : State) (tm : Team) (i : Instr) (ts : List (Nat × Thread)) : Option Inst :=
  match instParts i (ts.map fun e => ctxOf i (fldsOf i) .v e.1 e.2 s) with
  | [] => none
  | l :: r => some { lead := l, parts := l :: r, core := l.t.core, team := l.t.team, tm := tm }

/-- The core tiles that a member names as operands, and as accumulator: a pair for CFP64 (10 R208, R222). -/
def Inst.operands (n : Inst) (s : State) : List Nat :=
  [taOf n.lead.f + n.lead.va.toNat % 64, tbOf n.lead.f].filterMap fun t => (n.tile s t).toOption
def Inst.targets (n : Inst) (cplx : Bool) (s : State) : List Nat :=
  let d := tdOf n.lead.f + bitsAt n.lead.va.toNat 8 6
  let wide := cplx && (match n.tile s (taOf n.lead.f + n.lead.va.toNat % 64) with
    | .ok a => tagFmt (tagAt s n.core a) == 0x10
    | .error _ => false)
  (if wide then [d, d + 1] else [d]).filterMap fun t => (n.tile s t).toOption

/-- What the checks of a firing give each member. An accumulator that is another member's, or an operand of the pass, fails R222,
whatever else is wrong with either member (10 R224). -/
def memberChecks (s : State) (cplx : Bool) (ns : List (Option Inst)) : List MemberCheck :=
  let ops := (ns.filterMap id).flatMap fun n => n.operands s
  (numbered ns).map fun e => match e.2 with
    | none => .empty
    | some n =>
      let others := (numbered ns).flatMap fun x => if x.1 = e.1 then [] else match x.2 with | some m => m.targets cplx s | none => []
      match n.leadTrap with
      | some t => .bad t
      | none => match n.plan cplx (others ++ ops) s with | .error t => .bad t | .ok p => .good n p

/-- A released thread of a pass retires; a participant's flag waits for the step (10 R224). -/
def retireMember (i : Instr) (key : Nat) (s : State) (e : Nat × Thread) : State :=
  let c := ctxOf i (fldsOf i) .v e.1 e.2 s
  let s := unhold e.1 s
  match instRole i c with
  | .traps tr => enterTrap c.tid c.pc c.next tr s
  | .idle => retireIn c none s
  | .takes => c.waitStep key (retireIn c c.flag s)

/-- The members' runs and tile operations of a pass that passed its checks; the tags are set, and B is read once (09 R206). -/
def passMembers (cplx : Bool) : Option Bool → List MemberCheck → State → List (StepMember × TileOp) × State
  | _, [], s => ([], s)
  | b, .good n p :: r, s =>
    let op := s.fresh
    let s := { s with fresh := op + 1 }
    let (bad, s) := match b with
      | some bad => (bad, s)
      | none => let (e, s) := scrubTile n.core p.b s; (e.bad, s)
    let (mo, s) := n.member cplx p op bad s
    let s := p.setTags n.core s
    let (rest, s) := passMembers cplx (some bad) r s
    (mo :: rest, s)
  | b, _ :: r, s => passMembers cplx b r s

/-- A pass has a packed operand. -/
def MemberCheck.packed : MemberCheck → Bool | .good _ p => p.packed | _ => false

/-- An open latch is complete. -/
def Latch.full (l : Latch) : Bool := (maskWaves l.mask).all fun w => l.waves.contains w

/-- MMAC.G rather than MMA.G. -/
def isMmac : Instr → Bool | .mmacG _ => true | _ => false

/-- Fire a complete latch: when a port, the ENG unit and the step queue accept the pass, it is queued as one step, or its
members' threads trap (09 R205, R206, 10 R224, R225). -/
def fireLatch (team k : Nat) (s : State) : State :=
  match s.team? team with
  | none => s
  | some tm => match tm.latches[k]? with
    | none => s
    | some l =>
      let core := tm.core
      let c := s.core core
      let groups := latchMembers s team l
      match (groups.flatMap id).head?.bind (·.2.held) with
      | none => s
      | some i =>
        if !l.full || c.ports.length ≥ 4 || !c.accepts (s.clkOf core) .eng || !queueRoom s core 1 || !tm.issues then s
        else
          let ts := groups.flatMap id
          let rank := setRank (ts.any fun e => e.2.starved) (ts.foldl (fun m e => min m (e.2.key (detMode s core))) (2 ^ 64)) l.addr
          let s := putLatches team (tm.latches.eraseIdx k) s
          let s := (s.putCore core (c.take (s.clkOf core) rank .eng)).bumpCore core 0x0050 1
          let cplx := isMmac i
          let ns := groups.map (memberInst s tm i)
          let s := (ns.filterMap id).foldl (fun s n => n.readLoads s) s
          let ms := memberChecks s cplx ns
          if ms.any fun m => match m with | .bad _ => true | _ => false then
            (List.range ms.length).foldl (fun s j =>
              let g := groups.getD j []
              match ms.getD j .empty with
              | .bad tr => trapAll (fun _ => tr) g s
              | _ => trapAll (gangTrap 6) g s) s
          else
            let (mo, s) := passMembers cplx none ms s
            let (key, s) := acceptStep core team (ms.any MemberCheck.packed) mo s
            ts.foldl (retireMember i key) s

/-- A wave's arrival at a latch, when every live thread of it is held at one address with one sampled mask (10 R224,
R225). -/
def gangWave (team wave : Nat) (s : State) : State :=
  let ts := waveThreads s team wave
  match s.team? team, ts with
  | some tm, (_, t) :: _ =>
    let m := t.gangSample.toNat
    let arrived := tm.latches.any fun l => l.waves.contains wave
    if arrived || !(ts.all fun e => e.2.conv == .heldGang) then s
    else if !(ts.all fun e => e.2.pc == t.pc && e.2.gangSample == t.gangSample) then trapAll (gangTrap 2) ts s
    else if !gangMaskOk tm wave m then trapAll (gangTrap 1) ts s
    else match tm.latches.findIdx? fun l => l.mask &&& m != 0 with
      | none =>
        failLatches team (putLatches team (tm.latches ++ [{ mask := m, addr := t.pc, waves := [wave] }]) s)
      | some k =>
        let l := tm.latches.getD k { mask := 0, addr := 0, waves := [] }
        if l.mask != m then trapAll (gangTrap 3) ts s
        else if l.addr != t.pc then trapAll (gangTrap 4) ts s
        else
          let l := { l with waves := nadd l.waves wave }
          fireLatch team k (putLatches team (tm.latches.set k l) s)
  | _, _ => s

/-- A thread enters HELD-GANG and samples GANG (10 R224). -/
def enterGang (i : Instr) (tid : Nat) (s : State) : State :=
  match s.thread? tid with
  | none => s
  | some t =>
    let g := lo32 (t.readSreg s.count tid (s.clkOf t.core) 0x0A)
    let s := arrive .heldGang i tid s
    match s.thread? tid with
    | some t' =>
      if t'.conv == .heldGang then
        let s := s.putThread tid { t' with gangSample := g }
        if t'.task.isSome then trapHeld (gangTrap 1) tid s else s
      else s
    | none => s

/-- The waves of the issue set's members. -/
def issueWaves (s : State) : List (Nat × Nat) :=
  s.issue.foldl (fun l tid => match s.thread? tid with
    | some t => let g := (t.team, t.wave.toNat); if l.contains g then l else l ++ [g]
    | none => l) []

/-- The members of a set reach MMA.G; their waves arrive at their latches (10 R224). -/
def gangSet (i : Instr) (s : State) : State :=
  let ws := issueWaves s
  let s := s.issue.foldl (fun s tid => enterGang i tid s) s
  { ws.foldl (fun s g => gangWave g.1 g.2 s) s with issue := [] }

/-- MMA.G (10 R224). -/
def execMmaG (f : FA128) (s : State) : Host.Outcome State Fault Refusal := .next (gangSet (.mmaG f) s)
/-- MMAC.G (10 R224). -/
def execMmacG (f : FA128) (s : State) : Host.Outcome State Fault Refusal := .next (gangSet (.mmacG f) s)

/-- GANG_ARRIVAL (09 R204): the wave of a held thread arrives. -/
def execGangArrival (thread : Nat) (s : State) : Host.Outcome State Fault Refusal :=
  .next (match s.thread? thread with
  | some t => gangWave t.team t.wave.toNat s
  | none => s)
/-- GANG_FIRE (09 R205). -/
def execGangFire (team latch : Nat) (s : State) : Host.Outcome State Fault Refusal := .next (fireLatch team latch s)

end Sys2Proof.Machine
end

