-- ==== Sys2Proof/Machine/Engine.lean ====
section
/-! DEFINITION. The matrix engine's queue and array: starting a run, its end, the comparison of its checksums, reruns and
the completion of a step (09 R192 to R206). -/

namespace Sys2Proof.Machine

open Sys2Proof

/-- A pending tile operation that keeps a step's member from starting: an earlier one that it must follow, other than an
earlier step whose accumulator it reads (09 R193). -/
def startBlocked (c : Core) (m : StepMember) : Bool :=
  match c.tileOps.find? fun o => o.key == m.op with
  | none => false
  | some o => (c.tileOps.takeWhile fun b => b.key != m.op).any fun b =>
      if b.step then (o.reads.filter fun t => !o.writes.contains t).any fun t => b.writes.contains t else b.clashes o

/-- A member of a step. -/
def memberAt (c : Core) (key k : Nat) : Option (EngStep × StepMember) :=
  (c.steps.find? fun x => x.key == key).bind fun x => (x.members[k]?).map fun m => (x, m)

/-- The run that may start next: a rerun first, else the next member of the first step that has not run, one without members taking
its turn as well (09 R197, R202, R206). -/
def nextRun (c : Core) (clk : Nat) : Option (Nat × Nat × Bool) :=
  match c.reruns with
  | (k, m) :: _ => some (k, m, true)
  | [] => match c.steps.find? fun x => !x.todo.isEmpty || (x.members.isEmpty && x.ended.isNone) with
    | none => none
    | some x => match x.todo with
      | [] => if x.ready ≤ clk then some (x.key, 0, false) else none
      | m :: _ =>
        if x.todo.length < x.members.length then some (x.key, m, false)
        else if x.ready ≤ clk && !(x.members.any (startBlocked c)) then some (x.key, m, false)
        else none

/-- Replace a step of the queue. -/
def putStep (c : Core) (x : EngStep) : Core := { c with steps := c.steps.map fun y => if y.key == x.key then x else y }

/-- A run starts on an idle array; a pass without a participant runs for no time (09 R197, 10 R224). -/
def startRun (core : Nat) (s : State) : State :=
  let c := s.core core
  let clk := s.clkOf core
  match c.onArray, nextRun c clk with
  | none, some (key, k, again) => match memberAt c key k with
    | some (x, m) =>
      let r : EngRun := { step := key, member := k, start := clk, stop := clk + m.run, rerun := again }
      let c := if again then { c with reruns := c.reruns.drop 1 } else putStep c { x with todo := x.todo.drop 1 }
      s.putCore core { c with onArray := some r }
    | none => s.putCore core { c with
        reruns := c.reruns.filter fun y => y.1 != key,
        steps := c.steps.map fun y => if y.key == key && y.members.isEmpty then { y with ended := some clk } else y }
  | _, _ => s

/-- STEP_START (09 R197). -/
def execStepStart (core : Nat) (s : State) : Host.Outcome State Fault Refusal := .next (startRun core s)

/-- A run ends C_run clk after its start and frees the array (09 R197, R200); ENGBUSY has counted its cycles as they passed. -/
def endRun (core : Nat) (s : State) : State :=
  let c := s.core core
  match c.onArray with
  | none => s
  | some r =>
    if s.clkOf core < r.stop then s
    else match memberAt c r.step r.member with
      | none => s.putCore core { c with onArray := none }
      | some (x, m) =>
        let x := { x with members := x.members.set r.member { m with runs := m.runs + 1 },
                          ended := if x.todo.isEmpty then some r.stop else none }
        let s := s.putCore core { putStep c x with onArray := none, ended := c.ended ++ [r] }
        s.bumpCore core 0x0120 m.idle

/-- STEP_RUN_END (09 R197). -/
def execStepRunEnd (core : Nat) (s : State) : Host.Outcome State Fault Refusal := .next (endRun core s)

/-- The tiles whose content rests on a result, after one more operation (09 R202, R203). -/
def taint (tiles : List Nat) (o : TileOp) : List Nat :=
  if o.reads.any tiles.contains && !o.drains then o.writes.foldl nadd tiles else tiles.filter fun t => !o.writes.contains t

/-- The keys of the operations after a given one that read its result, directly or through others (09 R202, R203). -/
def dependents (c : Core) (key : Nat) : List Nat :=
  match c.tileOps.dropWhile fun o => o.key != key with
  | [] => []
  | o :: r => (r.foldl (fun (a : List Nat × List Nat) x =>
      (taint a.1 x, if x.reads.any a.1.contains then a.2 ++ [x.key] else a.2)) (o.writes, [])).2

/-- The step and member number of an operation key, if it is a member that has run or runs. -/
def runOf (c : Core) (op : Nat) : Option (Nat × Nat) :=
  (c.steps.flatMap fun x => (List.range x.members.length).filterMap fun k =>
    match x.members[k]? with
    | some m => if m.op = op && !x.todo.contains k then some (x.key, k) else none
    | none => none).head?

/-- The grid identifier and team index of a team. -/
def teamIds (s : State) (team : Nat) : Nat × Nat :=
  match s.team? team with | some t => (t.gridId.toNat, t.idx) | none => (0, 0)

/-- A lasting mismatch: results that rest on the member are poisoned, a record is sent and the core is withdrawn (09 R203,
23 R443, R444). -/
def lastingMismatch (core : Nat) (r : EngRun) (m : StepMember) (s : State) : State :=
  let c := s.core core
  let bad := m.op :: dependents c m.op
  let tile := match c.tileOps.find? fun o => o.key == m.op with | some o => o.writes.headD 0 | none => 0
  let team := match c.steps.find? fun x => x.key == r.step with | some x => x.team | none => 0
  let s := s.putCore core { c with tileOps := c.tileOps.map (fun o => if bad.contains o.key then { o with poi := true } else o),
                                   withdrawn := true }
  let s := s.bumpCore core 0x0130 1
  match partOfCore s core with
  | none => s
  | some p => postFault p (hwErrorWords 4 (256 + 512) (faultLoc core) tile (teamIds s team).1 (teamIds s team).2) s

/-- The oldest run that waits for its comparison is compared 8 clk after its end (09 R201 to R203). Any mismatch of a rerun is
lasting, also of a step rerun because of an earlier one (DESIGN CHOICE, log 140). -/
def compareRun (core : Nat) (mismatch : Bool) (s : State) : State :=
  let c := s.core core
  match c.ended with
  | [] => s
  | r :: rest =>
    if s.clkOf core < r.stop + 8 then s
    else
      let c := { c with ended := rest }
      match mismatch, memberAt c r.step r.member with
      | true, some (_, m) =>
        if r.rerun then lastingMismatch core r m (s.putCore core c)
        else
          let again := (r.step, r.member) :: (dependents c m.op).filterMap (runOf c)
          let again := again.filter fun x => !c.reruns.contains x
          (s.putCore core { c with reruns := c.reruns ++ again }).bumpCore core 0x0128 again.length |> perturb (partOfCore s core)
      | _, _ => s.putCore core c

/-- CHECKSUM_COMPARE (09 R201); whether the residues mismatch is the input. -/
def execChecksumCompare (core : Nat) (mismatch : Bool) (s : State) : Host.Outcome State Fault Refusal :=
  .next (compareRun core mismatch s)

/-- A step is complete 16 clk after its last run, when none of its runs is under way, waits for a comparison or is to be
repeated (09 R197, R202). -/
def stepDone (c : Core) (clk : Nat) (x : EngStep) : Bool :=
  (match x.ended with | some e => decide (e + 16 ≤ clk) | none => false)
    && !(c.ended.any fun r => r.step == x.key) && !(c.reruns.any fun r => r.1 == x.key)
    && !(match c.onArray with | some r => r.step == x.key | none => false)
    && x.members.all fun m => tileTurn c m.op

/-- The flight entries of a thread that wait for a key complete (01 R24). -/
def landWaits (w : FlightWait) (tid : Nat) (s : State) : State :=
  s.modThread tid fun t =>
    (t.flight.filter fun e => e.wait == w).foldl Thread.commit { t with flight := t.flight.filter fun e => e.wait != w }

/-- The counters of the members' threads and of the core (09 R199, R200). -/
def countMember (core : Nat) (m : StepMember) (s : State) : State :=
  let s := m.parts.foldl (fun s k => s.modThread k fun t =>
    { t with terms := t.terms + BitVec.ofNat 64 m.terms, termCyc := t.termCyc + BitVec.ofNat 64 (m.runs * m.run),
             termSkew := t.termSkew + BitVec.ofNat 64 (m.runs * m.skew) }) s
  (s.bumpCore core 0x0110 m.terms).bumpCore core 0x0118 (m.runs * m.skew)

/-- The first complete step of the queue takes effect before the cycle's arrivals and issues: results, poison, flags and counters (09
R197, R199, R200, R203, 07 R159). -/
def completeStep (core : Nat) (s : State) : State :=
  let c := s.core core
  match if c.begun then none else c.steps.find? (stepDone c (s.clkOf core)) with
  | none => s
  | some x =>
    let s := x.members.foldl (fun s m => countMember core m (landTileOp core m.op s)) s
    let s := (x.members.flatMap (·.parts)).foldl (fun s k => landWaits (.step x.key) k s) s
    let s := s.bumpCore core 0x0100 1
    s.modCore core fun c => { c with steps := c.steps.filter fun y => y.key != x.key }

/-- STEP_COMPLETION (09 R197). -/
def execStepCompletion (core : Nat) (s : State) : Host.Outcome State Fault Refusal := .next (completeStep core s)

/-- The events of the tile engine (09 R197, R201). -/
inductive EngineEvent where
  | runEnd
  | start
  | compare
  | complete
  deriving DecidableEq, Repr

/-- An event of the engine that is due by a clk: the run on the array has ended, a run may start, a comparison is overdue,
or a step is complete. -/
def engineEvent (s : State) (core : Nat) : Option EngineEvent :=
  let c := s.core core
  let clk := s.clkOf core
  if (match c.onArray with | some r => decide (r.stop ≤ clk) | none => false) then some .runEnd
  else if c.onArray.isNone && (nextRun c clk).isSome then some .start
  else if (match c.ended with | r :: _ => decide (r.stop + 8 ≤ clk) | [] => false) then some .compare
  else if c.steps.any (stepDone c clk) then some .complete
  else none

/-- The due events of the engine happen before the cycle ends: at most `fuel` of them (09 R197, R201). -/
def engineDue (core : Nat) : Nat → State → State
  | 0, s => s
  | n + 1, s => match engineEvent s core with
    | some .runEnd => engineDue core n (endRun core s)
    | some .start => engineDue core n (startRun core s)
    | some .compare => engineDue core n (compareRun core false s)
    | some .complete => engineDue core n (completeStep core s)
    | none => s

/-- What is due in the engine at the start of a cycle: the run on the array ends, steps complete, a run starts (09 R197). -/
def engineBegin (core : Nat) (s : State) : State :=
  startRun core ((List.range 16).foldl (fun s _ => completeStep core s) (endRun core s))

end Sys2Proof.Machine
end

