-- ==== Sys2Proof/Machine/Issue.lean ====
section
/-! DEFINITION. Forming and choosing issue sets, ports and units, fetch arrivals, arrivals at convergence instructions,
and the stall reasons of a cycle (01 R23, 07 R143, R149 to R156). -/

namespace Sys2Proof.Machine

open Sys2Proof

/-- What stands at an address whose fetch block the core holds. -/
def decodedAt (s : State) (core : Nat) (pc : VAddr) : Option Decoded :=
  (heldBlock s core (blockNo pc)).map fun ws => decodeWords (8 - wordNo pc) (ws.drop (wordNo pc))

/-- The first word at an address whose fetch block the core holds. -/
def firstWord (s : State) (core : Nat) (pc : VAddr) : Word :=
  match heldBlock s core (blockNo pc) with | some ws => wordAt ws (wordNo pc) | none => 0

/-- The HELD state that a thread enters at an instruction before it issues there (07 R156, 08 R182, 10 R224, 13 R290). -/
def arrivalOf : Instr → Option Conv
  | .shfl _ | .vote _ | .matchL _ | .redw _ | .scanw _ => some .heldColl
  | .bar _ | .turn _ => some .heldBar
  | .barc _ => some .heldBarc
  | .mmaG _ | .mmacG _ => some .heldGang
  | .bwait _ => some .heldBuoy
  | _ => none

/-- The set flag of an instruction, if it names one (03 R66). -/
def setFlagOf (i : Instr) : Option Nat := if (fldsOf i).set ≤ 11 then some (fldsOf i).set else none

/-- The wait mask and set flag hold no instruction back (01 R23). -/
def Thread.flagsFree (t : Thread) (wait : Nat) (set : Option Nat) : Bool :=
  ((List.range 12).all fun k => !bitAt wait k || tget t.flags k 0 == 0)
    && (match set with | some k => decide (tget t.flags k 0 ≤ 6) | none => true)

/-- The distance and SLEEP hold no instruction back (01 R23, 06 R132). -/
def Thread.distFree (t : Thread) (dist clk : Nat) : Bool :=
  (match t.lastIssue with | some k => decide (k + 1 + dist ≤ clk) | none => true) && decide (t.notBefore ≤ clk)

/-- Whether a thread may issue or arrive at the instruction it stands at, apart from fetch and R23 (07 R149, 24 R466). -/
def Thread.runs (t : Thread) (s : State) : Bool :=
  t.conv == .run && t.halted == .none && !t.haltNext && (match s.team? t.team with | some x => x.issues | none => false)

/-- A thread that needs its fetch block: one that runs or enters its handler, or that a STEP has selected (06 R137, 07 R143, 24
R469). -/
def Thread.fetches (t : Thread) (s : State) : Bool :=
  t.runs s || ((t.conv == .trapEntry || (t.conv == .run && t.stepping))
    && (match s.team? t.team with | some x => x.issues | none => false))

/-- The set flag that a decoded word names. -/
def decodedFlag : Decoded → Option Nat
  | .instr i _ => setFlagOf i
  | _ => none

/-- The conditions of 01 R23 for what stands at a thread's PC. -/
def Thread.ready (t : Thread) (s : State) (d : Decoded) : Bool :=
  let w := (firstWord s t.core t.pc).toNat
  t.flagsFree (bitsAt w 14 12) (decodedFlag d) && t.distFree (bitsAt w 11 3) (s.clkOf t.core)

/-- The target that a control transfer of a thread would fetch (06 R129, R130, R140). -/
def targetOf (s : State) (tid : Nat) (t : Thread) (i : Instr) : Option VAddr :=
  let c := ctxOf i (fldsOf i) .s tid t s
  match i with
  | .bra _ | .call _ => some c.relTarget
  | .brx _ | .callx _ | .ret _ => some c.pairTarget
  | .eret _ => some ((t.readSreg s.count tid c.clk 0x14).setWidth 56)
  | _ => none

/-- A transfer waits for its target's fetch, which a promotion stalls (18 R372). -/
def targetStalls (s : State) (tid : Nat) (t : Thread) (d : Decoded) : Bool :=
  match partOfCore s t.core, d with
  | some p, .instr i _ => (s.part p).promo.isSome && match targetOf s tid t i with
    | some a => promoStall s p a.toNat && (heldBlock s t.core (blockNo a)).isNone
    | none => false
  | _, _ => false

/-- What a thread stands at: the instruction at which its wait is over, else what its fetch block holds. -/
def standsAt (s : State) (t : Thread) : Option Decoded :=
  match t.released, t.held with
  | true, some i => some (.instr i (fldsOf i).words)
  | _, _ => decodedAt s t.core t.pc

/-- The threads of a core that stand at an instruction and are ready for it: candidates and arrivals (07 R149, R156). The conditions
of 01 R23 held for a released thread at its arrival. -/
def readyThreads (s : State) (core : Nat) : List (Nat × Thread × Decoded) :=
  s.threads.filterMap fun e =>
    if e.2.core == core && e.2.runs s then
      match standsAt s e.2 with
      | some .pad | none => none
      | some d => if e.2.released || (e.2.ready s d && !targetStalls s e.1 e.2 d) then some (e.1, e.2, d) else none
    else none

/-- A decoded word at which threads arrive rather than issue. -/
def decodedArrives : Decoded → Bool
  | .instr i _ => (arrivalOf i).isSome
  | _ => false

/-- A collective of a wave, whose released threads form a set of their own (07 R157). -/
def decodedCollective : Decoded → Bool
  | .instr i _ => arrivalOf i == some .heldColl
  | _ => false

/-- An instruction that looks at scratchpad bytes or their poison as it issues or arrives. -/
def looksAtPad : Instr → Bool
  | .atoms _ | .cass _ | .atomp _ | .binit _ | .bexp _ | .barr _ | .btry _ | .bwait _ | .tload _ | .seal _ | .catom _
  | .cpyst _ | .ringacq _ | .ringrel _ | .turn _ | .tspawn _ | .launch _ | .launchJ _ => true
  | _ => false

/-- The unit cannot take such an instruction of a thread while earlier accesses are still to be performed (log 17). -/
def padHolds (s : State) (d : Decoded) (tid : Nat) (t : Thread) : Bool :=
  match d with
  | .instr i _ => looksAtPad i && !t.released && (!(threadAccs s t.core tid).isEmpty || !(fencedAccs s tid).isEmpty)
  | _ => false

/-- The candidates of a cycle: those that neither arrive nor belong to a released collective (07 R149, R157). -/
def candidates (s : State) (core : Nat) : List (Nat × Thread × Decoded) :=
  (readyThreads s core).filter fun e => if e.2.1.released then !decodedCollective e.2.2 else !decodedArrives e.2.2

/-- An issue set: its members and what they stand at. -/
structure IssueSet where
  pc : VAddr
  what : Decoded
  starved : Bool
  key : Nat
  members : List Nat

/-- The order of candidates of a lane: starved ones first, then by key (07 R151). -/
def Thread.rank (det : Bool) (t : Thread) : Nat := (if t.starved then 0 else 2 ^ 64) + t.key det

/-- An issue set of ready threads at one address, in ascending key. -/
def setOf (det : Bool) (pc : VAddr) (d : Decoded) (ms : List (Nat × Thread × Decoded)) : IssueSet :=
  { pc := pc, what := d, starved := ms.any fun x => x.2.1.starved,
    key := ms.foldl (fun k x => min k (x.2.1.key det)) (2 ^ 64),
    members := (sortOn (fun (x : Nat × Thread × Decoded) => x.2.1.key det) ms).map (·.1) }

/-- The issue sets of an address and what stands there: set j holds the j-th candidate of every lane (07 R151). -/
def setsOf (det : Bool) (pc : VAddr) (d : Decoded) (here : List (Nat × Thread × Decoded)) : List IssueSet :=
  let lanes := (List.range 32).map fun l =>
    sortOn (fun (x : Nat × Thread × Decoded) => x.2.1.rank det) (here.filter fun x => x.2.1.lane.toNat == l)
  (List.range (lanes.foldl (fun n q => max n q.length) 0)).map fun j => setOf det pc d (lanes.filterMap fun q => q[j]?)

/-- The issue sets of an address. A thread whose wait is over keeps the instruction it waited at (03 R63, 07 R158). -/
def setsAt (det : Bool) (cs : List (Nat × Thread × Decoded)) (pc : VAddr) : List IssueSet :=
  let here := cs.filter fun x => x.2.1.pc == pc
  let ds := here.foldl (fun (l : List Decoded) x => if l.contains x.2.2 then l else l ++ [x.2.2]) []
  ds.flatMap fun d => setsOf det pc d (here.filter fun x => x.2.2 == d)

/-- The addresses that the builder considers: of more than 512 those whose oldest candidate has the smallest key (07 R143). -/
def consideredPcs (det : Bool) (cs : List (Nat × Thread × Decoded)) : List VAddr :=
  let byKey := sortOn (fun (x : Nat × Thread × Decoded) => x.2.1.key det) cs
  (byKey.foldl (fun (l : List VAddr) x => if l.contains x.2.1.pc then l else l ++ [x.2.1.pc]) []).take 512

/-- The released collectives of a core that have not issued: of each wave, all of whose threads must run, and of each lane task (07
R157, 19 R395). -/
def waveSets (s : State) (core : Nat) : List IssueSet :=
  let det := detMode s core
  let rs := (readyThreads s core).filter fun e => e.2.1.released && decodedCollective e.2.2
  let mates (a b : Thread) : Bool := a.team == b.team && a.wave == b.wave && a.task == b.task && a.pc == b.pc
  let firsts := rs.foldl (fun (l : List (Nat × Thread × Decoded)) e => if l.any fun x => mates x.2.1 e.2.1 then l else l ++ [e]) []
  firsts.filterMap fun e =>
    let ms := rs.filter fun x => mates x.2.1 e.2.1
    let all := s.threads.filter fun x => x.2.core == core && x.2.released && mates x.2 e.2.1
    if ms.length = all.length then some (setOf det e.2.1.pc e.2.2 ms) else none

/-- The sets of a cycle that compete for the ports (07 R151, R153, R157). -/
def issueSets (s : State) (core : Nat) : List IssueSet :=
  let det := detMode s core
  let cs := candidates s core
  (consideredPcs det cs).flatMap (setsAt det cs) ++ waveSets s core

/-- The unit of an instruction (07 R152). -/
def unitOf (i : Instr) : ExUnit := match shapeOf false i with | some sh => sh.unit | none => .alu

/-- Whether the unit of what stands at an address can accept a set; words that are no instruction need only a port. -/
def decodedAccepted (d : Decoded) (c : Core) (clk : Nat) : Bool :=
  match d with | .instr i _ => c.accepts clk (unitOf i) | _ => true

/-- The place of a set in R153's order. -/
def IssueSet.rank (a : IssueSet) : Nat := setRank a.starved a.key a.pc

/-- The commands that an instruction of the members of `issue` brings to the core's queue (11 R243, 10 R230, R231). -/
def commandsOf (i : Instr) (s : State) : Nat :=
  match i with
  | .cpy _ | .cpyg _ | .cpys _ | .cpyf _ | .cpypf _ | .cpyrc _ | .catom _ | .cpyst _ => (takersOf i (setContexts i s)).length
  | .drainH _ | .drainRoute _ => stepsOf i s
  | _ => 0

/-- The step queue has room for a set's steps and the command queue for its commands, if it has any, and no access holds it (09
R192, 10 R209, 11 R243). -/
def hasRoom (s : State) (core : Nat) (x : IssueSet) : Bool :=
  x.members.all (fun k => match s.thread? k with | some t => !padHolds s x.what k t | none => true) && match x.what with
  | .instr i _ =>
    let s := { s with issue := x.members }
    match i with
    | .mma _ | .mmac _ => queueRoom s core (stepsOf i s)
    | _ =>
      let n := commandsOf i s
      n == 0 || decide ((s.core core).cmds.length + n ≤ 64)
  | _ => true

/-- A set's unit, and the queues it fills, can accept it in this cycle (07 R152, R153). -/
def setAccepted (s : State) (core : Nat) (x : IssueSet) : Bool :=
  decodedAccepted x.what (s.core core) (s.clkOf core) && hasRoom s core x

/-- The next set that issues through a port in this cycle (07 R153). -/
def nextSet (s : State) (core : Nat) : Option IssueSet :=
  if (s.core core).ports.length ≥ 4 then none
  else ((issueSets s core).filter (setAccepted s core)).foldl (fun b x =>
    match b with | none => some x | some y => some (if x.rank < y.rank then x else y)) none

/-- The threads of one convergence instruction that arrive together: those ready at the oldest arriving thread's
address. -/
def nextArrivals (s : State) (core : Nat) : Option (Instr × List Nat) :=
  let cs := (readyThreads s core).filter fun e => !e.2.1.released && decodedArrives e.2.2 && !padHolds s e.2.2 e.1 e.2.1
  match sortOn (fun (e : Nat × Thread × Decoded) => e.2.1.key (detMode s core)) cs with
  | [] => none
  | e :: r => match e.2.2 with
    | .instr i _ => some (i, ((e :: r).filter fun x => x.2.1.pc == e.2.1.pc).map (·.1))
    | _ => none

/-- A thread whose flow reached a pad word continues at the next fetch block (03 R62). -/
def skipPads (core : Nat) (s : State) : State :=
  s.threads.foldl (fun s e =>
    if e.2.core == core && e.2.conv == .run && !e.2.released && decodedAt s core e.2.pc == some .pad then
      s.modThread e.1 fun t => { t with pc := BitVec.ofNat 56 (32 * (blockNo t.pc + 1)) }
    else s) s

/-- A thread leaves its trap entry once its handler's first instruction can issue (06 R137, 07 R158). -/
def leaveEntries (core : Nat) (s : State) : State :=
  s.threads.foldl (fun s e =>
    let free := match decodedAt s core e.2.pc with | some d => e.2.ready s d | none => false
    if e.2.core == core && e.2.conv == .trapEntry && free then s.modThread e.1 fun t => { t with conv := .run } else s) s

/-- The word of the next fetch block that follows the last word of a block; 0 where that block cannot be read (03 R61, R77; log
122). -/
def wordAfter (core : Nat) (pc : VAddr) (s : State) : Word :=
  if wordNo pc < 7 then firstWord s core (pc + 4)
  else match (fetchBlock core (blockNo (pc + 4)) s).1 with | .ok ws => wordAt ws 0 | .error _ => 0

/-- Members of a set stand at a word that is no instruction: each raises ILLEGAL-INSTRUCTION (03 R77). -/
def illegalSet (detail : Nat) (members : List Nat) (s : State) : State :=
  members.foldl (fun s k => match s.thread? k with
    | some t =>
      let words := pair64 (firstWord s t.core t.pc) (wordAfter t.core t.pc s)
      enterTrap k t.pc (t.pc + 4) { cause := 1, detail := detail, addr := words } s
    | none => s) s

/-- The issue of a set is prepared: the port and unit are taken, and the members of `issue` set. -/
def openSet (core : Nat) (set : IssueSet) (s : State) : State :=
  let u : Option ExUnit := match set.what with | .instr i _ => some (unitOf i) | _ => none
  let clk := s.clkOf core
  let s := s.modCore core fun c =>
    match u with | some u => c.take clk set.rank u | none => { c with ports := c.ports ++ [set.rank] }
  { s.bumpCore core 0x0050 1 with issue := set.members }

/-- A fetch block arrives for a waiting thread, or its fetch fails (06 R136, 07 R143). -/
def blockArrives (tid : Nat) (wordError : Bool) (s : State) : State :=
  match s.thread? tid with
  | none => s
  | some t =>
    let stall := match partOfCore s t.core with | some p => promoStall s p t.pc.toNat | none => false
    if !(t.fetches s) || stall || (heldBlock s t.core (blockNo t.pc)).isSome then s
    else if wordError then
      enterTrap tid t.pc (t.pc + 4) { cause := 4, detail := 3, addr := addr64 t.pc } s
    else match fetchBlock t.core (blockNo t.pc) s with
      | (.ok _, s) => s
      | (.error d, s) => enterTrap tid t.pc (t.pc + 4) { cause := 4, detail := d, addr := addr64 t.pc } s

/-- FETCH_BLOCK_ARRIVAL (07 R143, 06 R136). -/
def execFetchBlockArrival (thread : Nat) (wordError : Bool) (s : State) : Host.Outcome State Fault Refusal :=
  .next (blockArrives thread wordError s)

/-- The members of a set arrive at a convergence instruction, or are sampled at BWAIT; their teams' waits are released or found
diverged (07 R156 to R160, 08 R182). -/
def arriveSet (i : Instr) (s : State) : State :=
  match arrivalOf i, i with
  | none, _ => { s with issue := [] }
  | some .heldGang, _ => gangSet i s
  | some .heldBuoy, .bwait f => { s.issue.foldl (fun s k => sampleBwait f k s) s with issue := [] }
  | some conv, _ =>
    let teams := issueTeams s
    let s := s.issue.foldl (arriveAt conv i) s
    { teams.foldl (fun s t => settleTeam t s) s with issue := [] }

/-- The stall reason of a live thread that did not issue in a cycle, the first in R154's order; 0 for none. A thread of a TURNING team,
for which the table has no row, reports what it would report in RUN (DESIGN CHOICE, log 123). -/
def stallReason (s : State) (e : Nat × Thread) : Nat :=
  let t := e.2
  if t.conv == .exiting then 0
  else if t.conv == .trapEntry || t.halted != .none then 1
  else match s.team? t.team with
    | none => 0
    | some x =>
      if x.killReq || x.state == .saving || x.state == .killed then 2
      else if t.conv == .heldColl || t.conv == .heldBar || t.conv == .heldBarc then 3
      else if t.conv == .heldBuoy then 4
      else if t.conv == .heldGang then 5
      else match standsAt s t with
        | none => 7
        | some d =>
          let w := (firstWord s t.core t.pc).toNat
          if !t.released && !t.flagsFree (bitsAt w 14 12) (decodedFlag d) then 6
          else if !t.released && (!t.distFree (bitsAt w 11 3) (s.clkOf t.core) || d == .pad || targetStalls s e.1 t d) then 7
          else match (issueSets s t.core).find? fun x => x.members.contains e.1 with
            | none => 9
            | some x =>
              let before := (s.core t.core).ports.filter fun r => decide (r < x.rank)
              if before.length < 4 && !setAccepted s t.core x then 8 else 9

end Sys2Proof.Machine
end

