-- ==== Sys2Proof/Machine/Create.lean ====
section
/-! DEFINITION. A thread at its creation and the identity registers (01 R12, R15 to R17, R29). -/

namespace Sys2Proof.Machine

open Sys2Proof

/-- TEAMDIM (01 R16). -/
def teamDimOf (waves threads : Nat) : Word := BitVec.ofNat 32 (waves * 2 ^ 16 + threads)
/-- COHORT (01 R17). -/
def cohortOfIdx (idx size : Nat) : Word := BitVec.ofNat 32 (idx / size % 2 ^ 16 * 2 ^ 16 + size * 2 ^ 8 + idx % size)

/-- Thread `num` of a team at its creation: registers, flags and trap registers zero, not in trap mode (01 R12, R29, 07
R144). `waves` is the slot's WAVES, `depth` the grid's nesting depth. -/
def newThread (key : Nat) (tm : Team) (waves num seq depth : Nat) (pc : VAddr) : Thread :=
  { team := key, core := tm.core, num := num, laneSlot := tm.slot * waves + num / 32, seq := seq, nregs := tm.regs, pc := pc,
    lane := BitVec.ofNat 32 (num % 32), wave := BitVec.ofNat 32 (num / 32), teamIdx := BitVec.ofNat 32 tm.idx,
    teamDim := teamDimOf tm.waves tm.threads, gridId := tm.gridId, cohort := cohortOfIdx tm.idx tm.cohort,
    coreNo := BitVec.ofNat 32 (tm.core % 64), clusterNo := BitVec.ofNat 32 (tm.core / 64 % 3),
    dieNo := BitVec.ofNat 32 (dieOf tm.core), depth := BitVec.ofNat 32 depth }

end Sys2Proof.Machine
end

