-- ==== Sys2Proof/Machine/Ring.lean ====
section
/-! DEFINITION. Rings: binding, granting, releasing, and the engine's chunks (12 R270 to R276). -/

namespace Sys2Proof.Machine

open Sys2Proof

/-- The fields of an RCB header that a program writes, and whether one is out of range or a reserved one nonzero (12 R270,
R271). -/
structure RingHead where
  n : Nat
  dir : Nat
  relt : Nat
  stride : Nat
  bad : Bool
  deriving DecidableEq, Repr

/-- The header of an RCB (12 R270). -/
def ringHead (x : Nat) : RingHead :=
  let n := bitsAt x 0 5
  let relt := bitsAt x 16 11
  let stride := bitsAt x 32 32
  { n := n, dir := bitsAt x 8 1, relt := relt, stride := stride,
    bad := n == 0 || decide (n > 16) || relt == 0 || decide (relt > 1024) || stride % 16 != 0 || bitsAt x 5 3 != 0
      || bitsAt x 9 7 != 0 || bitsAt x 27 5 != 0 || bitsAt x 200 56 != 0 }

/-- The last slot of a ring lies in the team's region, its scales included; else the trap (12 R271). -/
def slotsFault (tm : Team) (slot : TRec) (h : RingHead) : Option Trap :=
  let size := tm.spadP * 4096
  let up := (h.n - 1) * h.stride
  let lo := (slot.span.1 + up).toNat
  let hi := (slot.span.2 + up).toNat
  let sc := baseOff slot.scbase + (h.n - 1) * slot.scaleBytes
  match rangeFault size lo (hi + 1 - lo) 1 with
  | some t => some t
  | none => if slot.sc && baseMode slot.scbase == 1 && !baseTile slot.scbase then rangeFault size sc slot.scaleBytes 1 else none

/-- The RCB of a new ring is written: its RO fields and its slots (12 R270, R271). -/
def writeRcb (tm : Team) (rcb bytes : Nat) (r : Ring) (s : State) : State :=
  let a := regionBase s tm.core tm.slot + rcb + 32
  let s := (List.range r.n).foldl (fun s k => poolWrite tm.core (a + 32 * k) 32 (bytes + 2 ^ 128 * k) s) s
  pubRing tm rcb r s

/-- CPYST (12 R271). -/
def execCpyst (f : FA128) (s : State) : Host.Outcome State Fault Refusal :=
  issueKeyed (.cpyst f) (fun c s => c.withTeam s fun tm =>
    let ha := c.va.toNat
    let hb := c.vb.toNat
    let rcb := c.vc.toNat
    match c.afterVe (c.handle s tm ha), c.afterVe (c.handle s tm hb) with
    | .error t, _ => .error t
    | .ok _, .error t => .error t
    | .ok ra, .ok rb =>
      let stream := trecOf ra
      let slot := trecOf rb
      match c.origins stream.dims, c.chunks rcb 32 s with
      | .error t, _ => .error t
      | .ok _, .error t => .error t
      | .ok ws, .ok off =>
        let h := ringHead (poolRead s tm.core off 32)
        let (src, dst, hd) := if h.dir = 0 then (stream, slot, hb) else (slot, stream, ha)
        let d := bitsAt c.f.x 15 3
        let box := at0 slot.box d
        let bound := match tfind tm.rings rcb with | some r => r.state == 1 | none => false
        let shape := stream.dims != slot.dims || decide (d ≥ slot.dims)
          || (List.range slot.dims).any (fun k => k != d && at0 slot.box k != at0 stream.box k)
          || at0 stream.box d % box != 0 || slot.padded || h.bad
        guardTrap (stream.kind == 1) (badHandle 2 ha) <|
        guardTrap (slot.kind == 1 || baseMode slot.base != 1 || baseTile slot.base || bound) (badHandle 2 hb) <|
        guardTrap shape (badHandle 3 hd) <|
        guardTrap (formatsBad src dst (c.m 0) 0) (badHandle 4 hd) <|
        match c.chunks (rcb + 32) (32 * h.n) s, slotsFault tm slot h with
        | .error t, _ => .error t
        | .ok _, some t => .error t
        | .ok _, none =>
          let bytes := ceilDiv (((List.range slot.dims).map (at0 slot.box)).foldl (· * ·) 1 * dst.width) 8
          let r : Ring := { cmd := s.fresh, dir := h.dir, n := h.n, relt := h.relt, stride := h.stride,
                            chunks := at0 stream.box d / box, bytes := bytes, ticket := tm.ticket,
                            rel := List.replicate h.n 0, chunk := List.range h.n }
          let s := writeRcb tm rcb bytes r (s.modTeam c.t.team fun t => { t with rings := tput t.rings rcb r })
          let (key, s) := c.push tm [ra, rb] ws (ints ws) (ints ws) 0 [] false s
          let s := s.modCmd tm.core key fun x => { x with buoy := none }
          .ok (c.ticketTo key tm.ticket s)) s

/-- RINGACQ's status (12 R274). -/
def ringStatus (r : Ring) : Nat :=
  let n := r.next
  if r.state != 1 then (if r.state = 2 ∨ r.state = 3 then 3 else 4)
  else if n ≥ r.chunks then 2
  else if r.dir = 0 && decide (n ≥ r.n) && at0 r.chunk (n % r.n) != n then 1
  else if r.dir = 1 && decide (n ≥ r.n) && decide (r.done + r.n ≤ n) then 1
  else 0

/-- RINGACQ (12 R274). -/
def execRingacq (f : FA128) (s : State) : Host.Outcome State Fault Refusal :=
  issueInsts (.ringacq f) (fun n s =>
    let c := n.lead
    let a := c.va.toNat
    match c.spad a 16 s with
    | .error t => .error t
    | .ok _ =>
      let give (v0 v1 v2 v3 : Nat) (s : State) : State :=
        n.finish none (fun c => [(c.f.vd, BitVec.ofNat 32 v0), (c.f.vd + 1, BitVec.ofNat 32 v1),
          (c.f.vd + 2, BitVec.ofNat 32 v2), (c.f.vd + 3, BitVec.ofNat 32 v3)]) false s
      let refuse (st : Nat) (s : State) : State := give 0xFFFFFFFF 0 0 (256 * st) s
      match s.team? n.team with
      | none => .ok (refuse 4 s)
      | some tm => match tfind tm.rings a with
        | none => .ok (refuse 4 s)
        | some r =>
          let k := r.next
          match ringStatus r with
          | 0 =>
            let base := match s.cmd? tm.core r.cmd with
              | some x => baseOff (trecOf ((x.snaps[1]?).getD 0)).base
              | none => 0
            let i := k % r.n
            let s := putRing n.team tm a { r with next := k + 1 } s
            .ok (give k (base + i * r.stride) (a + 32 + 32 * i) ((k / r.n + r.dir) % 2) s)
          | st => .ok (refuse st s)) s

/-- A release of chunk `k` counted in a ring, if the ring takes it (12 R275, R273). -/
def ringRelease (r : Ring) (k : Nat) : Option Ring :=
  let i := k % r.n
  if r.state = 1 && at0 r.chunk i == k && (r.dir == 1 || decide (r.done > k)) then
    let n := at0 r.rel i + 1
    if n < r.relt then some { r with rel := r.rel.set i n }
    else if r.dir = 0 then some { r with rel := r.rel.set i 0, chunk := r.chunk.set i (k + r.n) }
    else some { r with rel := r.rel.set i 0, freed := nadd r.freed k }
  else none

/-- RINGREL (12 R275). It reads no byte of the RCB, and an address without a bound ring gives 1. -/
def execRingrel (f : FA128) (s : State) : Host.Outcome State Fault Refusal :=
  issueInsts (.ringrel f) (fun n s =>
    let c := n.lead
    let a := c.va.toNat
    let put (v : Nat) (s : State) : State := n.finish none (fun c => [(c.f.vd, BitVec.ofNat 32 v)]) false s
    match s.team? n.team with
    | none => .ok (put 1 s)
    | some tm => match (tfind tm.rings a).bind fun r => ringRelease r c.vb.toNat with
      | some r => .ok (put 0 (putRing n.team tm a r s))
      | none => .ok (put 1 s)) s

/-- The ring of a ring command. -/
def ringOf (s : State) (x : Command) : Option (Team × Ring) :=
  (s.team? x.team).bind fun tm => (tfind tm.rings x.rcb).map fun r => (tm, r)

/-- A ring may start its next chunk (12 R273). -/
def Ring.canStart (r : Ring) : Bool :=
  r.state == 1 && r.cur.isNone && decide (r.done < r.chunks)
    && (if r.dir = 0 then at0 r.chunk (r.done % r.n) == r.done else r.freed.contains r.done)

/-- A team has no live thread left. -/
def teamDead (s : State) (team : Nat) : Bool := (s.threadsOf team).isEmpty

/-- The ring ends when its team's last thread has exited and it stands at a chunk boundary: a fill ring as cancelled without
ERR, a drain ring as finished once every freed chunk is stored (12 R276). -/
def ringExits (s : State) (x : Command) : Bool :=
  match ringOf s x with
  | some (_, r) => teamDead s x.team && r.state == 1 && r.cur.isNone && (r.dir == 0 || !r.canStart)
  | none => false

/-- A ring's end: STATE written, and its command gone (12 R273, R276). -/
def finishRing (core k st : Nat) (s : State) : State :=
  match s.cmd? core k with
  | none => s
  | some x => match ringOf s x with
    | none => s.dropCmd core k
    | some (tm, r) => (putRing x.team tm x.rcb { r with state := st, cur := none } s).dropCmd core k

/-- The engine starts a ring's next chunk, or ends the ring of a team that has exited (12 R273, R276). -/
def startChunk (core k : Nat) (s : State) : State :=
  match s.cmd? core k with
  | none => s
  | some x =>
    if !x.isRing || x.state != .active then s
    else match ringOf s x with
      | none => s
      | some (_, r) =>
        if ringExits s x then finishRing core k (if r.dir = 0 then 3 else 4) s
        else if r.canStart then
          let s := s.modTeam x.team fun t => { t with rings := tput t.rings x.rcb { r with cur := some r.done } }
          s.putCmd core k { x with begun := false, epoch := none, counted := 0 }
        else s

/-- RING_CHUNK_START (12 R273). -/
def execRingChunkStart (core cmd : Nat) (s : State) : Host.Outcome State Fault Refusal := .next (startChunk core cmd s)

/-- A chunk's final slot-buoy update has been performed: DONE advances, and after the last chunk the ring finishes (12
R273). -/
def endChunk (core k : Nat) (s : State) : State :=
  match s.cmd? core k with
  | none => s
  | some x => match ringOf s x with
    | none => s
    | some (tm, r) =>
      let n := r.done
      let r := { r with done := n + 1, cur := none }
      let r := if r.dir = 1 then { r with chunk := r.chunk.set (n % r.n) (n + r.n), freed := ndel r.freed n } else r
      if n + 1 ≥ r.chunks then (putRing x.team tm x.rcb { r with state := 4 } s).dropCmd core k
      else putRing x.team tm x.rcb r s

end Sys2Proof.Machine
end

