-- ==== Sys2Proof/Machine/Pos.lean ====
section
/-! DEFINITION. How a command's accesses reach storage: device memory through translation, on-chip storage, fabric windows,
the gather cache and a bracket's held writes (11 R246 to R257, 12 R262, R277, 15 R329 to R333, 26 R489, R490). -/

namespace Sys2Proof.Machine

open Sys2Proof

/-- Why a command does not perform its next position now. -/
inductive Stop where
  /-- A fault of an access: address, kind, level, and whether it was a write (11 R258). -/
  | fault (va kind level : Nat) (write : Bool)
  /-- The path cannot carry the atomic (11 R254, 26 R491). -/
  | path (va level : Nat)
  /-- A held write would take a line too many (12 R277). -/
  | capacity
  /-- It waits: for a message sent, or for its target's storage. -/
  | wait
  deriving DecidableEq, Repr

/-- A computation over the state that may stop; what it did to the state before stands. -/
abbrev Op (α : Type) := ExceptT Stop (StateM State) α

/-- Run a function that gives a value and a state. -/
def opRun (f : State → α × State) : Op α := ExceptT.mk fun s => let (a, s) := f s; (.ok a, s)
/-- Change the state. -/
def opMod (f : State → State) : Op Unit := ExceptT.mk fun s => (.ok (), f s)
/-- Stop. -/
def opStop {α : Type} (e : Stop) : Op α := ExceptT.mk fun s => (.error e, s)

/-- What the accesses of a command share: its core and key, itself, its team, and the scopes at which it acquires and
releases (0 for none). -/
structure Env where
  core : Nat
  key : Nat
  x : Command
  team : Nat
  tm : Team
  acq : Nat
  rel : Nat

/-- Die and partition of a command. -/
def Env.die (e : Env) : Nat := dieOf e.core
def Env.part (e : Env) : Nat := e.tm.part

/-- The scopes of a command, its own and those of the fences before it (12 R262, R267). -/
def acqScope (x : Command) : Nat :=
  let f := x.flds
  let own := match x.instr with
    | .cpypf _ | .cpyrc _ | .drainRoute _ => 0
    | _ => if acqX f then scopeX f else 0
  x.fences.foldl (fun m n => if (n.after &&& cmdKinds x.instr) != 0 then max m n.acq else m) own
def relScope (x : Command) : Nat :=
  let f := x.flds
  let own := match x.instr with
    | .cpypf _ | .cpyrc _ | .drainRoute _ => 0
    | _ => if relX f then scopeX f else 0
  x.fences.foldl (fun m n => if bitAt n.after 1 then max m n.rel else m) own

/-- The ranges of a run of bytes within 64 KiB pages. -/
def pageRuns : Nat → Nat → Nat → List (Nat × Nat)
  | 0, _, _ => []
  | fuel + 1, a, n =>
    if n = 0 then []
    else
      let k := min n (65536 - a % 65536)
      (a, k) :: pageRuns fuel (a + k) (n - k)

/-- A slot's storage of which a team is being saved, or which a SAVED team has left and no team has taken: writes of other teams
stall there (13 R306, 18 R364; log 117). -/
def chipAway (s : State) (team core off : Nat) (tile : Bool) : Bool :=
  let c := (s.core core).cfg
  let lo := c.regG * 65536
  let size := c.spadP * 4096
  let slot := if tile then off / 8192 / c.tiles else (off - lo) / size
  let held : Bool := if tile then c.tiles != 0 else size != 0 && decide (lo ≤ off)
  let ts := s.teams.filter fun e => e.2.core == core && e.2.slot == slot && (s.core core).grid == some e.2.grid
  held && ((ts.any fun e => e.1 != team && e.2.state == .saving) || (!ts.isEmpty && ts.all fun e => e.2.state == .saved))

/-- Translate and check an access of a command (18 R365). -/
def Env.access (e : Env) (kind : AccKind) (path : Option Nat) (va : Nat) : Op Target := do
  if promoStall (← get) e.part va then opStop .wait
  let r ← opRun (Machine.access (clusterOf e.core) e.part kind path va)
  match r with
  | .ok (.chip core off tile) =>
    if kind != .read && chipAway (← get) e.team core off tile then opStop .wait else pure (.chip core off tile)
  | .ok t => pure t
  | .error f => if f.kind = 9 then opStop (.path va f.level) else opStop (.fault va f.kind f.level (kind != .read))

/-- Bytes of a core's pool as a window shows them: register storage reads as its stored form (18 R364; log 12). Words of the tile
store that are read are scrubbed (09 R190). -/
def chipRead (core off n : Nat) (tile : Bool) (s : State) : (List Byte × Bool) × State :=
  if tile then
    let s := scrubBytes core off n false s
    let c := s.core core
    ((mgets c.tiles off n, tagPoi (tget c.tags (off / 8192) 0)), s)
  else
    let c := s.core core
    let lim := c.cfg.regG * 65536
    let bs := (List.range n).map fun i =>
      if off + i < lim then Config.storedFormByte core (off + i) (s.count + i) else mget c.pool (off + i)
    ((bs, poolPoisoned s core off n), if off < lim then { s with count := s.count + n } else s)

/-- Writing poisoned data into a tile sets its POI (10 R232, 11 R248). -/
def poisonTileByte (core off : Nat) (bad : Bool) (s : State) : State := if bad then poisonTile core (off / 8192) s else s

/-- A read under an acquire of device or system scope of a core's storage on another die: that die serves what it has written,
for the storage holds no release record (22 R423, R424; log 134). -/
def chipAcquire (v p core : Nat) (s : State) : State := if dieOf core = v then s else (promoteDie (dieOf core) p s).2

/-- Bytes written to a core's storage by a command. Writes to register storage through a window change nothing (log 23). -/
def chipWrite (core off : Nat) (tile : Bool) (bs : List Byte) (bad : Bool) (s : State) : State :=
  if tile then
    poisonTileByte core off bad (s.modCore core fun c => { c with tiles := mputs c.tiles off bs })
  else
    let lim := (s.core core).cfg.regG * 65536
    if off ≥ lim then putScratch core off bs bad s else s

/-- Held bytes of the bracket laid over bytes read at a physical address (12 R277). -/
def overlayHeld (tx : Tx) (pa : Nat) (bs : List Byte) (bad : Bool) : List Byte × Bool :=
  (((List.range bs.length).zip bs).map fun e => tget tx.held (pa + e.1) e.2,
    bad || (linesIn pa bs.length).any fun l => (tget tx.lines l (0, false)).2)

/-- The transaction state of the command's team as it stands. -/
def Env.tx (e : Env) (s : State) : Tx := match s.team? e.team with | some t => t.tx | none => {}

/-- Bytes of device memory as the command's bracket shows them (12 R277). -/
def Env.overlay (e : Env) (s : State) (pa : Nat) (r : List Byte × Bool) : List Byte × Bool :=
  if e.x.bracketed then overlayHeld (e.tx s) pa r.1 r.2 else r

/-- The lines of a plain read whose release record waits are kept for a later fence (12 R267). -/
def Env.note (e : Env) (pa n : Nat) (s : State) : State :=
  let ls := (linesIn pa n).filter fun l => recordWaits e.die l s
  if ls.isEmpty then s else s.modTeam e.team fun t => { t with readRel := ls.foldl nadd t.readRel }

/-- A device-memory read by a command at a physical address, a bracket's held bytes apart (17 R345, 22 R424). -/
def Env.fill (e : Env) (a : Acc) (pa n : Nat) (s : State) : (List Byte × Bool) × State :=
  if e.acq ≥ 4 then acquireRead e.die a pa n s
  else
    let (r, s) := Machine.devRead e.die a pa n s
    (r, e.note pa n s)

/-- A device-memory read by a command at a physical address (12 R277). -/
def Env.devRead (e : Env) (a : Acc) (pa n : Nat) (s : State) : (List Byte × Bool) × State :=
  let (r, s) := e.fill a pa n s
  (e.overlay s pa r, s)

/-- The read of a contribution, at the home copy (17 R347, 22 R424). -/
def Env.homeRead (e : Env) (a : Acc) (pa n : Nat) (s : State) : (List Byte × Bool) × State :=
  let (r, s) := if e.acq ≥ 4 then acquireHomeRead e.die a pa n s
    else
      let (r, s) := Machine.homeRead e.die a pa n s
      (r, e.note pa n s)
  (e.overlay s pa r, s)

/-- The message by which a command reads a fabric window; its bytes come with the response (26 R490). -/
def Env.fetch (e : Env) (va pa n : Nat) : Op (List Byte × Bool) := do
  let s ← get
  let x := (s.cmd? e.core e.key).getD e.x
  if (List.range n).all fun i => (tfind x.got (va + i)).isSome then
    pure ((List.range n).map fun i => tget x.got (va + i) 0, false)
  else match windowOf s e.part pa with
    | .error k => opStop (.fault va k 0 false)
    | .ok w =>
      opMod fun s =>
        let m : Msg := { op := 2, rkey := w.rkey, addr := w.addr, len := n, data := [], va := va,
                         what := .command e.core e.key 0, grid := some e.tm.grid }
        (sendMsg w.conn m (countSent e.tm.grid e.die s)).modCmd e.core e.key fun x => { x with waiting := true }
      opStop .wait

/-- Read bytes of one page at a virtual address. -/
def Env.readPage (e : Env) (kind : AccKind) (path : Option Nat) (va n : Nat) : Op (List Byte × Bool) := do
  match ← e.access kind path va with
  | .dev pa a => opRun (if kind == .rmw then e.homeRead a pa n else e.devRead a pa n)
  | .chip core off tile =>
    if e.acq ≥ 4 then opMod (chipAcquire e.die e.part core)
    opRun (chipRead core off n tile)
  | .fabric pa => e.fetch va pa n

/-- Read the pieces of a run of bytes in order. -/
def Env.readRuns (e : Env) (kind : AccKind) (path : Option Nat) : List (Nat × Nat) → Op (List Byte × Bool)
  | [] => pure ([], false)
  | (a, n) :: r => do
    let (b, p) ← e.readPage kind path a n
    let (b', p') ← e.readRuns kind path r
    pure (b ++ b', p || p')

/-- Read `n` bytes at a virtual address. -/
def Env.readVa (e : Env) (kind : AccKind) (path : Option Nat) (va n : Nat) : Op (List Byte × Bool) :=
  e.readRuns kind path (pageRuns (n + 1) va n)

/-- A block of the gather cache that holds a word of a virtual line (15 R329). -/
def gcFind (c : Core) (vline w : Nat) : Option GcBlock :=
  c.gcache.find? fun b => b.vline == vline && decide (b.first ≤ w) && decide (w < b.first + b.n)

/-- Gather-cache blocks of a core are lost to an error of the cache, its predictor or the reverse map (15 R334). -/
def gcForget (core : Nat) (p : GcBlock → Bool) (s : State) : State :=
  s.modCore core fun c => { c with gcache := c.gcache.filter fun b => !p b }

/-- Drop gather-cache blocks of a core, counted in GCINVAL (15 R331, R333, R335). -/
def gcDrop (core : Nat) (p : GcBlock → Bool) (s : State) : State :=
  let n := ((s.core core).gcache.filter p).length
  if n = 0 then s else (gcForget core p s).countCore core 0x0318 n

/-- The cores of a cluster that have a state of their own. -/
def coresOfCluster (s : State) (cl : Nat) : List Nat := (tkeys s.cores).filter fun c => clusterOf c == cl

/-- The reverse map makes room for a physical line (15 R333). -/
def rmapRoom (cl pline : Nat) (s : State) : State :=
  let ls := (coresOfCluster s cl).foldl (fun l c => (s.core c).gcache.foldl (fun l b => nadd l b.pline) l) []
  if ls.contains pline || decide (ls.length < 32768) then s
  else
    let (n, s) := s.takeFree
    let victim := at0 ls (n % ls.length)
    let s := (coresOfCluster s cl).foldl (fun s c => gcDrop c (fun b => b.pline == victim) s) s
    s.modCluster cl fun c => { c with counters := bumpAt c.counters 0x10 1 }

/-- The set of a virtual line among the core's 512 for each granule (15 R329; the hash is a free function, log 24). -/
def gcSet (c : Core) (vline : Nat) : Nat := Config.gatherHash vline % (512 * c.cfg.gcG)

/-- The size code that the words served from a block ask for: that of the least aligned block that holds them (15 R330; log
24). -/
def servedCode (b : GcBlock) : Nat :=
  ((List.range 4).find? fun k => b.served.all fun w => w / 2 ^ k == at0 b.served 0 / 2 ^ k).getD 3

/-- A block is evicted; the predictor learns from the words it served (15 R330). -/
def gcEvict (c : Core) (b : GcBlock) : Core :=
  { c with gcache := c.gcache.erase b, gcPred := tput c.gcPred b.pred (servedCode b) }

/-- The lowest aligned place of `n` words of a set that its blocks leave free. -/
def gcPlace (bs : List GcBlock) (n : Nat) : Option Nat :=
  ((List.range (8 / n)).map (· * n)).find? fun p => bs.all fun b => decide (b.place + b.n ≤ p) || decide (p + n ≤ b.place)

/-- A place of `n` words in a set, the least recently used blocks being evicted as far as it needs (15 R329, R330). -/
def gcMakeRoom (set n : Nat) : Nat → Core → Nat × Core
  | 0, c => (0, c)
  | fuel + 1, c =>
    let bs := c.gcache.filter fun b => gcSet c b.vline == set
    match gcPlace bs n, bs.head? with
    | some p, _ => (p, c)
    | none, some b => gcMakeRoom set n fuel (gcEvict c b)
    | none, none => (0, c)

/-- The core with a block entered in its set: blocks of the line that it overlaps are evicted first. -/
def gcEnter (c : Core) (b : GcBlock) : Core :=
  let c := (c.gcache.filter fun x => x.vline == b.vline && decide (x.first < b.first + b.n) && decide (b.first < x.first + x.n)).foldl
    gcEvict c
  let (p, c) := gcMakeRoom (gcSet c b.vline) b.n 9 c
  { c with gcache := c.gcache ++ [{ b with place := p }] }

/-- The predictor entry of a fill: the source handle's INDEX and virtual address bits [15:7] (15 R330). -/
def Env.gcPredictor (e : Env) (va : Nat) : Nat :=
  let h := match e.x.instr with | .cpypf _ => e.x.regs.head? | _ => e.x.regs[1]?
  (h.elim 0 (·.toNat)) % 256 ^^^ bitsAt va 7 9

/-- The block that holds one word of 16 bytes is filled into the gather cache, of the size that the predictor names (15 R330).
-/
def Env.gcFill (e : Env) (vline w : Nat) : Op (List Byte × Bool) := do
  let va := 128 * vline + 16 * w
  match ← e.access .read none va with
  | .dev pa a =>
    let k := e.gcPredictor va
    let n := 2 ^ (tget ((← get).core e.core).gcPred k 0)
    let first := w / n * n
    let (bs, bad) ← opRun (e.fill a (pa / 128 * 128 + 16 * first) (16 * n))
    opMod fun s =>
      let s := gcDrop e.core (fun b => b.pline == pa / 128 && b.vline != vline) s
      let s := rmapRoom (clusterOf e.core) (pa / 128) s
      let s := s.modCore e.core fun c => gcEnter c
        { vline := vline, first := first, n := n, bytes := bs, pline := pa / 128, bad := bad, pred := k }
      (s.countCore e.core 0x0308 1).countCore e.core 0x0310 n
    pure ((bs.drop (16 * (w - first))).take 16, bad)
  | .chip core off tile => opRun (chipRead core off 16 tile)
  | .fabric pa => e.fetch va pa 16

/-- A word is served from a block, which becomes the most recently used (15 R330). -/
def gcServe (core w : Nat) (b : GcBlock) (s : State) : State :=
  s.modCore core fun c => { c with gcache := c.gcache.erase b ++ [{ b with served := nadd b.served w }] }

/-- A word that a block holds is served. -/
def Env.gcServed (e : Env) (w : Nat) (b : GcBlock) : Op (List Byte × Bool) := do
  opMod (gcServe e.core w b)
  pure (e.overlay (← get) (128 * b.pline + 16 * w) ((b.bytes.drop (16 * (w - b.first))).take 16, b.bad))

/-- The words of a list read through the gather cache. -/
def Env.gcWords (e : Env) : List Nat → Op (List Byte × Bool)
  | [] => pure ([], false)
  | g :: r => do
    let (b, p) ← match gcFind ((← get).core e.core) (g / 8) (g % 8) with
      | some k => e.gcServed (g % 8) k
      | none => do
        let got ← e.gcFill (g / 8) (g % 8)
        match gcFind ((← get).core e.core) (g / 8) (g % 8) with
        | some k => e.gcServed (g % 8) k
        | none => pure got
    let (b', p') ← e.gcWords r
    pure (b ++ b', p || p')

/-- A read of CPYG, served by the gather cache where the core has one and the target is device memory (15 R330). -/
def Env.gather (e : Env) (va n : Nat) : Op (List Byte × Bool) := do
  let s ← get
  if (s.core e.core).cfg.gcG = 0 then e.readVa .read none va n
  else
    let ws := (List.range ((va + n - 1) / 16 - va / 16 + 1)).map (· + va / 16)
    let hit := ws.all fun g => (gcFind (s.core e.core) (g / 8) (g % 8)).isSome
    if hit then opMod fun s => s.countCore e.core 0x0300 1
    let t : Bool := match (Machine.access (clusterOf e.core) e.part .read none va s).1 with | .ok (.dev _ _) => true | _ => false
    if hit || t then
      let (bs, bad) ← e.gcWords ws
      pure ((bs.drop (va % 16)).take n, bad)
    else e.readVa .read none va n

/-- The team whose storage an on-chip base names, where it is resident (11 R235, 15 R318). -/
def Env.owner (e : Env) (s : State) (base : Nat) : Option Team :=
  if baseMode base = 1 then s.team? e.team
  else match s.team? e.team with | some t => cohortMember s t (basePeer base) | none => none

/-- The core storage of an on-chip byte: pool, tile store or side-band (11 R235), by offset. -/
inductive Spot where
  | pool (off : Nat)
  | tile (off : Nat)
  | side (off : Nat)
  deriving DecidableEq, Repr

/-- The place of an on-chip address of a team (08 R162, R163, 11 R235). -/
def spotOf (s : State) (o : Team) (base swz a : Nat) : Spot :=
  if !baseTile base then .pool (regionBase s o.core o.slot + swizzle a swz)
  else
    let t0 := o.slot * (s.core o.core).cfg.tiles
    if a < 0x80000 then .tile (8192 * t0 + a) else .side (512 * t0 + (a - 0x80000))

/-- An on-chip byte and its poison. -/
def spotRead (s : State) (core : Nat) : Spot → Byte × Bool
  | .pool off => (mget (s.core core).pool off, poolPoisoned s core off 1)
  | .tile off => (mget (s.core core).tiles off, tagPoi (tget (s.core core).tags (off / 8192) 0))
  | .side off => (mget (s.core core).sideBand off, tagPoi (tget (s.core core).tags (off / 512) 0))

/-- The words of the tile store and side-bands that are about to be read are scrubbed (09 R190). -/
def spotScrub (core : Nat) (ps : List Spot) (s : State) : State :=
  ps.foldl (fun s p => match p with
    | .pool _ => s
    | .tile off => scrubBytes core off 1 false s
    | .side off => scrubBytes core off 1 true s) s

/-- On-chip bytes written, maximal runs of the pool as one write (11 R248, 13 R310). -/
def spotWrite (core : Nat) (bs : List (Spot × Byte × Bool)) (s : State) : State :=
  let pool := bs.foldl (fun (t : Table (Byte × Bool)) b => match b.1 with | .pool off => tput t off b.2 | _ => t) []
  let runs := pool.foldr (fun (e : Nat × Byte × Bool) (rs : List (Nat × List Byte × Bool)) => match rs with
    | (a, l, bad) :: r => if a = e.1 + 1 && bad == e.2.2 then (e.1, e.2.1 :: l, bad) :: r else (e.1, [e.2.1], e.2.2) :: rs
    | [] => [(e.1, [e.2.1], e.2.2)]) []
  let s := runs.foldl (fun s r => putScratch core r.1 r.2.1 r.2.2 s) s
  bs.foldl (fun s b => match b.1 with
    | .pool _ => s
    | .tile off => poisonTileByte core off b.2.2 (s.modCore core fun c => { c with tiles := mput c.tiles off b.2.1 })
    | .side off =>
      let s := s.modCore core fun c => { c with sideBand := mput c.sideBand off b.2.1 }
      if b.2.2 then poisonTile core (off / 512) s else s) s

/-- Bytes at addresses of a base: a rising run in device memory, each through the swizzle on chip. -/
def Env.readBase (e : Env) (gather : Bool) (kind : AccKind) (path : Option Nat) (base swz : Nat) (as : List Nat) :
    Op (List Byte × Bool) := do
  let a := as.headD 0
  if baseMode base = 0 then
    if gather then e.gather a as.length else e.readVa kind path a as.length
  else
    let s ← get
    match e.owner s base with
    | none => opStop .wait
    | some o =>
      let ps := as.map (spotOf s o base swz)
      let s ← opRun fun s => let u := spotScrub o.core ps s; (u, u)
      let bs := ps.map (spotRead s o.core)
      pure (bs.map (·.1), bs.any (·.2))

/-- The code of an element and its poison (11 R236). -/
def Env.readElem (e : Env) (gather : Bool) (kind : AccKind) (path : Option Nat) (r : TRec) (x : List Int) : Op (Nat × Bool) := do
  let (bs, bad) ← e.readBase gather kind path r.base r.swz (r.bytes x)
  pure (bitsAt (leNat bs) (r.bit x % 8) r.width, bad)

/-- The scale code of an element of a scaled record. -/
def Env.readScale (e : Env) (gather : Bool) (r : TRec) (x : List Int) : Op (Option Nat × Bool) := do
  if r.sc then
    let (bs, bad) ← e.readBase gather .read none r.scbase 0 [r.scaleAddr x]
    pure (some (leNat bs), bad)
  else pure (none, false)

/-- Gather-cache blocks that hold a written byte of a physical line are dropped in the writer's cluster (15 R331). -/
def gcWritten (cl line : Nat) (mask : BitVec 128) (s : State) : State :=
  (coresOfCluster s cl).foldl (fun s c => gcDrop c (fun b =>
    b.pline == line && (mask &&& byteMask (16 * b.first) (16 * b.n)) != 0) s) s

/-- A line's bytes held in the bracket, with the virtual line they were written at (12 R277). -/
def Env.hold (e : Env) (vline line : Nat) (mask : BitVec 128) (bad : Bool) (bs : List Byte) : Op Unit := do
  let tx := e.tx (← get)
  if (tfind tx.lines line).isNone && decide (tx.lines.length ≥ 2048) then opStop .capacity
  else opMod fun s => s.modTeam e.team fun t =>
    let held := (List.range 128).foldl (fun h i => if mask.getLsbD i then tput h (128 * line + i) (bs.getD i 0) else h) t.tx.held
    { t with tx := { t.tx with held := held, lines := tput t.tx.lines line (vline, (tget t.tx.lines line (0, false)).2 || bad) } }

/-- The epoch of the command's release, taken before its first release write (22 R423). -/
def Env.epoch (e : Env) : Op Nat := do
  let s ← get
  match ((s.cmd? e.core e.key).getD e.x).epoch with
  | some n => pure n
  | none =>
    let n ← opRun (releaseEpoch e.die e.part e.rel)
    opMod fun s => s.modCmd e.core e.key fun x => { x with epoch := some n }
    pure n

/-- The release of a command whose write carries no release record, to on-chip storage or to a fabric window (12 R264, 22 R423,
R426). -/
def Env.release (e : Env) : Op Unit := do
  if e.rel != 0 && !e.x.bracketed then let _ ← e.epoch

/-- A command writes bytes of one device-memory line, named by its virtual line (17 R345, R351, 22 R421). -/
def Env.writeLine (e : Env) (a : Acc) (vline line : Nat) (mask : BitVec 128) (bad : Bool) (bs : List Byte) : Op Unit := do
  if e.x.bracketed then e.hold vline line mask bad bs
  else
    opMod (gcWritten (clusterOf e.core) line mask)
    let full := mask == BitVec.allOnes 128
    if e.rel = 0 then opMod (devWriteLine e.die a line mask full bad bs)
    else
      let ep ← e.epoch
      opMod fun s =>
        let s := serveRecord e.die line (homeTouch a line s)
        let s := devWriteLine e.die a line mask full bad bs s
        let s := if homeDie (128 * line) = e.die then s else visWriteBack e.die line s
        setRecord e.die e.rel ep a line s

/-- A request of a command to a fabric window (26 R490, R491, R504). -/
def Env.request (e : Env) (op va pa : Nat) (data : List Byte) (bad : Bool) (positions : Nat) : Op Unit := do
  match windowOf (← get) e.part pa with
  | .error k => opStop (.fault va k 0 true)
  | .ok w =>
    e.release
    let rank ← if w.land then opRun State.takeFree else pure 0
    let m : Msg := { op := if w.land then 1 else op, rkey := w.rkey, addr := w.addr, len := data.length, data := data,
                     imm := if w.land then 2 ^ 31 * b2n bad + rank % 64 else 0, va := va,
                     what := .command e.core e.key positions, grid := some e.tm.grid }
    opMod fun s => (sendMsg w.conn m (countSent e.tm.grid e.die s)).modCmd e.core e.key fun x => { x with waiting := true }

/-- Bytes to be written, by address: the changed bits, their value and their poison. -/
abbrev Pending := Table (Nat × Nat × Bool)

/-- An element's bits put among the pending bytes; a later element stands over an earlier one (11 R248). -/
def Pending.put (t : Pending) (as : List Nat) (shift width v : Nat) (bad : Bool) : Pending :=
  let m := (2 ^ width - 1) * 2 ^ shift
  let x := v % 2 ^ width * 2 ^ shift
  ((List.range as.length).zip as).foldl (fun t e =>
    let mk := bitsAt m (8 * e.1) 8
    let (om, ov, ob) := tget t e.2 (0, 0, false)
    tput t e.2 (om ||| mk, (ov &&& (255 - mk)) ||| bitsAt x (8 * e.1) 8, ob || bad)) t

/-- The bytes of a line among the pending ones. -/
def Pending.line (t : Pending) (line : Nat) : Pending := t.filter fun e => e.1 / 128 == line
/-- The lines that pending bytes touch, rising. -/
def Pending.lines (t : Pending) : List Nat := t.foldl (fun l e => nadd l (e.1 / 128)) []

/-- The pending bytes of one virtual line are written. -/
def Env.flushLine (e : Env) (t : Pending) (vline : Nat) : Op Unit := do
  let t := t.line vline
  let bad := t.any fun b => b.2.2.2
  let part := t.filter fun b => b.2.1 != 255
  let va := 128 * vline
  let whole (old : Nat → Byte) : List Byte := (List.range 128).map fun i =>
    match tfind t (va + i) with
    | none => 0
    | some (m, v, _) => BitVec.ofNat 8 (((old (va + i)).toNat &&& (255 - m)) ||| v)
  match ← e.access .write none va with
  | .dev pa a =>
    let mask : BitVec 128 := BitVec.ofNat 128 (t.foldl (fun n b => n + 2 ^ (b.1 - va)) 0)
    let olds ← opRun fun s => part.foldl (fun (r : Table Byte × State) b =>
      let (q, s) := e.devRead a (pa + (b.1 - va)) 1 r.2
      (tput r.1 b.1 (q.1.headD 0), s)) ([], s)
    e.writeLine a vline (pa / 128) mask bad (whole fun i => tget olds i 0)
  | .chip core off tile =>
    e.release
    opMod fun s => t.foldl (fun s b =>
      let o := off + (b.1 - va)
      let (q, s) := if b.2.1 = 255 then (([], false), s) else chipRead core o 1 tile s
      chipWrite core o tile [BitVec.ofNat 8 (((q.1.headD 0).toNat &&& (255 - b.2.1)) ||| b.2.2.1)] b.2.2.2 s) s
  | .fabric _ => pure ()

/-- Each of a list of lines is flushed. -/
def Env.flushLines (e : Env) (t : Pending) : List Nat → Op Unit
  | [] => pure ()
  | l :: r => do e.flushLine t l; e.flushLines t r

/-- The pending bytes of a base are written (11 R248). -/
def Env.flush (e : Env) (base swz : Nat) (t : Pending) : Op Unit := do
  if baseMode base = 0 then e.flushLines t t.lines
  else
    let s ← get
    match e.owner s base with
    | none => opStop .wait
    | some o =>
      e.release
      opMod fun s => spotScrub o.core ((t.filter fun b => b.2.1 != 255).map fun b => spotOf s o base swz b.1) s
      opMod fun s => spotWrite o.core (t.map fun b =>
        let p := spotOf s o base swz b.1
        (p, BitVec.ofNat 8 (((spotRead s o.core p).1.toNat &&& (255 - b.2.1)) ||| b.2.2.1), b.2.2.2)) s

/-- The destination of an element can be written now: its translations and permissions, or a resident owner. A fabric
target is answered as such. -/
def Env.canWrite (e : Env) (base : Nat) (as : List Nat) : Op (Option Nat) := do
  if baseMode base = 0 then
    let a := as.headD 0
    let b := as.getLastD 0
    let t ← e.access .write none a
    let u ← if b / 65536 != a / 65536 then e.access .write none (b / 65536 * 65536) else pure t
    match t, u with
    | .fabric pa, _ | _, .fabric pa => pure (some pa)
    | _, _ => pure none
  else
    match e.owner (← get) base with
    | none => opStop .wait
    | some _ => pure none

end Sys2Proof.Machine
end

