-- ==== Sys2Proof/Machine/Job.lean ====
section
/-! DEFINITION. The positions of a command: their order, coordinates, values and writes, and the run of positions that the
engine performs at once (11 R245 to R257, 24 R470). -/

namespace Sys2Proof.Machine

open Sys2Proof

/-- What a command moves (11 R246 to R252, 10 R230). -/
inductive JobKind where
  | copy | fill | drain
  deriving DecidableEq, Repr

/-- A command's positions, or those of a ring's current chunk: the records, the counts of each dimension with its padding
below, and how coordinates follow. -/
structure Job where
  kind : JobKind
  src : TRec
  dst : TRec
  sizes : List Nat
  lo : List Nat
  total : Nat
  /-- Positions before these, of earlier chunks. -/
  first : Nat := 0
  perm : List Nat
  os : List Int
  od : List Int
  /-- The indexed dimension, the index record and origin, and whether the source or the destination is indexed. -/
  g : Nat := 5
  idx : Option TRec := none
  oi : Int := 0
  gather : Bool := false
  scatter : Bool := false
  op : Nat := 0
  conj : Bool := false
  data : List Nat := []
  poi : Bool := false

/-- The dimensions of the positions. -/
def Job.nd (j : Job) : Nat := j.sizes.length

/-- The position of an index in canonical order (11 R245). -/
def Job.q (j : Job) (k : Nat) : List Int :=
  (List.range j.nd).map fun d =>
    let below := (j.sizes.take d).foldl (· * ·) 1
    ((k / below % at0 j.sizes d : Nat) : Int) - at0 j.lo d

/-- A position in the padding (11 R246). -/
def Job.padding (j : Job) (q : List Int) : Bool :=
  j.kind == .copy && (List.range j.nd).any fun d => decide (at0i q d < 0) || decide (at0i q d ≥ at0 j.dst.box d)

/-- The sizes of a record's positions with its padding. -/
def TRec.sizes (r : TRec) : List Nat := (List.range r.dims).map fun d => at0 r.box d + at0 r.padlo d + at0 r.padhi d

/-- A record's first record snapshot, or an empty one. -/
def snapAt (x : Command) (k : Nat) : TRec := trecOf ((x.snaps[k]?).getD 0)

/-- The product of sizes. -/
def prod (l : List Nat) : Nat := l.foldl (· * ·) 1

/-- One dimension's origin advanced. -/
def addAt (l : List Int) (d : Nat) (v : Int) (n : Nat) : List Int :=
  (List.range n).map fun i => if i = d then at0i l i + v else at0i l i

/-- The slot record of a slot (12 R272). -/
def slotRec (r : TRec) (stride k : Nat) : TRec :=
  { r with base := r.base + k * stride, scbase := if r.sc then r.scbase + k * r.scaleBytes else r.scbase }

/-- The positions of a ring's chunk (12 R272). -/
def ringJob (x : Command) (r : Ring) (n : Nat) : Job :=
  let f := x.flds
  let stream := snapAt x 0
  let slot := slotRec (snapAt x 1) r.stride (n % r.n)
  let nd := slot.dims
  let d := bitsAt f.x 15 3
  let so := addAt x.os d (n * at0 slot.box d : Nat) nd
  let zero : List Int := List.replicate nd 0
  let sizes := (List.range nd).map (at0 slot.box)
  let (src, dst, os, od) := if r.dir = 0 then (stream, slot, so, zero) else (slot, stream, zero, so)
  { kind := .copy, src := src, dst := { dst with box := slot.box, padlo := [], padhi := [] }, sizes := sizes, lo := [],
    total := prod sizes, first := n * prod sizes, perm := List.range nd, os := os, od := od, conj := bitAt f.mod 0 }

/-- The positions of a command that is no ring. -/
def plainJob (x : Command) : Job :=
  let f := x.flds
  let a := snapAt x 0
  let b := snapAt x 1
  let nd := a.dims
  let base : Job :=
    { kind := .copy, src := b, dst := a, sizes := a.sizes, lo := (List.range nd).map (at0 a.padlo), total := prod a.sizes,
      perm := permOf f.x nd, os := x.os, od := x.od, conj := bitAt f.mod 0 }
  let g := bitsAt f.x 15 3
  match x.instr with
  | .cpyg _ => { base with g := g, idx := some (snapAt x 2), oi := x.oi, gather := true }
  | .cpys _ => { base with g := g, idx := some (snapAt x 2), oi := x.oi, scatter := true, op := bitsAt f.mod 2 4 }
  | .cpyf _ => { base with kind := .fill, src := a, conj := false }
  | .drainH _ =>
    { base with kind := .drain, src := a, sizes := [32, 32], lo := [], total := 1024, conj := false, data := x.data, poi := x.poi,
                op := if bitAt f.x 25 then (if isIntFmt a.fmt.code then 1 else 7) else 0 }
  | _ => base

/-- The value of one position before its conversion, or the bits to be written. -/
structure PosVal where
  raw : Option Nat
  vals : List Val := []
  bad : Bool
  filled : Bool := false
  /-- Device-memory address read, and its bytes. -/
  va : Option (Nat × Nat) := none

/-- The index of a position (11 R249). -/
def Env.index (e : Env) (j : Job) (q : List Int) : Op (Int × Bool) := do
  match if j.gather && j.padding q then none else j.idx with
  | none => pure (0, false)
  | some r =>
    let k := j.oi + at0i q j.g
    if r.inside [k] then
      let (v, bad) ← e.readElem j.gather .read none r [k]
      pure (signedOf 32 v, bad)
    else pure (signedOf 32 r.fill, false)

/-- The source coordinates of a position (11 R246, R249). -/
def Job.x (j : Job) (q : List Int) (i : Int) : List Int :=
  (List.range j.nd).map fun d =>
    match (List.range j.nd).find? fun k => at0 j.perm k == d with
    | some k => if j.gather && k == j.g then i else at0i j.os d + at0i q k
    | none => 0

/-- The destination coordinates of a position (11 R246, R249, 10 R230). -/
def Job.y (j : Job) (q : List Int) (i : Int) : List Int :=
  (List.range (max j.nd j.dst.dims)).map fun d => if j.scatter && d == j.g then i else at0i j.od d + at0i q d

/-- The destination coordinates lie within the extent; DRAIN.H into one dimension needs row 0 (10 R230). -/
def Job.lands (j : Job) (y : List Int) : Bool :=
  j.dst.inside y && (List.range (j.nd - j.dst.dims)).all fun d => at0i y (j.dst.dims + d) == 0

/-- A transfer that copies bits (11 R247). -/
def Job.bits (j : Job) : Bool := bitCopy j.src j.dst j.conj

/-- A position whose source lies outside its extent: its value is the source's FILL, and FILLS counts it (11 R246). -/
def Job.filled (j : Job) (q : List Int) (i : Int) : Bool := j.kind == .copy && !j.padding q && !j.src.inside (j.x q i)

/-- The value at a position (11 R246, R247, R251). -/
def Env.value (e : Env) (j : Job) (k : Nat) (q : List Int) (i : Int) (ibad : Bool) : Op PosVal := do
  if j.kind == .fill || j.padding q then pure { raw := some j.dst.fill, bad := ibad }
  else if j.kind == .drain then pure { raw := some (at0 j.data (33 * (k / 32) + k % 32)), bad := j.poi }
  else
    let x := j.x q i
    if !j.filled q i then
      let (v, bad) ← e.readElem j.gather .read none j.src x
      let va := if baseMode j.src.base = 0 then some ((j.src.bytes x).headD 0, (j.src.bytes x).length) else none
      if j.bits then pure { raw := some v, bad := bad || ibad, va := va }
      else
        let (sc, sbad) ← e.readScale j.gather j.src x
        pure { raw := none, vals := j.src.fmt.scaled sc v, bad := bad || sbad || ibad, va := va }
    else
      let v := j.src.fill % 2 ^ j.src.width
      if j.bits then pure { raw := some v, bad := ibad, filled := true }
      else pure { raw := none, vals := j.src.fmt.values v, bad := ibad, filled := true }

/-- The rounding modes of a write at coordinates (11 R247). -/
def Job.mode (j : Job) (y : List Int) : Rm :=
  modeOf j.dst.rm j.dst.seed ((List.range 5).map fun d => if d < j.nd then wrapNat 32 (at0i y d) else 0)

/-- The sign of the imaginary part inverted (02 R45, 11 R247). -/
def flipImag (w v : Nat) : Nat := v ^^^ 2 ^ (w - 1)

/-- The bits that a value gives at coordinates of an unscaled destination (11 R247). -/
def Job.code (j : Job) (y : List Int) (v : PosVal) : Nat :=
  match v.raw with
  | some b => b
  | none =>
    let c := convert j.src.fmt j.dst.fmt (fun _ => j.mode y) j.dst.sat j.dst.ftz v.vals
    if j.conj then flipImag j.dst.width c else c

/-- Try a computation: its stop becomes a value. -/
def opTry {α : Type} (o : Op α) : Op (Except Stop α) := ExceptT.mk fun s => let (r, s) := o.run s; (.ok r, s)

/-- A run of positions in the making. -/
structure Run where
  n : Nat := 0
  pend : Pending := []
  scales : Pending := []
  /-- The last line written, and the last line of scales. -/
  line : Option Nat := none
  sline : Option Nat := none
  drops : Nat := 0
  fills : Nat := 0
  /-- Device-memory addresses of the positions with their lengths, by place in the run. -/
  seen : List (Nat × Nat × Nat) := []
  stop : Option Stop := none

/-- A reduction's result (11 R250). -/
def reduce (fmt : Fmt) (sat : Bool) (op old v : Nat) : Nat :=
  let w := fmtBits fmt.code
  let so := intDecode fmt.code old
  let sv := intDecode fmt.code v
  match op with
  | 1 => wrapNat w (intEncode fmt.code sat (so + sv))
  | 2 => if so ≤ sv then old else v
  | 3 => if so ≥ sv then old else v
  | 4 => old &&& v
  | 5 => old ||| v
  | 6 => old ^^^ v
  | 7 => fmt.join (((fmt.values old).zip (fmt.values v)).map fun p => fmt.fp.round .rn (exactSum [p.1, p.2]))
  | 8 => minMax fmt.fp false old v
  | 9 => minMax fmt.fp true old v
  | _ => v

/-- The PATH bit of an element's width (18 R365). -/
def pathBit (fmt : Nat) : Nat := if fmtBits (if isCplx fmt then (if fmt = 0x0F then 7 else 9) else fmt) ≤ 32 then 58 else 59

/-- Bytes written at the home copy, or held with the virtual page they were written at, by an indivisible operation of a command (17 R347, 22 R422). -/
def Env.homeUpdate (e : Env) (a : Acc) (page pa : Nat) (bs : List Byte) (bad : Bool) : List Nat → Op Unit
  | [] => pure ()
  | l :: ls => do
    let mask := lineMask pa bs.length l
    if e.x.bracketed then e.hold (512 * page + l % 512) l mask bad (lineSlice pa bs l)
    else
      opMod (gcWritten (clusterOf e.core) l mask)
      opMod (homeWrite a l mask (mask == BitVec.allOnes 128) bad (lineSlice pa bs l))
      if e.rel != 0 then
        let ep ← e.epoch
        opMod (setRecord e.die e.rel ep a l)
    e.homeUpdate a page pa bs bad ls

/-- An indivisible operation's bytes written page by page. -/
def Env.updateRuns (e : Env) (path : Option Nat) (bad : Bool) : List (Nat × Nat) → List Byte → Op Unit
  | [], _ => pure ()
  | (va, n) :: r, bs => do
    match ← e.access .rmw path va with
    | .dev pa a => e.homeUpdate a (va / 65536) pa (bs.take n) bad (linesIn pa n)
    | .chip core off tile =>
      e.release
      opMod (chipWrite core off tile (bs.take n) bad)
    | .fabric _ => pure ()
    e.updateRuns path bad r (bs.drop n)

/-- A line's bytes of a write are performed, line by line. -/
def Env.writeLines (e : Env) (a : Acc) (page pa : Nat) (bs : List Byte) (bad : Bool) : List Nat → Op Unit
  | [] => pure ()
  | l :: ls => do
    e.writeLine a (512 * page + l % 512) l (lineMask pa bs.length l) bad (lineSlice pa bs l)
    e.writeLines a page pa bs bad ls

/-- Bytes sent to a fabric window, one message a page, the last covering `n` positions (26 R490). A page of the run that is no
window's is written. -/
def Env.sendRuns (e : Env) (bad : Bool) (n : Nat) : List (Nat × Nat) → List Byte → Op Unit
  | [], _ => pure ()
  | (va, k) :: r, bs => do
    match ← e.access .write none va with
    | .fabric pa => e.request 0 va pa (bs.take k) bad (if r.isEmpty then n else 0)
    | .dev pa a => e.writeLines a (va / 65536) pa (bs.take k) bad (linesIn pa k)
    | .chip core off tile =>
      e.release
      opMod (chipWrite core off tile (bs.take k) bad)
    e.sendRuns bad n r (bs.drop k)

/-- One contribution of a reduction to an element (11 R250, 26 R491). The positions it completes: 1, or 0 while a message
carries it. -/
def Env.contribute (e : Env) (j : Job) (y : List Int) (v : Nat) (bad : Bool) : Op Unit := do
  let as := j.dst.bytes y
  let path := if scopeX e.x.flds = 5 then some (pathBit j.dst.fmt.code) else none
  let new (bs : List Byte) : List Byte := leBytes as.length (reduce j.dst.fmt j.dst.sat j.op (leNat bs) v)
  if baseMode j.dst.base = 0 then
    let va := as.headD 0
    match ← e.access .rmw path va with
    | .dev _ _ | .chip _ _ _ =>
      let (bs, old) ← e.readVa .rmw path va as.length
      e.updateRuns path (bad || old) (pageRuns (as.length + 1) va as.length) (new bs)
    | .fabric pa =>
      match windowOf (← get) e.part pa with
      | .ok w =>
        if w.land then
          e.request 1 va pa (leBytes as.length v) bad 1
          opStop .wait
        else opStop (.path va 0)
      | .error k => opStop (.fault va k 0 true)
  else
    let s ← get
    match e.owner s j.dst.base with
    | none => opStop .wait
    | some o =>
      let sp := as.map fun a => spotOf s o j.dst.base j.dst.swz a
      let s ← opRun fun s => let u := spotScrub o.core sp s; (u, u)
      let old := sp.map fun p => spotRead s o.core p
      let bs := new (old.map (·.1))
      e.release
      opMod (spotWrite o.core ((sp.zip bs).map fun p => (p.1, p.2, bad || old.any (·.2))))

/-- One element joins a run's pending bytes, with the zero bits behind the last of its row (02 R35). -/
def Run.add (r : Run) (d : TRec) (y : List Int) (v : Nat) (bad : Bool) : Run :=
  let as := d.writes y
  { r with pend := r.pend.put as (d.bit y % 8) (d.width + (d.pad y).2) (v % 2 ^ d.width) bad, line := some (as.getLastD 0 / 128) }

/-- A write whose first byte continues a run: in the run's last line, or, for a scaled element, with its scale in the run's last
scale line (17 R351; log 37). -/
def Run.takes (r : Run) (as : List Nat) (scale : Option Nat) : Bool :=
  match r.line with
  | none => true
  | some l => as.headD 0 / 128 == l || (scale.isSome && scale == r.sline)

/-- A position whose element is quantised with its block: no padding, no fill (11 R246, R251). -/
def Job.scaled (j : Job) (q : List Int) : Bool := j.dst.sc && !j.padding q && j.kind != .fill

/-- A position of a block of a scaled destination, with its coordinates and value. -/
structure BlockPos where
  k : Nat
  y : List Int
  v : PosVal

/-- The positions of a list that a block of 32 destination elements holds, with their values: those of the row whose coordinates
share the block of `y0` (02 R46, 11 R247, R249). -/
def Env.blockPos (e : Env) (j : Job) (y0 : List Int) : List Nat → Op (List BlockPos)
  | [] => pure []
  | k :: ks => do
    let q := j.q k
    if !j.scaled q then e.blockPos j y0 ks
    else
      let (i, b) ← e.index j q
      let y := j.y q i
      if j.lands y && at0i y 0 / 32 == at0i y0 0 / 32 && y.tail == y0.tail then
        let v ← e.value j k q i b
        let r ← e.blockPos j y0 ks
        pure ({ k := k, y := y, v := v } :: r)
      else e.blockPos j y0 ks

/-- The positions that can share a block with the one at `k`: its row's next 32, or the whole row where the innermost dimension is
scattered. -/
def Job.row (j : Job) (k : Nat) : List Nat :=
  let n := at0 j.sizes 0
  if j.scatter && j.g == 0 then (List.range n).map (k / n * n + ·)
  else (List.range (min 32 (n - k % n))).map (k + ·)

/-- The members of a block that stand at `k` and directly behind it. -/
def blockRun (bs : List BlockPos) (k : Nat) : Nat → List BlockPos
  | 0 => []
  | fuel + 1 => match bs.find? fun b => b.k == k with | some b => b :: blockRun bs (k + 1) fuel | none => []

/-- A block of a scaled destination as the position at `k` writes it: its scale code, the positions from `k` on with their
elements, and whether a value is poisoned (02 R47, 11 R247). Of two positions of one element the later counts. -/
def Env.block (e : Env) (j : Job) (k : Nat) (y : List Int) : Op (Nat × List (BlockPos × Nat) × Bool) := do
  let bs ← e.blockPos j y (j.row k)
  let run := blockRun bs k bs.length
  let bad := bs.any (·.v.bad)
  if j.kind == .drain then pure (at0 j.data (33 * (k / 32) + 32), run.map fun b => (b, b.v.raw.getD 0), bad)
  else
    let last := bs.filter fun b => !bs.any fun c => decide (b.k < c.k) && c.y == b.y
    let (code, es) := quantise j.dst.fmt (fun i => j.mode ((last[i]?).elim [] (·.y))) j.dst.ftz (last.map fun b => b.v.vals.headD .nan)
    let elem (b : BlockPos) : Nat := ((last.zip es).find? fun c => c.1.y == b.y).elim 0 (·.2)
    pure (code, run.map fun b => (b, elem b), bad)

/-- A block's positions from `k` on join a run: its scale and its elements (02 R47, 11 R247, R257). -/
def Env.addBlock (e : Env) (j : Job) (k : Nat) (y : List Int) (r : Run) : Op Run := do
  let (code, run, bad) ← e.block j k y
  let sa := j.dst.scaleAddr y
  let _ ← e.canWrite j.dst.base (run.flatMap fun b => j.dst.writes b.1.y)
  let _ ← e.canWrite j.dst.scbase [sa]
  let r := run.foldl (fun r b => r.add j.dst b.1.y b.2 bad) r
  pure { r with n := r.n + run.length, scales := r.scales.put [sa] 0 8 code bad, sline := some (sa / 128),
                fills := r.fills + (run.filter (·.1.v.filled)).length,
                seen := r.seen ++ (run.filterMap fun b => b.1.v.va.map fun a => (r.n + (b.1.k - k), a))
                  ++ (if baseMode j.dst.base = 0 then run.map fun b =>
                        (r.n + (b.1.k - k), (j.dst.bytes b.1.y).headD 0, (j.dst.bytes b.1.y).length) else []) }

/-- A block, or one element, sent to a fabric window; the bytes beside its bits are read first (26 R490). -/
def Env.send (e : Env) (j : Job) (k : Nat) (q y : List Int) (i : Int) (ib : Bool) : Op Unit := do
  let (code, es, bad) ← if j.scaled q then do
      let (c, run, b) ← e.block j k y
      pure (some c, run.map fun x => (x.1.y, x.2), b)
    else do
      let v ← e.value j k q i ib
      pure (none, [(y, j.code y v)], v.bad)
  let w := j.dst.width
  let sh := j.dst.bit y % 8
  let pad := (j.dst.pad ((es.getLast?).elim y (·.1))).2
  let bits := w * es.length + pad
  let n := (sh + bits + 7) / 8
  let va := (j.dst.bytes y).headD 0
  let old ← if (sh + bits) % 8 == 0 && sh == 0 then pure 0
    else (do let (bs, _) ← e.readVa .read none va n; pure (leNat bs))
  match code with
  | some c => e.sendRuns bad 0 [(j.dst.scaleAddr y, 1)] [BitVec.ofNat 8 c]
  | none => pure ()
  e.sendRuns bad es.length (pageRuns (n + 1) va n) (leBytes n (putBits old sh bits (packElems w (es.map (·.2)))))
  opStop .wait

/-- A position joins a run, or ends it (`none`): a drop, a block of a scaled destination, a message to a window, or one
element. -/
def Env.addPos (e : Env) (j : Job) (k : Nat) (r : Run) : Op (Option Run) := do
  let q := j.q k
  let (i, ib) ← e.index j q
  let y := j.y q i
  if !j.lands y then
    if r.line.isSome || decide (r.n ≥ 256) then pure none
    else
      let v ← e.value j k q i ib
      pure (some { r with n := r.n + 1, drops := r.drops + 1, fills := r.fills + b2n v.filled })
  else
    let as := j.dst.writes y
    if !r.takes as (if j.scaled q then some (j.dst.scaleAddr y / 128) else none) then pure none
    else if j.op != 0 then
      if r.n != 0 then pure none
      else
        let v ← e.value j k q i ib
        let va := if baseMode j.dst.base = 0 then [(0, as.headD 0, as.length)] else []
        e.contribute j y (j.code y v) v.bad
        pure (some { r with n := 1, line := some (as.getLastD 0 / 128 + 1), fills := b2n v.filled,
                            seen := (v.va.toList.map fun a => (0, a)) ++ va })
    else
      match ← e.canWrite j.dst.base as with
      | some _ =>
        if r.n != 0 then pure none
        else
          e.send j k q y i ib
          pure none
      | none =>
        if j.scaled q then
          let r ← e.addBlock j k y r
          pure (some r)
        else
          let v ← e.value j k q i ib
          let r := r.add j.dst y (j.code y v) v.bad
          let bs := j.dst.bytes y
          let seen := if baseMode j.dst.base = 0 then [(r.n, bs.headD 0, bs.length)] else []
          pure (some { r with n := r.n + 1, fills := r.fills + b2n v.filled,
                              seen := r.seen ++ (v.va.toList.map fun a => (r.n, a)) ++ seen })

/-- A maximal run of positions from the one at `k`: those that write one line consecutively, or drops (17 R351). -/
def Env.runFrom (e : Env) (j : Job) : Nat → Nat → Run → Op Run
  | 0, _, r => pure r
  | fuel + 1, k, r => do
    if k + r.n ≥ j.total then pure r
    else match ← opTry (e.addPos j (k + r.n) r) with
      | .error st => pure { r with stop := some st }
      | .ok none => pure r
      | .ok (some r) => e.runFrom j fuel k r

end Sys2Proof.Machine
end

