-- ==== Sys2Proof/Machine/Route.lean ====
section
/-! DEFINITION. Collectives by drain: staging, firing, sending, landing, reduction and failure of a sealed route table (27
R494 to R509). -/

namespace Sys2Proof.Machine

open Sys2Proof

/-- S: elements of a chunk (27 R495). -/
def RTab.s (t : RTab) : Nat := ceilDiv 1024 t.m
/-- Bytes of an element. -/
def RTab.eb (t : RTab) : Nat := fmtBits t.fmt / 8
/-- First byte of a chunk in its tile, and its bytes (27 R495). -/
def RTab.chunkOff (t : RTab) (c : Nat) : Nat := min 1024 (c * t.s) * t.eb
def RTab.chunkLen (t : RTab) (c : Nat) : Nat := (min 1024 ((c + 1) * t.s) - min 1024 (c * t.s)) * t.eb
/-- Offset of a landing slot in the landing area (27 R495). -/
def RTab.slot (t : RTab) (p u tile : Nat) : Nat := t.tb * (u + t.q * (tile + t.n * p))
/-- The staging slot's u (27 R495). -/
def RTab.stage (t : RTab) : Nat := if t.oneShot then t.rank else 0

/-- The route table of a team's handle and the engine's state of it. -/
def routeAt (s : State) (team h : Nat) : Option (Team × Route) :=
  (s.team? team).bind fun tm => (tfind tm.routes h).map fun r => (tm, r)

/-- A tile's state in a route. -/
def Route.tile (r : Route) (k : Nat) : RouteTile := tget r.tiles k {}

/-- Where a route's state block lies in its core's pool. -/
def stateBlock (s : State) (tm : Team) (t : RTab) : Nat := regionBase s tm.core tm.slot + t.rdy

/-- The engine writes the RO fields of a route's state block (27 R498). -/
def pubRoute (tm : Team) (r : Route) (s : State) : State :=
  let t := rtabOf r.snap
  let a := stateBlock s tm t
  let s := poolWrite tm.core (a + 0x20) 8 (r.round % 2 ^ 32 + 2 ^ 32 * b2n r.failed) s
  (List.range t.n).foldl (fun s k =>
    let x := r.tile k
    poolWrite tm.core (a + 0x40 + 8 * k) 8 (x.arr0 + 2 ^ 32 * x.arr1) s) s

/-- A route's state set and its RO fields written. -/
def putRoute (team h : Nat) (r : Route) (s : State) : State :=
  match s.team? team with
  | none => s
  | some tm => pubRoute tm r (s.putTeam team { tm with routes := tput tm.routes h r })

/-- A tile's state of a route changed. -/
def modTile (team h k : Nat) (f : RouteTile → RouteTile) (s : State) : State :=
  match routeAt s team h with
  | none => s
  | some (_, r) => putRoute team h { r with tiles := tput r.tiles k (f (r.tile k)) } s

/-- The ready flag of a tile, as the engine samples it (27 R498). -/
def readyFlag (s : State) (tm : Team) (t : RTab) (k : Nat) : Bool :=
  (mget (s.core tm.core).pool (stateBlock s tm t + k / 8)).getLsbD (k % 8)
/-- The ready flag of a tile written by the engine (27 R497, R498). -/
def setReady (tm : Team) (t : RTab) (k : Nat) (v : Bool) (s : State) : State :=
  let a := stateBlock s tm t + k / 8
  let b := (mget (s.core tm.core).pool a).toNat
  poolWrite tm.core a 1 (if v then b ||| 2 ^ (k % 8) else b &&& (255 - 2 ^ (k % 8))) s

/-- The engine works on a team's routes: the team is resident, or retained after its end (27 R507, 15 R327). -/
def Team.routing (tm : Team) : Bool := tm.state == .live || tm.state == .turning || tm.state == .ended

/-- The accesses of a route: those of the engine itself, with no ordering. -/
def routeEnv (s : State) (team : Nat) (tm : Team) : Env :=
  { core := tm.core, key := s.fresh, team := team, tm := tm, acq := 0, rel := 0,
    x := { team := team, thread := 0, num := 0, instr := .stepStart 0, ticket := 0xFFFFFFFF, regs := [], snaps := [],
           buoy := none, ready := 0 } }

/-- ⊕ of two elements (27 R503). -/
def RTab.join (t : RTab) (a b : Nat) : Nat :=
  let op := if t.fmt = 7 then (match t.op with | 0 => 1 | 1 => 2 | _ => 3) else (match t.op with | 0 => 7 | 1 => 8 | _ => 9)
  reduce { code := t.fmt } false op a b

/-- The elements of bytes. -/
def RTab.elems (t : RTab) (bs : List Byte) : List Nat :=
  (List.range (bs.length / t.eb)).map fun i => leNat ((bs.drop (t.eb * i)).take t.eb)

/-- Bytes at an offset of an area are read. -/
def Env.area (e : Env) (base off n : Nat) : Op (List Byte × Bool) :=
  if n = 0 then pure ([], false)
  else e.readBase false .read none base 0 ((List.range n).map fun i => baseOff base + off + i)

/-- Bytes at an offset of an area are written, with their poison. -/
def Env.putArea (e : Env) (base off : Nat) (bs : List Byte) (bad : Bool) : Op Unit :=
  let a := baseOff base + off
  e.flush base 0 (((List.range bs.length).zip bs).map fun b => (a + b.1, 255, b.2.toNat, bad))

/-- The chunks of a tile read from an area: their bytes and poison. -/
def Env.chunks (e : Env) (t : RTab) (base off : Nat) : List Nat → Op (List (List Byte × Bool))
  | [] => pure []
  | c :: r => do
    let x ← e.area base (off + t.chunkOff c) (t.chunkLen c)
    let xs ← e.chunks t base off r
    pure (x :: xs)

/-- The keys of the table's chunk marks for a slot or step (27 R506). -/
def markKey (t : RTab) (slot p c : Nat) : Nat := t.m * (2 * slot + p) + c

/-- Bytes landed for a tile: counted in ARR and RTRECV, and poisoned chunks marked (27 R498, R504, R506, R509). -/
def countLanding (team h tile p key len : Nat) (marks : List Nat) (s : State) : State :=
  match routeAt s team h with
  | none => s
  | some (tm, r) =>
    let t := rtabOf r.snap
    let s := modTile team h tile (fun x =>
      { x with got := tput x.got (2 * key + p) (tget x.got (2 * key + p) 0 + len),
               bad := marks.foldl (fun l c => nadd l (markKey t key p c)) x.bad,
               arr0 := if p = 0 then (x.arr0 + len) % 2 ^ 32 else x.arr0,
               arr1 := if p = 0 then x.arr1 else (x.arr1 + len) % 2 ^ 32 }) s
    s.bumpCore tm.core 0x0410 len

/-- The step of a ring in which a member takes a chunk from slot `u` (27 R502). -/
def RTab.stepOf (t : RTab) (u c : Nat) : Nat :=
  if u = 1 then (t.rank + 2 * t.m - 1 - c) % t.m else t.m - 1 + (t.rank + t.m - c) % t.m

/-- An arrival at an offset of the landing area, counted for its tile (27 R504). -/
def countArrival (team h off len : Nat) (poi : Bool) (s : State) : State :=
  match routeAt s team h with
  | none => s
  | some (_, r) =>
    let t := rtabOf r.snap
    let k := off / t.tb
    let u := k % t.q
    let tile := k / t.q % t.n
    let p := k / t.q / t.n % 2
    let c := off % t.tb / (t.s * t.eb)
    if t.oneShot then countLanding team h tile p u len (if poi then List.range t.m else []) s
    else countLanding team h tile p (t.stepOf u c) len (if poi then [c] else []) s

/-- The member of a cohort by index, with its key, while its region is resident (15 R318). -/
def cohortKey (s : State) (tm : Team) (k : Nat) : Option (Nat × Team) :=
  s.teams.find? fun e => e.2.grid == tm.grid && e.2.idx == tm.idx / tm.cohort * tm.cohort + k
    && e.2.state != .saved && e.2.state != .released

/-- The table of a member that shares the sender's landing area (27 R500). -/
def peerRoute (tm : Team) (t : RTab) : Option Nat :=
  (tm.routes.find? fun e => !(rtabOf e.2.snap).net && baseOff (rtabOf e.2.snap).obase == baseOff t.obase).map (·.1)

/-- A landing write under NET 0; it is dropped where the member has no such table (27 R501, R502, R507). -/
def landPeer (tm : Team) (t : RTab) (member off tile p key : Nat) (bs : List Byte) (marks : List Nat) (s : State) : State :=
  match cohortKey s tm member with
  | none => s
  | some (k, o) => match peerRoute o t with
    | none => s
    | some h =>
      let s := poolWriteBytes o.core (regionBase s o.core o.slot + baseOff t.obase + off) bs s
      countLanding k h tile p key bs.length marks s

/-- The pieces of a message under NET 1, each within a 64 KiB page (26 R490, 27 R504). -/
def Env.sendPieces (e : Env) (h : Nat) (t : RTab) (bad : Bool) : List (Nat × Nat) → List Byte → Op Unit
  | [], _ => pure ()
  | (va, n) :: r, bs => do
    match ← e.access .write none va with
    | .fabric pa => match windowOf (← get) e.part pa with
      | .ok w =>
        let m : Msg := { op := 1, rkey := w.rkey, addr := w.addr, len := n, data := bs.take n, imm := 2 ^ 31 * b2n bad + t.rank,
                         va := va, what := .route e.team h, grid := some e.tm.grid }
        opMod fun s => sendMsg w.conn m (countSent e.tm.grid e.die s)
      | .error k => opStop (.fault va k 0 true)
    | _ => opStop (.fault va 7 0 true)
    e.sendPieces h t bad r (bs.drop n)

/-- A tile or chunk sent to a member: its landing offset, and the slot or step it counts for (27 R501, R502, R504, R509). -/
def Env.sendTo (e : Env) (h : Nat) (t : RTab) (member off tile p key : Nat) (bs : List Byte) (marks : List Nat) : Op Unit := do
  if !t.net then opMod (landPeer e.tm t member off tile p key bs marks)
  else if !bs.isEmpty then
    let va := t.pbase + member * t.pstride + off
    e.sendPieces h t (!marks.isEmpty) (pageRuns (bs.length + 1) va bs.length) bs
  opMod fun s => s.bumpCore e.core 0x0408 bs.length

/-- What an attempt at the next piece of a tile's work found: it did something, or nothing is possible. -/
inductive Work where
  | did | idle
  deriving DecidableEq, Repr

/-- The tile of a route as it stands. -/
def Env.rtile (e : Env) (h tile : Nat) : Op RouteTile := do
  let s ← get
  pure (match routeAt s e.team h with | some (_, r) => r.tile tile | none => {})

/-- A tile's result is complete: its bytes and poisoned chunks count into the route buoy, and the round advances with its
last tile (27 R499, R505, R509). -/
def completeTile (team h tile : Nat) (s : State) : State :=
  match routeAt s team h with
  | none => s
  | some (tm, r) =>
    let t := rtabOf r.snap
    let x := r.tile tile
    let n := x.badResult.length
    let p := r.round % 2
    let x := { x with done := true, got := x.got.filter (fun g => g.1 % 2 != p),
                      bad := x.bad.filter (fun k => k / t.m % 2 != p) }
    let s := engineBuoy tm t.buoy (fun b => { b with poison := (b.poison + n) % 2 ^ 16 }.update t.tb 0) s
    let s := s.bumpCore tm.core 0x0418 n
    let tiles := tput r.tiles tile x
    let all := (List.range t.n).all fun k => (tget tiles k {}).done
    let next (x : RouteTile) : RouteTile :=
      { x with fired := false, done := false, sent := 0, taken := 0, badStage := [], badResult := [] }
    let r := if all then { r with round := r.round + 1, tiles := tiles.map fun e => (e.1, next e.2) } else { r with tiles := tiles }
    putRoute team h r s

/-- The other members in rank order. -/
def RTab.others (t : RTab) : List Nat := (List.range t.m).filter (· != t.rank)

/-- The next piece of work of a fired tile under the one-shot algorithm: a send, or the reduction once every slot is present
(27 R501). -/
def Env.oneShotStep (e : Env) (h : Nat) (t : RTab) (tile p : Nat) : Op Work := do
  let x ← e.rtile h tile
  match t.others[x.sent]? with
  | some m =>
    let off := t.slot p t.rank tile
    let (bs, _) ← e.area t.obase off t.tb
    e.sendTo h t m off tile p t.rank bs x.badStage
    opMod (modTile e.team h tile fun x => { x with sent := x.sent + 1 })
    pure .did
  | none =>
    if x.done || !(t.others.all fun u => decide (tget x.got (2 * u + p) 0 ≥ t.tb)) then pure .idle
    else
      let cs := List.range t.m
      let rec gather : List Nat → Op (List (List (List Byte × Bool)))
        | [] => pure []
        | u :: r => do
          let v ← e.chunks t t.obase (t.slot p u tile) cs
          let vs ← gather r
          pure (v :: vs)
      let slots ← gather (List.range t.m)
      let bad (c : Nat) : Bool :=
        x.badStage.contains c || (t.others.any fun u => nmem x.bad (markKey t u p c))
          || slots.any fun v => ((v[c]?).getD ([], false)).2
      let value (c : Nat) : List Byte :=
        let es := slots.map fun v => t.elems ((v[c]?).getD ([], false)).1
        let first := es.headD []
        let sums := (es.drop 1).foldl (fun a b => (a.zip b).map fun q => t.join q.1 q.2) first
        sums.flatMap (leBytes t.eb)
      let rec put : List Nat → Op Unit
        | [] => pure ()
        | c :: r => do
          e.putArea t.dbase (t.tb * tile + t.chunkOff c) (value c) (bad c)
          put r
      put cs
      opMod (modTile e.team h tile fun x => { x with badResult := cs.filter bad })
      opMod (completeTile e.team h tile)
      pure .did

/-- The chunk that a member sends in a step of the ring (27 R502). -/
def RTab.sendChunk (t : RTab) (j : Nat) : Nat :=
  if j < t.m - 1 then (t.rank + t.m - j) % t.m else (t.rank + 1 + 2 * t.m - 1 - j) % t.m
/-- The chunk that a member receives in a step of the ring (27 R502). -/
def RTab.takeChunk (t : RTab) (j : Nat) : Nat :=
  if j < t.m - 1 then (t.rank + 2 * t.m - j - 1) % t.m else (t.rank + 2 * t.m - 1 - j) % t.m

/-- The next piece of work of a fired tile under the ring algorithm: a send whose step is due, or the step whose chunk has
landed (27 R502). -/
def Env.ringStep (e : Env) (h : Nat) (t : RTab) (tile p : Nat) : Op Work := do
  let x ← e.rtile h tile
  let last := 2 * t.m - 2
  if x.sent < last && x.sent ≤ x.taken then
    let j := x.sent
    let c := t.sendChunk j
    let from' := if j < t.m then 0 else 2
    let (bs, _) ← e.area t.obase (t.slot p from' tile + t.chunkOff c) (t.chunkLen c)
    let bad := if j < t.m then x.badStage.contains c else x.badResult.contains c
    let u := if j < t.m - 1 then 1 else 2
    e.sendTo h t ((t.rank + 1) % t.m) (t.slot p u tile + t.chunkOff c) tile p j bs (if bad then [c] else [])
    opMod (modTile e.team h tile fun x => { x with sent := x.sent + 1 })
    pure .did
  else
    let j := x.taken
    let c := t.takeChunk j
    if x.done || decide (tget x.got (2 * j + p) 0 < t.chunkLen c) then pure .idle
    else
      let u := if j < t.m - 1 then 1 else 2
      let (bs, b0) ← e.area t.obase (t.slot p u tile + t.chunkOff c) (t.chunkLen c)
      let b0 := b0 || nmem x.bad (markKey t j p c)
      if j < t.m - 1 then
        let at' := t.slot p 0 tile + t.chunkOff c
        let (own, _) ← e.area t.obase at' (t.chunkLen c)
        let sum := (((t.elems bs).zip (t.elems own)).map fun q => t.join q.1 q.2).flatMap (leBytes t.eb)
        let bad := b0 || x.badStage.contains c
        e.putArea t.obase at' sum bad
        if j = t.m - 2 then e.putArea t.dbase (t.tb * tile + t.chunkOff c) sum bad
        opMod (modTile e.team h tile fun x =>
          { x with taken := j + 1, badStage := if bad then nadd x.badStage c else x.badStage,
                   badResult := if bad && j == t.m - 2 then nadd x.badResult c else x.badResult })
      else
        e.putArea t.dbase (t.tb * tile + t.chunkOff c) bs b0
        opMod (modTile e.team h tile fun x =>
          { x with taken := j + 1, badResult := if b0 then nadd x.badResult c else x.badResult })
        if j + 1 = last then opMod (completeTile e.team h tile)
      pure .did

/-- The work of a fired tile, as far as what has landed allows. -/
def Env.routeWork (e : Env) (h : Nat) (t : RTab) (tile p : Nat) : Nat → Op Unit
  | 0 => pure ()
  | fuel + 1 => do
    let x ← e.rtile h tile
    if !x.fired then pure ()
    else match ← (if t.oneShot then e.oneShotStep h t tile p else e.ringStep h t tile p) with
      | .idle => pure ()
      | .did => e.routeWork h t tile p fuel

/-- A route's own access stops at a fault: its record is sent, and the route waits for the answer (27 R507, 18 R369, R370). -/
def parkRoute (team h tile va kind level : Nat) (write : Bool) (s : State) : State :=
  match routeAt s team h with
  | none => s
  | some (tm, r) =>
    let (id, s) := nextFaultId tm.core s
    let x := (routeEnv s team tm).x
    let s := postFault tm.part (cmdRecord 1 (kind + 256 * level + 2048 * b2n write) id x tm va 0xFFFFFFFF) s
    let p : Park := { va := va, kind := kind, level := level, write := write, id := id, ctx := 0xFFFFFFFF }
    s.modTeam team fun v => { v with routes := tput v.routes h { r with park := some (p, tile) } }

/-- A computation of a route: a fault parks the route. -/
def runRoute (team h tile : Nat) (o : Op Unit) (s : State) : State :=
  match o.run s with
  | (.ok _, s) => s
  | (.error (.fault va k l w), s) => parkRoute team h tile va k l w s
  | (.error _, s) => s

/-- A tile's work goes on: after its firing, an arrival, or an answered fault. -/
def advanceTile (team h tile : Nat) (s : State) : State :=
  match routeAt s team h with
  | none => s
  | some (tm, r) =>
    let t := rtabOf r.snap
    if r.failed || r.park.isSome || !tm.routing || decide (tile ≥ t.n) then s
    else runRoute team h tile ((routeEnv s team tm).routeWork h t tile (r.round % 2) (8 * t.m)) s

/-- An arrival at an offset of a route's landing area is counted, and its tile's work goes on (27 R504). -/
def takeArrival (team h off len : Nat) (poi : Bool) (s : State) : State :=
  match routeAt s team h with
  | none => s
  | some (_, r) =>
    let t := rtabOf r.snap
    advanceTile team h (off / t.tb / t.q % t.n) (countArrival team h off len poi s)

/-- The condition of a firing (27 R499). -/
def mayFire (s : State) (tm : Team) (r : Route) (tile : Nat) : Bool :=
  let t := rtabOf r.snap
  !r.failed && r.park.isNone && tm.routing && decide (tile < t.n) && readyFlag s tm t tile && !(r.tile tile).fired

/-- Tile `tile` fires (27 R499). -/
def fireTile (team h tile : Nat) (s : State) : State :=
  match routeAt s team h with
  | none => s
  | some (tm, r) =>
    if !mayFire s tm r tile then s
    else
      let t := rtabOf r.snap
      let e := routeEnv s team tm
      runRoute team h tile (do
        let cs ← e.chunks t t.obase (t.slot (r.round % 2) t.stage tile) (List.range t.m)
        let bad := (List.range t.m).filter fun c => ((cs[c]?).getD ([], false)).2
        opMod (setReady tm t tile false)
        opMod (modTile team h tile fun x => { x with fired := true, badStage := bad })
        opMod fun s => s.bumpCore tm.core 0x0400 1
        e.routeWork h t tile (r.round % 2) (8 * t.m)) s

/-- TILE_FIRE (27 R499). -/
def execTileFire (team handle tile : Nat) (s : State) : Host.Outcome State Fault Refusal := .next (fireTile team handle tile s)

/-- SLOT_COMPLETE_REDUCE (27 R501, R502). -/
def execSlotCompleteReduce (team handle tile : Nat) (s : State) : Host.Outcome State Fault Refusal :=
  .next (advanceTile team handle tile s)

/-- The positions of a DRAIN.ROUTE: its tile, in the staging slot of the round in which it next fires (27 R497). -/
def stageJob (r : Route) (x : Command) (tile : Nat) : Job :=
  let t := rtabOf r.snap
  let p := (r.round + b2n (r.tile tile).fired) % 2
  let d : TRec :=
    { base := t.obase + t.slot p t.stage tile, scbase := 0, fmt := { code := t.fmt }, sc := false, ftz := false, sat := false,
      rm := 0, swz := 0, dims := 1, kind := 0, seed := 0, fill := 0, ext := [1024], box := [1024], stride := [], padlo := [],
      padhi := [] }
  { kind := .drain, src := d, dst := d, sizes := [1024], lo := [], total := 1024, perm := [0], os := [], od := [],
    data := x.data, poi := x.poi }

/-- The table and tile of a DRAIN.ROUTE. -/
def Command.routeHandle (x : Command) : Nat := (x.regs[0]?).elim 0 (·.toNat % 256)
def Command.routeTile (x : Command) : Nat := (x.regs[1]?).elim 0 (·.toNat)

/-- A DRAIN.ROUTE must wait in the queue: its tile's flag is set (27 R497). -/
def stageWaits (s : State) (x : Command) : Bool :=
  match x.instr with
  | .drainRoute _ => match routeAt s x.team x.routeHandle with
    | some (tm, r) => readyFlag s tm (rtabOf r.snap) x.routeTile
    | none => false
  | _ => false

end Sys2Proof.Machine
end

