-- ==== Sys2Proof/Machine/Perform.lean ====
section
/-! DEFINITION. The life of a command on the copy engine: acceptance, activation, the performing of its positions, counting
and its end (11 R243 to R258, 12 R262 to R273, 24 R470). -/

namespace Sys2Proof.Machine

open Sys2Proof

/-- The accesses of a command that is not gone. -/
def cmdEnv (s : State) (core k : Nat) : Option Env :=
  (s.cmd? core k).bind fun x => (s.team? x.team).map fun tm =>
    { core := core, key := k, x := x, team := x.team, tm := tm, acq := acqScope x, rel := relScope x }

/-- A command waits for the earlier ones that a fence puts before it, for a commit in flight, or for its team's save (12 R267,
R280, 13 R299). -/
def blocked (s : State) (core : Nat) (x : Command) : Bool :=
  (x.fences.any fun f => (f.after &&& cmdKinds x.instr) != 0 && f.cmds.any fun k => (s.cmd? core k).isSome)
    || (match s.team? x.team with | some t => (x.afterCommit && t.tx.commit.isSome) || t.state == .saving | none => false)

/-- The positions of a command as they stand, if it has any to perform. -/
def jobOf (s : State) (x : Command) : Option Job :=
  match x.instr with
  | .cpyst _ => (ringOf s x).bind fun e => e.2.cur.map fun n => ringJob x e.2 n
  | .drainRoute _ => (routeAt s x.team x.routeHandle).map fun e => stageJob e.2 x x.routeTile
  | _ => some (plainJob x)

/-- The watches that a range of bytes touches (24 R459). -/
def watchOf (s : State) (p va n w : Nat) : Option Nat :=
  let r := (s.part p).reg (0x1E0 + 16 * w)
  let len := 128 * ((s.part p).reg (0x1E8 + 16 * w) % 2 ^ 32)
  let lo := 128 * bitsAt r 7 49
  if bitAt r 0 && decide (va < lo + len) && decide (lo < va + n) then some (max va lo) else none

/-- A performed position is checked against one watch: its first posts a record (24 R470). -/
def watchOne (core k c va n w : Nat) (s : State) : State :=
  match cmdEnv s core k with
  | none => s
  | some e =>
    if e.x.watched.contains w then s
    else match watchOf s e.part va n w with
      | none => s
      | some a =>
        let info := w + 4 * b2n (s.thread? e.x.thread).isNone + 8 * b2n e.x.bracketed
        let s := postDbgCore core e.tm 19 info (dbgThread e.x.num (decide (e.x.num ≥ 1024))) (BitVec.ofNat 64 a) e.x.retired
          (e.x.ticket + 2 ^ 32 * (c % 2 ^ 32)) 0 s
        s.modCmd core k fun x => { x with watched := x.watched ++ [w] }

/-- The performed positions of a run are checked against the watches; `c` is the count before the run (24 R470). -/
def watchAll (core k c : Nat) (seen : List (Nat × Nat × Nat)) (s : State) : State :=
  seen.foldl (fun s e => (List.range 4).foldl (fun s w => watchOne core k (c + e.1) e.2.1 e.2.2 w s) s) s

/-- The reads before a fence act as acquires: the release records that they read are served (12 R267, 22 R424, R425). -/
def fenceAcquire (e : Env) (s : State) : State :=
  let ls := match s.team? e.team with | some t => t.readRel | none => []
  let s := ls.foldl (fun s l => serveRecord e.die l s) s
  if ls.isEmpty then s else s.modTeam e.team fun t => { t with readRel := [] }

/-- The acquire of a command (12 R262, 15 R331, 22 R424). -/
def beginAcquire (e : Env) (s : State) : State :=
  let s := if e.acq ≥ 3 then gcDrop e.core (fun _ => true) s else s
  let s := if e.acq ≥ 4 then acquireDie e.die e.part s else s
  let s := if e.x.fences.any (fun f => decide (f.acq ≥ 4) && (f.after &&& cmdKinds e.x.instr) != 0) then fenceAcquire e s else s
  s.modCmd e.core e.key fun x => { x with begun := true }

/-- The element width by which a command counts (11 R255). -/
def countWidth (j : Job) : Nat := j.dst.width

/-- The buoy of a command: its own, or the slot's of a ring's current chunk (12 R272). -/
def buoyOfCmd (s : State) (x : Command) : Option Nat :=
  if x.isRing then (ringOf s x).bind fun e => e.2.cur.map fun n => x.rcb + 32 + 32 * (n % e.2.n)
  else x.buoy

/-- A command ends at its last position: a ring's chunk, a DRAIN.ROUTE's flag, or the command itself (12 R269, R273, 27 R497). -/
def finishJob (core k : Nat) (s : State) : State :=
  match s.cmd? core k with
  | none => s
  | some x => match x.instr with
    | .cpyst _ => endChunk core k s
    | .drainRoute _ =>
      let s := match routeAt s x.team x.routeHandle with
        | some (tm, r) => setReady tm (rtabOf r.snap) x.routeTile true s
        | none => s
      s.dropCmd core k
    | _ => s.dropCmd core k

/-- `n` more positions of a command are performed: counted, counters raised, and the end taken after the last (11 R255,
R261). -/
def countPositions (core k n drops fills : Nat) (j : Job) (s : State) : State :=
  match cmdEnv s core k with
  | none => s
  | some e =>
    let c := e.x.c + n
    let done := c - j.first
    let m := if done ≥ j.total then ceilDiv (j.total * countWidth j) 8 else done * countWidth j / 8
    let s := s.putCmd core k { e.x with c := c, counted := m, got := [], waiting := false }
    let s := countBytes e.tm (buoyOfCmd s e.x) (m - e.x.counted) s
    let s := if drops = 0 then s else s.countCore core 0x0210 drops
    let s := if fills = 0 then s else s.countCore core 0x0218 fills
    if done ≥ j.total then finishJob core k s else s

/-- A stop of a command takes effect: it parks, fails or aborts its bracket; a wait does nothing (11 R258, 12 R277, 18 R368). -/
def takeStop (core k : Nat) (st : Stop) (s : State) : State :=
  match st with
  | .fault va kind level w => parkCmd core k va kind level w s
  | .path va level => failAtOnce core k 9 va level true 2 s
  | .capacity => match s.cmd? core k with | some x => abortTx x.team 2 0 s | none => s
  | .wait => s

/-- The next run of positions of a copy, fill, drain or ring chunk (11 R246 to R251). A run that waits is performed whole later: a
wait is no stop that splits a line's write (17 R351). -/
def performRun (e : Env) (j : Job) (s : State) : State :=
  let k := e.x.c - j.first
  let fuel := if e.x.bracketed then 1 else j.total - k
  match (e.runFrom j fuel k {}).run s with
  | (.error st, s) => takeStop e.core e.key st s
  | (.ok r, s) =>
    if r.n = 0 || (r.stop == some .wait && r.line.isSome) then (match r.stop with | some st => takeStop e.core e.key st s | none => s)
    else
      let write : Op Unit := do
        e.flush j.dst.base j.dst.swz r.pend
        e.flush j.dst.scbase 0 r.scales
      match write.run s with
      | (.error st, s) => takeStop e.core e.key st s
      | (.ok _, s) => countPositions e.core e.key r.n r.drops r.fills j (watchAll e.core e.key e.x.c r.seen s)

/-- The bytes of an element are brought into the gather cache, where it is readable device memory; a faulty or poisoned line is
skipped (11 R252). -/
def Env.prefetch (e : Env) (va n : Nat) : Op Unit := do
  let rec words : List Nat → Op Unit
    | [] => pure ()
    | g :: r => do
      let s ← get
      if (gcFind (s.core e.core) (g / 8) (g % 8)).isNone then
        match (Machine.access (clusterOf e.core) e.part .read none (16 * g) s).1 with
        | .ok (.dev pa a) =>
          let (_, bad) ← opRun (Machine.devRead e.die a (pa / 128 * 128) 128)
          if !bad then let _ ← opTry (e.gcFill (g / 8) (g % 8))
        | _ => pure ()
      words r
  words ((List.range ((va + n - 1) / 16 - va / 16 + 1)).map (· + va / 16))

/-- CPYPF performs all of its positions (11 R252). -/
def performPrefetch (e : Env) (s : State) : State :=
  let r := snapAt e.x 0
  let total := prod r.sizes
  let j : Job := { plainJob e.x with src := r, dst := r, sizes := r.sizes, total := total }
  let one (s : State) (k : Nat) : State :=
    let x := (List.range r.dims).map fun d => at0i e.x.os d + at0i (j.q k) d
    if r.inside x && (s.core e.core).cfg.gcG != 0 then ((e.prefetch ((r.bytes x).headD 0) (r.bytes x).length).run s).2 else s
  let seen := (List.range total).filterMap fun k =>
    let x := (List.range r.dims).map fun d => at0i e.x.os d + at0i (j.q k) d
    if r.inside x then some (k, (r.bytes x).headD 0, (r.bytes x).length) else none
  if seen.any (fun x => promoStall s e.part x.2.1) then s
  else
    let s := (List.range total).foldl one s
    countPositions e.core e.key total 0 0 j (watchAll e.core e.key 0 seen s)

/-- The virtual lines of a CPYRC, in ascending address (11 R253). -/
def rcLines (x : Command) : List Nat :=
  let r := snapAt x 0
  let j := { plainJob x with sizes := r.sizes }
  (List.range (prod r.sizes)).foldl (fun l k =>
    let y := (List.range r.dims).map fun d => at0i x.os d + at0i (j.q k) d
    if r.inside y then (r.bytes y).foldl (fun l a => nadd l (a / 128)) l else l) []

/-- CPYRC re-encodes its next line; its lines are its positions, of 128 bytes each (11 R253, 17 R352). -/
def performRecode (e : Env) (s : State) : State :=
  let ls := rcLines e.x
  let unit : TRec := { snapAt e.x 0 with fmt := { code := 0x14 } }
  let j : Job := { plainJob e.x with dst := unit, total := ls.length, sizes := [ls.length] }
  match ls[e.x.c]? with
  | none => finishJob e.core e.key s
  | some l =>
    match (e.access .read none (128 * l)).run s with
    | (.error st, s) => takeStop e.core e.key st s
    | (.ok t, s) =>
      let s := match t with | .dev pa a => recompress a (pa / 128) s | _ => s
      let s := watchAll e.core e.key e.x.c [(0, 128 * l, 128)] s
      let s := s.modCmd e.core e.key fun x => { x with c := x.c + 1, counted := x.counted + 128 }
      let s := countBytes e.tm e.x.buoy 128 s
      if e.x.c + 1 ≥ j.total then finishJob e.core e.key s else s

/-- What a CATOM leaves in memory, given the old element (11 R254). -/
def atomResult (op w old b c : Nat) : Nat := if op = 14 then (if old = b then c else old) else atomNew op w old b

/-- A CATOM's end: the old element in its operand block, its bytes counted (11 R254, 12 R262). -/
def finishAtom (e : Env) (old : Nat) (bad drop : Bool) (s : State) : State :=
  let n := (snapAt e.x 0).width / 8
  let block := (e.x.regs[1]?).elim 0 (·.toNat)
  let s := if drop then s.countCore e.core 0x0210 1 else s
  let s := putScratch e.core (regionBase s e.core e.tm.slot + block) (leBytes n old) bad s
  let s := s.modCmd e.core e.key fun x => { x with c := 1, counted := n }
  (countBytes e.tm e.x.buoy n s).dropCmd e.core e.key

/-- CATOM (11 R254, 26 R491). -/
def performAtom (e : Env) (s : State) : State :=
  let f := e.x.flds
  let r := snapAt e.x 0
  let op := bitsAt f.mod 2 4
  let w := r.width
  let n := w / 8
  let b := at0 e.x.data 0 % 2 ^ w
  let c := at0 e.x.data 1 % 2 ^ w
  let bad := e.x.poi
  if !r.inside e.x.os then finishAtom e (r.fill % 2 ^ w) false true s
  else
    let va := (r.bytes e.x.os).headD 0
    let path := if scopeX f = 5 then some (pathBit r.fmt.code) else none
    let op' : Op (Option (Nat × Bool)) := do
      match ← e.access .rmw path va with
      | .fabric pa =>
        let ok := scopeX f == 5 && (r.fmt.code == 9 || r.fmt.code == 0x0A) && (op == 0 || op == 14)
        match windowOf (← get) e.part pa with
        | .error k => opStop (.fault va k 0 true)
        | .ok wd =>
          if !ok then opStop (.path va 0)
          else
            let _ ← e.access .rmw (some 59) va
            e.release
            let m : Msg :=
              { op := if op = 0 then 3 else 4, rkey := wd.rkey, addr := wd.addr, len := 8,
                data := leBytes 8 b ++ (if op = 14 then leBytes 8 c else []), va := va, what := .command e.core e.key 1,
                grid := some e.tm.grid }
            opMod fun s => (sendMsg wd.conn m (countSent e.tm.grid e.die s)).modCmd e.core e.key fun x => { x with waiting := true }
            pure none
      | _ =>
        let (bs, p) ← e.readVa .rmw path va n
        let old := leNat bs
        e.updateRuns path (p || bad) (pageRuns (n + 1) va n) (leBytes n (atomResult op w old b c))
        pure (some (old, p))
    match op'.run s with
    | (.error st, s) => takeStop e.core e.key st s
    | (.ok none, s) => s
    | (.ok (some (old, p)), s) => finishAtom e old p false (watchAll e.core e.key 0 [(0, va, n)] s)

/-- A command's identity in deterministic mode: acceptance of its grid, core, team, thread, ticket (24 R461; log 135). -/
def cmdIdentity (s : State) (core : Nat) (x : Command) : Nat :=
  let (g, i) := match s.team? x.team with | some t => (t.grid, t.idx) | none => (0, 0)
  (((g * 2 ^ 10 + core) * 2 ^ 32 + i) * 2 ^ 16 + x.num) * 2 ^ 32 + x.ticket

/-- A command waits for the accesses that its own follow, or for the tile operation that it takes its data from (11 R256, 10 R227). -/
def sourceWaits (s : State) (core : Nat) (x : Command) : Bool :=
  x.prior.any (accPending s) || match x.source with
    | some k => (s.core core).tileOps.any fun o => o.key == k
    | none => false

/-- An active command that can perform now. -/
def canPerform (s : State) (core : Nat) (x : Command) : Bool :=
  x.state == .active && !x.waiting && !blocked s core x && !sourceWaits s core x && (!x.isRing || (jobOf s x).isSome)

/-- In deterministic mode the partition's commands perform by ascending identity, contributions among them (11 R250, 22 R431, 24
R461). -/
def inTurn (s : State) (core : Nat) (x : Command) : Bool :=
  !detMode s core || s.cores.all fun c => partOfCore s c.1 != partOfCore s core || c.2.cmds.all fun e =>
    !canPerform s c.1 e.2 || decide (cmdIdentity s core x ≤ cmdIdentity s c.1 e.2)

/-- An active command performs its next positions, after its acquire (11 R246, 12 R262). -/
def performCmd (core k : Nat) (s : State) : State :=
  match cmdEnv s core k with
  | none => s
  | some e =>
    if !canPerform s core e.x || !inTurn s core e.x then s
    else
      let go (s : State) : State :=
        match cmdEnv s core k with
        | none => s
        | some e => match e.x.instr with
          | .cpypf _ => performPrefetch e s
          | .cpyrc _ => performRecode e s
          | .catom _ => performAtom e s
          | .cpyst _ => match jobOf s e.x with | some j => performRun e j s | none => s
          | .drainRoute _ => match jobOf s e.x with | some j => performRun e j s | none => s.dropCmd core k
          | _ => performRun e (plainJob e.x) s
      go (if e.x.begun then s else beginAcquire e s)

/-- POSITION_PERFORMED (11 R246). -/
def execPositionPerformed (core cmd : Nat) (s : State) : Host.Outcome State Fault Refusal := .next (performCmd core cmd s)

/-- Results of a core's threads that wait for an acceptance due by now complete (01 R24, 11 R243, 12 R266). -/
def landAccepted (core : Nat) (s : State) : State :=
  let clk := s.clkOf core
  let due (w : FlightWait) : Bool := match w with | .accept _ r => decide (r ≤ clk) | _ => false
  s.threads.foldl (fun s e =>
    if e.2.core == core && e.2.flight.any fun x => due x.wait then
      s.modThread e.1 fun t =>
        (t.flight.filter fun x => due x.wait).foldl Thread.commit { t with flight := t.flight.filter fun x => !due x.wait }
    else s) s

/-- Accesses and tile operations that no result in flight waits for are performed in their turn: those of a thread that has exited or
been killed, and drains to the copy engine (01 R24, 10 R227). -/
def landOrphans (core : Nat) : Nat → State → State
  | 0, s => s
  | n + 1, s =>
    let c := s.core core
    let waited (w : FlightWait) : Bool := s.threads.any fun e => e.2.core == core && e.2.flight.any fun x => x.wait == w
    match c.accs.find? fun a => !waited (.access a.1) && a.2.ready s with
    | some a => landOrphans core n (performAccess core a.1 a.2 s).2
    | none => match c.tileOps.find? fun o => !o.step && !waited (.tile o.key) && tileReady s core o.key with
      | some o => landOrphans core n (landTileOp core o.key s)
      | none => s

/-- A command is accepted 4 clk after its issue; a CATOM's operand block is read (11 R243, R254). -/
def acceptCmd (core k : Nat) (s : State) : State :=
  match cmdEnv s core k with
  | none => s
  | some e =>
    if e.x.accepted || decide (s.clkOf core < e.x.ready) then s
    else
      let x := { e.x with accepted := true }
      match x.instr with
      | .catom _ =>
        let off := regionBase s core e.tm.slot + (x.regs[1]?).elim 0 (·.toNat)
        s.putCmd core k { x with data := [poolRead s core off 8, poolRead s core (off + 8) 8], poi := poolPoisoned s core off 16 }
      | _ => s.putCmd core k x

/-- COMMAND_ACCEPTANCE (11 R243). -/
def execCommandAcceptance (core cmd : Nat) (s : State) : Host.Outcome State Fault Refusal :=
  .next (landOrphans core 64 (landAccepted core (acceptCmd core cmd s)))

/-- A command of a core that is due to be accepted. -/
def dueCmd (s : State) (core : Nat) : Option Nat :=
  (((s.core core).cmds.find? fun e => !e.2.accepted && decide (e.2.ready ≤ s.clkOf core))).map (·.1)

/-- Every acceptance that is due happens before a cycle ends. -/
def acceptDue (core : Nat) (s : State) : State :=
  let due := ((s.core core).cmds.filter fun e => !e.2.accepted && decide (e.2.ready ≤ s.clkOf core)).map (·.1)
  landOrphans core 64 (landAccepted core (due.foldl (fun s k => acceptCmd core k s) s))

/-- The place of a queued command in the order of activation (11 R257, 24 R461). -/
def activeRank (s : State) (core : Nat) (e : Nat × Command) : Nat :=
  if detMode s core then
    (((match s.team? e.2.team with | some t => t.idx | none => 0) * 65536 + e.2.num) * 2 ^ 32 + e.2.ticket) * 2 ^ 64 + e.1
  else e.2.requeued.getD e.1

/-- The queued command that becomes active next, while fewer than 16 are active or stalled (11 R257, 27 R497). -/
def nextActive (s : State) (core : Nat) : Option Nat :=
  if (activeCmds s core).length ≥ 16 then none
  else
    let q := (s.core core).cmds.filter fun e => e.2.state == .queued && e.2.accepted && !stageWaits s e.2
    (sortOn (activeRank s core) q).head?.map (·.1)

/-- The next queued command becomes active. -/
def activateCmd (core : Nat) (s : State) : State :=
  match nextActive s core with
  | some k => s.modCmd core k fun x => { x with state := .active }
  | none => s

/-- COMMAND_ACTIVATE (11 R257). -/
def execCommandActivate (core : Nat) (s : State) : Host.Outcome State Fault Refusal := .next (activateCmd core s)

/-- The position at which a command's message was acknowledged: the covered positions are performed (26 R490). -/
def ackPositions (core k n : Nat) (s : State) : State :=
  match cmdEnv s core k with
  | none => s
  | some e =>
    if n = 0 then s
    else match jobOf s e.x with
      | none => s
      | some j =>
        let index (q : List Int) : Int := match ((e.index j q).run s).1 with | .ok (i, _) => i | .error _ => 0
        let qs := (List.range n).map fun i => j.q (e.x.c - j.first + i)
        let seen := (numbered qs).flatMap fun q =>
          let i := index q.2
          let bs := j.dst.bytes (j.y q.2 i)
          let rd := j.src.bytes (j.x q.2 i)
          (if j.kind == .copy && !j.padding q.2 && !j.filled q.2 i && baseMode j.src.base = 0 then [(q.1, rd.headD 0, rd.length)] else [])
            ++ [(q.1, bs.headD 0, bs.length)]
        let fills := (qs.filter fun q => j.filled q (index q)).length
        countPositions core k n 0 fills j (watchAll core k e.x.c seen s)

/-- Bytes that a window's READ brought to a command (26 R490). -/
def gotBytes (core k va : Nat) (bs : List Byte) (s : State) : State :=
  s.modCmd core k fun x =>
    { x with waiting := false,
             got := ((List.range bs.length).zip bs).foldl (fun t b => tput t (va + b.1) b.2) x.got }

/-- The answer of a window's atomic (26 R491). -/
def gotAtomic (core k : Nat) (bs : List Byte) (s : State) : State :=
  match cmdEnv s core k with
  | none => s
  | some e => finishAtom e (leNat (bs.take 8)) false false (watchAll core k 0 [(0, ((snapAt e.x 0).bytes e.x.os).headD 0, 8)] s)

/-- What the copy engine of a core can do next (log 1): start a ring's chunk, perform positions, or activate a command. -/
def copyEvent (s : State) (core : Nat) : Option Instr :=
  let cs := (s.core core).cmds
  let ring := cs.find? fun e => e.2.isRing && e.2.state == .active &&
    (ringExits s e.2 || match ringOf s e.2 with | some (_, r) => r.canStart | none => false)
  let run := cs.find? fun e => canPerform s core e.2 && inTurn s core e.2
  match ring with
  | some e => some (.ringChunkStart core e.1)
  | none => match run with
    | some e => some (.positionPerformed core e.1)
    | none => (nextActive s core).map fun _ => .commandActivate core

end Sys2Proof.Machine
end

