-- ==== Sys2Proof/Machine/Task.lean ====
section
/-! DEFINITION. The task store and lane tasks (19 R392 to R396). -/

namespace Sys2Proof.Machine

open Sys2Proof

/-- A task entry of a team by team-relative index (19 R392). -/
def taskEntry (s : State) (tm : Team) (i : Nat) : Task :=
  let c := s.core tm.core
  tget c.tasks (tm.slot * tasksPer c + i) {}
/-- A task entry written. -/
def putTask (tm : Team) (i : Nat) (t : Task) (s : State) : State :=
  s.modCore tm.core fun c => { c with tasks := tput c.tasks (tm.slot * tasksPer c + i) t }

/-- The identifier of an entry (19 R392). -/
def taskId (gen i : Nat) : Nat := 512 * gen + i

/-- The team-relative index and entry that an identifier validly names (19 R392). -/
def validTask (s : State) (tm : Team) (id : Nat) : Option (Nat × Task) :=
  let i := id % 512
  let e := taskEntry s tm i
  if i < tasksPer (s.core tm.core) && id / 512 != 0 && e.gen == id / 512 && e.state != 0 then some (i, e) else none

/-- An entry becomes READY: it takes the next place in the core's order, which entries of one cycle share (19 R395). -/
def readyTask (tm : Team) (i : Nat) (e : Task) (s : State) : State :=
  let c := s.core tm.core
  let clk := s.clkOf tm.core
  let n := if c.taskClk == some clk then c.taskOrder - 1 else c.taskOrder
  let s := putTask tm i { e with state := 2, count := 0, order := n } s
  s.modCore tm.core fun c => { c with taskOrder := n + 1, taskClk := some clk }

/-- A decrement of an identifier's entry: the new count where it was WAITING (19 R394). -/
def decTask (tm : Team) (id : Nat) (s : State) : Option Nat × State :=
  match validTask s tm id with
  | some (i, e) =>
    if e.state != 1 then (none, s)
    else if e.count ≤ 1 then (some 0, readyTask tm i e s)
    else (some (e.count - 1), putTask tm i { e with count := e.count - 1 } s)
  | none => (none, s)

/-- TASK-POISON (06 R138). -/
def taskTrap (detail : Nat) (entry : DWord) : Trap := { cause := 0x0F, detail := detail, addr := entry }

/-- TSPAWN (19 R393). -/
def execTspawn (f : FA128) (s : State) : Host.Outcome State Fault Refusal :=
  issueKeyed (.tspawn f) (fun c s => c.withTeam s fun tm =>
    match c.chunks c.vb.toNat 64 s with
    | .error t => .error t
    | .ok off =>
      let entry : VAddr := (c.p c.f.va).setWidth 56
      let count := c.vc.toNat % 65536
      let notify := c.ve.toNat
      let named := validTask s tm notify
      match checkTarget tm.core entry s with
      | (some _, s) => .ok (c.put 2 s)
      | (none, s) =>
        if poolPoisoned s tm.core off 64 then .ok (c.put 3 s)
        else match named.filter fun e => e.2.state == 4 with
          | some (_, e) => .error (taskTrap 2 e.entry)
          | none => match (List.range (tasksPer (s.core tm.core))).find? fun i => (taskEntry s tm i).state == 0 with
            | none => .ok (c.put 1 s)
            | some i =>
              let g := (taskEntry s tm i).gen
              let g := if g + 1 ≥ 2 ^ 23 then 1 else g + 1
              let args := (List.range 16).map fun k => BitVec.ofNat 32 (poolRead s tm.core (off + 4 * k) 4)
              let e : Task := { gen := g, state := 1, count := count, entry := addr64 entry, notify := notify, args := args }
              let s := if count = 0 then readyTask tm i e s else putTask tm i e s
              .ok (c.put (BitVec.ofNat 32 (taskId g i)) s)) s

/-- TDEP (19 R394). -/
def execTdep (f : FA96) (s : State) : Host.Outcome State Fault Refusal :=
  issueKeyed (.tdep f) (fun c s => c.withTeam s fun tm =>
    let id := c.va.toNat
    match (validTask s tm id).filter fun e => e.2.state == 4 with
    | some (_, e) => .error (taskTrap 1 e.entry)
    | none =>
      let (v, s) := decTask tm id s
      .ok (c.put (match v with | some n => BitVec.ofNat 32 n | none => 0xFFFFFFFF) s)) s

/-- TQRY (19 R394). -/
def execTqry (f : FA96) (s : State) : Host.Outcome State Fault Refusal :=
  issueKeyed (.tqry f) (fun c s => c.withTeam s fun tm =>
    .ok (c.put (match validTask s tm c.va.toNat with
      | some (_, e) => BitVec.ofNat 32 (2 ^ 24 * e.state + e.count)
      | none => 0) s)) s

/-- The task entry of a lane-task thread, with its team-relative index. -/
def ownTask (s : State) (t : Thread) : Option (Nat × Task) :=
  (s.team? t.team).bind fun tm => t.task.map fun k =>
    (k - tm.slot * tasksPer (s.core tm.core), tget (s.core tm.core).tasks k {})

/-- TARG (19 R394). -/
def execTarg (f : FA96) (s : State) : Host.Outcome State Fault Refusal :=
  issueKeyed (.targ f) (fun c s =>
    let w := c.va.toNat
    .ok (c.put (match ownTask s c.t with
      | some (i, e) => if w < 16 then (e.args[w]?).getD 0 else if w = 16 then BitVec.ofNat 32 (taskId e.gen i) else 0
      | none => 0) s)) s

/-- The lane slots of a slot that hold no live thread, in a lane (07 R144). -/
def freeLaneSlots (s : State) (core slot lane : Nat) : List Nat :=
  let w := (s.core core).cfg.waves
  ((List.range w).map (· + slot * w)).filter fun l =>
    !(s.threads.any fun e => e.2.core == core && e.2.lane.toNat == lane && e.2.laneSlot == l)

/-- The READY entries of a core's task store in the order of their threads' creation, ties by entry (19 R395): the core
entry, the team and the entry. -/
def readyTasks (s : State) (core : Nat) : List (Nat × Nat × Team × Task) :=
  let c := s.core core
  let n := tasksPer c
  let es := c.tasks.filterMap fun e =>
    if e.2.state != 2 then none
    else ((s.teamsOn core).find? fun x => x.2.slot == e.1 / n && x.2.state == .live).map fun x => (e.1, x.1, x.2, e.2)
  sortOn (fun (e : Nat × Nat × Team × Task) => e.2.2.2.order) es

/-- The lane slot in which a task of a team would become a thread in this cycle: of the lowest lane with a free one, unless a
thread was created in that lane in this cycle (19 R395). -/
def taskPlace (s : State) (core : Nat) (tm : Team) : Option (Nat × Nat) :=
  ((List.range 32).find? fun l => !(freeLaneSlots s core tm.slot l).isEmpty).bind fun l =>
    if (s.core core).taskLanes.contains l then none else (freeLaneSlots s core tm.slot l).head?.map fun x => (l, x)

/-- The next task of a core that becomes a thread, with its place. -/
def nextTask (s : State) (core : Nat) : Option ((Nat × Nat × Team × Task) × Nat × Nat) :=
  (readyTasks s core).findSome? fun e =>
    if e.2.2.1.killReq then none else (taskPlace s core e.2.2.1).map fun p => (e, p)

/-- The first READY task that finds a lane slot becomes a thread (19 R395). -/
def createTask (core : Nat) (s : State) : State :=
  match nextTask s core with
  | none => s
  | some ((k, team, tm, e), lane, ls) =>
    let c := s.core core
    let depth := match s.grid? tm.grid with | some g => g.depth | none => 1
    let t := newThread team tm c.cfg.waves (1024 + (k - tm.slot * tasksPer c)) c.nextSeq depth (e.entry.setWidth 56)
    let t := { t with lane := BitVec.ofNat 32 lane, wave := BitVec.ofNat 32 (ls - tm.slot * c.cfg.waves), laneSlot := ls,
                      task := some k }
    let s := s.putCore core { c with nextSeq := c.nextSeq + 1, taskLanes := lane :: c.taskLanes,
                                     tasks := tput c.tasks k { e with state := 3, lane := lane, laneSlot := ls } }
    { s.putThread s.fresh t with fresh := s.fresh + 1 }

/-- TASK_THREAD_CREATE (19 R395). -/
def execTaskThreadCreate (core : Nat) (s : State) : Host.Outcome State Fault Refusal := .next (createTask core s)

/-- A lane-task thread's exit: its entry is FREE and its NOTIFY is decremented (19 R395). -/
def exitTask (t : Thread) (s : State) : State :=
  match s.team? t.team, t.task with
  | some tm, some k =>
    let e := tget (s.core tm.core).tasks k {}
    let s := s.modCore tm.core fun c => { c with tasks := tput c.tasks k { e with state := 0, count := 0 } }
    if e.notify = 0 then s else (decTask tm e.notify s).2
  | _, _ => s

/-- The task entries of a team that are not FREE (19 R396). -/
def openTasks (s : State) (tm : Team) : List (Nat × Task) :=
  (List.range (tasksPer (s.core tm.core))).filterMap fun i =>
    let e := taskEntry s tm i
    if e.state = 0 then none else some (i, e)

/-- The entries of a team whose last live thread has exited are freed and counted (19 R396, R398). -/
def freeTasks (tm : Team) (s : State) : State :=
  let es := openTasks s tm
  let lost := (es.filter fun e => e.2.state == 1 || e.2.state == 2).length
  let bad := (es.filter fun e => e.2.state == 4).length
  let s := es.foldl (fun s e => putTask tm e.1 { e.2 with state := 0, count := 0 } s) s
  s.modGrid tm.grid fun g => { g with orphaned := g.orphaned + lost, poisonTasks := g.poisonTasks + bad }

end Sys2Proof.Machine
end

