-- ==== Sys2Proof/Machine/Complete.lean ====
section
/-! DEFINITION. The completion of one instruction in flight, and the scrubbing of a slot (01 R24, 13 R285). -/

namespace Sys2Proof.Machine

open Sys2Proof

/-- The result in flight at a place completes: it leaves the flight and becomes visible, with what completing gave it (01 R24). -/
def landFlight (tid entry : Nat) (got : List (Nat × Word) × List Nat) (s : State) : State :=
  s.modThread tid fun t => match t.flight[entry]? with
    | some e =>
      { t with flight := t.flight.eraseIdx entry }.commit { e with regs := e.regs ++ got.1, poison := e.poison ++ got.2 }
    | none => t

/-- An earlier SETS of the thread is still in flight: they complete in issue order (06 R134). -/
def setsBefore (t : Thread) (entry : Nat) : Bool :=
  match t.flight[entry]? with
  | some e => e.sreg.isSome && (t.flight.take entry).any fun x => x.sreg.isSome
  | none => false

/-- A wait of a result of a core's thread is over by now: its access can be performed, what its fence orders has been, its tile
operation can take effect, or its acceptance is due (01 R24, 08 R165, R173, 09 R193, 11 R243). -/
def waitOver (s : State) (core : Nat) : FlightWait → Bool
  | .free => true
  | .access k => match tfind (s.core core).accs k with | some a => a.ready s | none => true
  | .fence ks => ks.all fun k => !accPending s k
  | .tile k => tileReady s core k
  | .accept _ r => decide (r ≤ s.clkOf core)
  | .step _ | .commit _ => false

/-- The result at a place of a thread may complete: it is of class V, in SETS order, its wait is over, and the cycle's arrivals and
issues have not begun (01 R24, 07 R159). -/
def mayLand (s : State) (t : Thread) (entry : Nat) : Bool :=
  match t.flight[entry]? with
  | some e => e.cls == .v && !setsBefore t entry && waitOver s t.core e.wait && !(s.core t.core).begun
  | none => false

/-- One class V result completes if it may: its access is performed, its tile operation takes effect (01 R24, R25, 08 R164, 09
R193). -/
def completeEntry (tid entry : Nat) (s : State) : State :=
  match s.thread? tid with
  | none => s
  | some t =>
    if !mayLand s t entry then s
    else match (t.flight[entry]?).map InFlight.wait with
      | some (.access k) => match tfind (s.core t.core).accs k with
        | some a => let (got, s) := performAccess t.core k a s; landFlight tid entry got s
        | none => landFlight tid entry ([], []) s
      | some (.tile k) => landFlight tid entry ([], []) (landTileOp t.core k s)
      | _ => landFlight tid entry ([], []) s

/-- INSTRUCTION_COMPLETION (01 R24). -/
def execInstructionCompletion (thread entry : Nat) (s : State) : Host.Outcome State Fault Refusal :=
  .next (completeEntry thread entry s)

/-- The place of a result of a thread that may complete now. -/
def landable (s : State) (t : Thread) : Option Nat := (List.range t.flight.length).find? (mayLand s t)

/-- Every flag of a thread is 0 (01 R30). -/
def Thread.quiet (t : Thread) : Bool := (List.range 12).all fun k => tget t.flags k 0 == 0

/-- A slot is scrubbed: its region and tiles read zero, its poison is cleared, and its handles and tasks are invalid (13 R285,
11 R237). Register storage is held by the threads. -/
def scrubSlot (core slot : Nat) (s : State) : State :=
  s.modCore core fun c =>
    let lo := c.cfg.regG * 65536 + slot * c.cfg.spadP * 4096
    let n := c.cfg.spadP * 4096
    let t := c.cfg.tiles
    let h := handlesPer c
    let e := tasksPer c
    { c with
      pool := mzero c.pool lo n, poolPoison := c.poolPoison.filter fun w => 8 * w < lo || lo + n ≤ 8 * w,
      tiles := mzero c.tiles (8192 * (slot * t)) (8192 * t), sideBand := mzero c.sideBand (512 * (slot * t)) (512 * t),
      tags := tclear c.tags (slot * t) t,
      handles := c.handles.map fun x => if slot * h ≤ x.1 && decide (x.1 < slot * h + h) then (x.1, { x.2 with valid := false, rcd := 0 }) else x,
      tasks := c.tasks.map fun x => if slot * e ≤ x.1 && decide (x.1 < slot * e + e) then (x.1, { gen := x.2.gen }) else x }

/-- The handle entries of a team are cleared (15 R327). -/
def clearHandles (tm : Team) (s : State) : State :=
  s.modCore tm.core fun c =>
    let h := handlesPer c
    { c with handles := c.handles.map fun x =>
        if tm.slot * h ≤ x.1 && decide (x.1 < tm.slot * h + h) then (x.1, { x.2 with valid := false, rcd := 0 }) else x }

/-- A tile operation of a slot. -/
def TileOp.ofSlot (o : TileOp) (slot tiles : Nat) : Bool :=
  (o.reads ++ o.writes).any fun k => decide (slot * tiles ≤ k) && decide (k < slot * tiles + tiles)

/-- Scratchpad accesses of a team's threads, or of its tile operations, are still to be performed (08 R164, 10 R216). -/
def padBusy (s : State) (team : Nat) (tm : Team) : Bool :=
  let c := s.core tm.core
  c.accs.any (fun a => a.2.team == team) || c.tileOps.any fun o => o.pending && o.ofSlot tm.slot c.cfg.tiles

/-- The tile operations of a team that have been accepted complete in their order, steps apart (09 R193). -/
def landTeamOps (core slot : Nat) (s : State) : State :=
  let ops := (s.core core).tileOps.filter fun o => !o.step && o.ofSlot slot (s.core core).cfg.tiles
  ops.foldl (fun s o => landTileOp core o.key s) s

/-- A killed team's accepted steps and tile operations leave no result behind (13 R306). -/
def discardTeamOps (core slot : Nat) (s : State) : State :=
  s.modCore core fun c =>
    { c with tileOps := c.tileOps.filterMap fun o =>
        if !o.ofSlot slot c.cfg.tiles then some o
        else if o.step then some { o with data := [], side := [], poi := false } else none }

end Sys2Proof.Machine
end

