-- ==== Sys2Proof/Machine/Halt.lean ====
section
/-! DEFINITION. Halting: breakpoints, BKPT, the outcome of a STEP, the armed stop and sampled sets, as a core meets them (24
R465 to R472). -/

namespace Sys2Proof.Machine

open Sys2Proof

/-- A bit of DBGCTL of the partition of a team (24 R459): 2 CAPTURE, 3 SAMPLE, 4 TRACE. -/
def dbgBit (s : State) (p k : Nat) : Bool := bitAt (s.part p).dbgctl.toNat k

/-- BKPT: under capture the thread halts at it, once, and otherwise it is a trap (06 R139). -/
def execBkpt (f : FA64) (s : State) : Host.Outcome State Fault Refusal :=
  issueEach (.bkpt f) (fun c s =>
    match s.team? c.t.team with
    | none => .ok s
    | some tm =>
      if !dbgBit s tm.part 2 then .error { cause := 6, detail := c.f.mod % 256, addr := 0, next := true }
      else if c.t.pastBreak then .ok s
      else
        let s := (s.bumpCore c.t.core 0x0000 (2 ^ 64 - 1)).putThread c.tid { c.t with halted := .atBreak, haltNext := false, lastIssue := some c.clk }
        .ok (postDbgCore c.t.core tm 16 (1 + 256 * (c.f.mod % 256)) (dbgThread c.t.num c.t.task.isSome) (addr64 c.pc) c.t.retired
          0 0 s)) s

/-- TRACE (24 R472). -/
def execTrace (f : FA96) (s : State) : Host.Outcome State Fault Refusal :=
  issueKeyed (.trace f) (fun c s =>
    match s.team? c.t.team with
    | none => .ok (c.put 0 s)
    | some tm =>
      if !dbgBit s tm.part 4 then .ok (c.put 0 s)
      else
        .ok (c.put 1 (postDbgCore c.t.core tm 23 c.va.toNat (dbgThread c.t.num c.t.task.isSome) (addr64 c.pc) c.t.retired
          (pair64 c.vb c.vc).toNat 0 s))) s

/-- The breakpoint register whose address a thread stands at, under capture (24 R467). -/
def breakAt (s : State) (p : Nat) (pc : VAddr) : Option Nat :=
  if !dbgBit s p 2 then none
  else (List.range 4).find? fun n =>
    let r := (s.part p).reg (0x1C0 + 8 * n)
    bitAt r 0 && bitsAt r 2 54 * 4 == pc.toNat

/-- A thread that is asked to halt, or stands at a breakpoint, halts before its next issue (24 R466, R467). -/
def haltThread (e : Nat × Thread) (s : State) : State :=
  let t := e.2
  if t.conv != .run || t.halted != .none then s
  else if t.haltNext then s.putThread e.1 { t with halted := .other, haltNext := false }
  else match s.team? t.team with
    | none => s
    | some tm => match breakAt s tm.part t.pc with
      | none => s
      | some n =>
        if t.pastBreak then s
        else postDbgCore t.core tm 16 (2 + 256 * n) (dbgThread t.num t.task.isSome) (addr64 t.pc) t.retired 0 0
          (s.putThread e.1 { t with halted := .atBreak })

/-- A HALT that every thread of the team has followed posts its record (24 R468). -/
def haltDone (core : Nat) (e : Nat × Team) (s : State) : State :=
  let ts := s.threadsOf e.1
  if !e.2.haltAsked || ts.any (fun x => x.2.haltNext && x.2.conv != .exiting) then s
  else
    let n := (ts.filter fun x => x.2.halted != .none).length
    let s := s.modTeam e.1 fun t => { t with haltAsked := false }
    postDbgCore core e.2 18 0 0xFFFFFFFF 0 0 n 0 s

/-- The outcome of a member of a stepped set: 2 with the cause of its trap, 1 waiting, or 0 (24 R469). -/
def stepOutcome (s : State) (pc : VAddr) (k : Nat) : Nat × Nat :=
  match s.thread? k with
  | none => (0, 0)
  | some t =>
    if t.conv == .trapEntry then (2, t.trapCause.toNat % 256)
    else if (match s.team? t.team with | some x => x.killReq | none => false) then (2, 0x11)
    else if (t.waiting || t.conv == .heldBuoy || t.conv == .heldGang) && t.pc == pc then (1, 0) else (0, 0)

/-- A stepped set that has issued posts its record, and its members halt (24 R469). -/
def postStep (core : Nat) (x : StepSet) (s : State) : State :=
  let rs := x.members.map (stepOutcome s x.pc)
  let worst := rs.foldl (fun (b : Nat × Nat) r => if r.1 > b.1 then r else b) (0, 0)
  let s' := x.members.foldl (fun s k => s.modThread k fun t => { t with stepping := false, haltNext := true }) s
  match s.team? x.team, x.members.head?.bind s.thread? with
  | some tm, some t =>
    postDbgCore core tm 17 (worst.1 + 256 * worst.2) (dbgThread t.num t.task.isSome) (addr64 t.pc) t.retired x.mask x.pc.toNat s'
  | _, _ => s'

/-- A selection of a STEP has issued, those whose wait was over among it, or a member of it has trapped at its fetch. -/
def stepPast (s : State) (x : StepSet) : Bool :=
  (x.issued && !x.members.any fun k => match s.thread? k with | some t => t.released | none => false) || x.members.any fun k => match s.thread? k with | some t => t.conv == .trapEntry | none => true

/-- Every stepped set of a core whose outcome is known posts its record. -/
def postSteps (core : Nat) (s : State) : State :=
  let done := (s.core core).stepSets.filter (stepPast s)
  let s := done.foldl (fun s x => postStep core x s) s
  if done.isEmpty then s
  else s.modCore core fun c => { c with stepSets := c.stepSets.filter fun x => !done.contains x }

/-- The armed stop of a partition: the target has reached or passed its count, or is gone. The target halts before its next
issue, and every other thread of the partition a fixed number of its own die's clk later (24 R465, log 82). -/
def checkStop (p : Nat) (s : State) : State :=
  let v := s.part p
  match v.stop with
  | none => s
  | some (k, num, cnt) =>
    let fire (missed : Bool) (tm : Option Team) (core : Nat) (pc retired : DWord) (s : State) : State :=
      let s : State := { s with threads := s.threads.map fun (e : Nat × Thread) =>
        if (match s.team? e.2.team with | some t => t.part == p | none => false) then
          (e.1, if e.1 = k then { e.2 with haltNext := true }
                else { e.2 with haltAt := some (s.clkOf e.2.core + Config.stopDelay) })
        else e }
      let s := s.modPart p fun v => { v with stop := none }
      let info := 2 ^ 31 * b2n missed + v.tide % 2 ^ 31
      let th := dbgThread num (decide (num ≥ 1024))
      match tm with
      | some tm => postDbgCore core tm 20 info th pc retired cnt 0 s
      | none => postDebug p (dbgWords 20 info 0 th pc retired 0 0 (s.die 0).clk cnt 0) s
    match s.thread? k with
    | some t =>
      if t.retired.toNat < cnt then s
      else fire (decide (t.retired.toNat > cnt)) (s.team? t.team) t.core (addr64 t.pc) t.retired s
    | none =>
      let saved := s.teams.any fun e => match e.2.saved with | some x => (tfind x.threads k).isSome | none => false
      if saved then s else fire true none 0 0 0 s

/-- The threads of a core whose clk of a stop has come (24 R465). -/
def haltDue (core : Nat) (s : State) : State :=
  (s.threads.filter fun e => e.2.core == core && (match e.2.haltAt with | some n => decide (n ≤ s.clkOf core) | none => false)).foldl
    (fun s e => s.putThread e.1 { e.2 with haltNext := true, haltAt := none }) s

/-- What debugging does on a core between its issues (24 R465 to R469). -/
def haltSweep (core : Nat) (s : State) : State :=
  let s := postSteps core s
  let s := haltDue core (match partOfCore s core with | some p => checkStop p s | none => s)
  let s := (s.threads.filter fun e => e.2.core == core).foldl (fun s e => haltThread e s) s
  (s.teamsOn core).foldl (fun s e => haltDone core e s) s

/-- A STEP's selection that can issue now: every member is ready, and it finds a port and a unit unless it arrives (24 R469, 07
R153). -/
def readyStep (s : State) (core : Nat) : Option (StepSet × Decoded) :=
  let c := s.core core
  match c.stepSets.find? fun x => !x.issued with
  | none => none
  | some x =>
    let ds := x.members.filterMap fun k => (s.thread? k).bind fun t =>
      (standsAt s t).bind fun d => if t.conv == .run && (t.released || t.ready s d) && !padHolds s d k t then some d else none
    match ds.head? with
    | some d =>
      if ds.length = x.members.length && d != .pad
        && (decodedArrives d || (decodedAccepted d c (s.clkOf core) && decide (c.ports.length < 4)
          && hasRoom s core { pc := x.pc, what := d, starved := false, key := 0, members := x.members })) then some (x, d) else none
    | none => none

/-- A STEP's selection begins its issue: its members are no longer halted (24 R467, R469). -/
def openStep (core : Nat) (x : StepSet) (s : State) : State :=
  let s := x.members.foldl (fun s k => s.modThread k fun t => { t with halted := .none, pastBreak := true }) s
  s.modCore core fun c => { c with stepSets := c.stepSets.map fun y => if y == x then { y with issued := true } else y }

/-- The unit code of a SAMPLE record (24 R473). -/
def unitCode (i : Instr) : Nat :=
  match i with
  | .brx _ | .callx _ => 6
  | .ret _ => 7
  | _ => match unitOf i with | .alu => 0 | .mul => 1 | .dfp => 2 | .sfu => 3 | .lsu => 4 | .eng => 5

/-- The tagged place of a run of a port, by its generator (24 R471; log 13). -/
def sampleRun (s : State) (core port per n : Nat) : Nat :=
  let det := detMode s core
  let seed : Word := if det then BitVec.ofNat 32 core else Config.sampleSeed core port
  Config.samplePlace seed n % 2 ^ per

/-- A set that issues on a port is counted, and sampled if it is the tagged one; its stage latencies, stall reason and level are
free (24 R471; log 13). -/
def sampleSet (core : Nat) (i : Instr) (members : List Nat) (s : State) : State :=
  match partOfCore s core with
  | none => s
  | some p =>
    let per := bitsAt (s.part p).dbgctl.toNat 8 5
    if !dbgBit s p 3 || decide (per < 4) || decide (per > 20) then s
    else
      let port := (s.core core).ports.length - 1
      let (n, place, run) := (tfind (s.core core).sample port).getD (0, sampleRun s core port per 0, 0)
      let next : Nat × Nat × Nat :=
        if n + 1 ≥ 2 ^ per then (0, sampleRun s core port per (run + 1), run + 1) else (n + 1, place, run)
      let s := s.modCore core fun c => { c with sample := tput c.sample port next }
      let ts := sortOn (fun (t : Thread) => t.lane.toNat) (members.filterMap s.thread?)
      match n == place, ts, ts.head?.bind fun t => s.team? t.team with
      | true, t :: _, some tm =>
        let (a, s) := s.takeFree
        let (b, s) := s.takeFree
        let opc := (opcodeOf i).getD 0
        let info := opc + 2 ^ 9 * port + 2 ^ 12 * unitCode i + 2 ^ 16 * (b / 2 ^ 16 % 10) + 2 ^ 20 * (b / 2 ^ 20 % 10)
        let mask := ts.foldl (fun m t => m ||| 2 ^ t.lane.toNat) 0
        postDbgCore core tm 22 info (dbgThread t.num t.task.isSome) (addr64 t.pc) t.retired (a % 2 ^ 64)
          (mask + 2 ^ 32 * (b % 2 ^ 16)) s
      | _, _, _ => s

end Sys2Proof.Machine
end

