-- ==== Sys2Proof/Machine/Clock.lean ====
section
/-! DEFINITION. What a core issues next in a cycle, and one clk of a die (01 R24, R25, 07 R153 to R155, R159). -/

namespace Sys2Proof.Machine

open Sys2Proof

/-- The outcome of preparing a core's next issue: an instruction for `exec` with its members in `issue`, or a state in
which nothing is left to execute. -/
inductive Prepared where
  | run (i : Instr) (s : State)
  | done (s : State)

/-- A core's threads as the cycle finds them: pads skipped, trap entries left, halts and steps looked after (03 R62, 06 R137, 24
R465 to R469). -/
def settleCore (core : Nat) (s : State) : State := haltSweep core (leaveEntries core (skipPads core s))

/-- Some member of a selection has only to be let go: its wait is over, and its set competes by itself (07 R157, 24 R469). -/
def anyReleased (s : State) (ks : List Nat) : Bool := ks.any fun k => match s.thread? k with | some t => t.released | none => false

/-- What a core does next in its cycle, past the completions: a STEP's selection, then arrivals, then the sets in R153's order (07
R153, R159, 24 R469). -/
def prepare (core : Nat) (s : State) : Prepared :=
  let s := settleCore core s
  let begin' (s : State) : State := s.modCore core fun c => { c with begun := true }
  let issue (set : IssueSet) (s : State) : Prepared := match set.what with
    | .instr i _ => .run i (sampleSet core i set.members (openSet core set s))
    | .illegal k => .done { illegalSet k set.members (openSet core set s) with issue := [] }
    | .pad => .done s
  match readyStep s core, nextArrivals s core, nextSet s core with
  | some (x, d), _, _ =>
    let set : IssueSet := { pc := x.pc, what := d, starved := false, key := 0, members := x.members }
    let t := openStep core x (begin' s)
    if anyReleased s x.members then .done t
    else match d with
      | .instr i _ => if decodedArrives d then .run i { t with issue := x.members } else issue set t
      | _ => issue set t
  | none, some (i, ms), _ => .run i { begin' s with issue := ms }
  | none, none, some set => issue set (begin' s)
  | none, none, none => .done s

/-- A core has something to issue in this cycle. -/
def canIssue (s : State) (core : Nat) : Bool :=
  let s := settleCore core s
  (readyStep s core).isSome || (nextArrivals s core).isSome || (nextSet s core).isSome

/-- The end of a cycle on one core: stall reasons and starvation are counted, ENGBUSY counts a run on the array, ports and units
are free again (07 R150, R154, R155, 09 R200). -/
def endCycle (core : Nat) (s : State) : State :=
  let clk := s.clkOf core
  let ts := s.threads.filter fun e => e.2.core == core
  let c := s.core core
  let busy := !c.ports.isEmpty || !c.steps.isEmpty || c.cmds.any fun e => e.2.state == .active
  let s := if busy then s.modCluster (clusterOf core) fun v => { v with power := 0, active := clk } else s
  let rs := ts.map fun e => (e.1, e.2.lastIssue == some clk && e.2.conv != .trapEntry, stallReason s e)
  let s := rs.foldl (fun s (r : Nat × Bool × Nat) =>
    if r.2.1 || r.2.2 == 0 then s
    else
      let s := if (s.core core).cfg.slots = 0 then s else s.bumpCore core (8 * r.2.2) 1
      if r.2.2 ≥ 8 then s.modThread r.1 fun t => { t with starve := t.starve + 1 } else s) s
  let s := match c.onArray with | some r => if clk < r.stop then s.countCore core 0x0108 1 else s | none => s
  s.modCore core fun c => { c with taskLanes := [], begun := false, ports := [], aluUsed := 0, mulUsed := 0, lsuUsed := 0, engUsed := 0 }

/-- The cores of a die that have a state of their own. -/
def busyCores (s : State) (die : Nat) : List Nat := (tkeys s.cores).filter fun c => dieOf c == die

/-- Threads that wait in HELD-BUOY on a core are sampled: what the cycle before wrote is seen (08 R182, R184). -/
def sampleCore (core : Nat) (s : State) : State :=
  ((s.threads.filter fun e => e.2.core == core && e.2.conv == .heldBuoy).map (·.1)).foldl (fun s k => sampleWaiter k s) s

/-- What is due at the start of a core's cycle: the engine, acceptances, and samples of buoys (07 R159, 08 R182, 09 R197, 11 R243). -/
def beginCycle (core : Nat) (s : State) : State := sampleCore core (acceptDue core (engineBegin core s))

/-- One clk of a die (00 R4): its cores' cycles end and the next begins, with the results of fixed classes that are due (01 R25). -/
def tickDie (die : Nat) (s : State) : State :=
  let s := (busyCores s die).foldl (fun s c => engineDue c 64 (settleCore c s)) s
  let s := (busyCores s die).foldl (fun s c => endCycle c s) s
  let s := s.modDie die fun d => { d with clk := d.clk + 1 }
  let clk := (s.die die).clk
  let s : State := { s with threads := s.threads.map fun e => if dieOf e.2.core = die then (e.1, e.2.settle clk) else e }
  (busyCores s die).foldl (fun s c => beginCycle c s) s

end Sys2Proof.Machine
end

