-- ==== Sys2Proof/Machine/Tx.lean ====
section
/-! DEFINITION. Transaction brackets: XBEGIN, XCOMMIT, XABORT, XSTAT and the outermost commit (12 R277 to R282, 22 R428). -/

namespace Sys2Proof.Machine

open Sys2Proof

/-- The transaction word (12 R278). -/
def Tx.word (t : Tx) : Word :=
  BitVec.ofNat 32 (2 ^ 31 * b2n (decide (t.depth > 0)) + 2 ^ 30 * b2n t.aborted + 2 ^ 27 * t.depth + 2 ^ 16 * t.code + t.reason)

/-- The transaction word of a team as it stands. -/
def txWord (s : State) (team : Nat) : Word := match s.team? team with | some t => t.tx.word | none => 0

/-- A word written to VD of every participant of an instance. -/
def Inst.putAll (n : Inst) (v : Word) (s : State) : State := n.finish none (fun c => [(c.f.vd, v)]) false s

/-- XSTAT (12 R278). -/
def execXstat (f : FA96) (s : State) : Host.Outcome State Fault Refusal :=
  issueKeyed (.xstat f) (fun c s => .ok (c.put (txWord s c.t.team) s)) s

/-- XBEGIN (12 R279). -/
def execXbegin (f : FA96) (s : State) : Host.Outcome State Fault Refusal :=
  issueInsts (.xbegin f) (fun n s =>
    let d := match s.team? n.team with | some t => t.tx.depth | none => 0
    let s :=
      if d = 0 then s.modTeam n.team fun t => { t with tx := { depth := 1 } }
      else if d < 7 then s.modTeam n.team fun t => { t with tx := { t.tx with depth := d + 1 } }
      else abortTx n.team 7 0 s
    .ok (n.putAll (txWord s n.team) s)) s

/-- XABORT (12 R279). -/
def execXabort (f : FA96) (s : State) : Host.Outcome State Fault Refusal :=
  issueInsts (.xabort f) (fun n s =>
    let d := match s.team? n.team with | some t => t.tx.depth | none => 0
    if d = 0 then .ok (n.putAll 0xFFFFFFFF s)
    else
      let s := abortTx n.team 1 (n.lead.va.toNat % 256) s
      .ok (n.putAll (txWord s n.team) s)) s

/-- XCOMMIT (12 R279, R280): an outermost one completes at XCOMMIT_COMPLETE. -/
def execXcommit (f : FA96) (s : State) : Host.Outcome State Fault Refusal :=
  issueInsts (.xcommit f) (fun n s =>
    match s.team? n.team with
    | none => .ok s
    | some tm =>
      if tm.tx.depth = 0 then .ok (n.putAll 0xFFFFFFFF s)
      else if tm.tx.depth > 1 then
        let s := s.modTeam n.team fun t => { t with tx := { t.tx with depth := t.tx.depth - 1 } }
        .ok (n.putAll (txWord s n.team) s)
      else
        let scope := bitsAt n.lead.f.mod 4 3
        let mine := n.parts.map (·.tid)
        let (key, c) := match tm.tx.commit with
          | some (sc, k, ts) => (k, (max sc scope, k, ts ++ mine))
          | none => (s.fresh, (scope, s.fresh, mine))
        let s := { s with fresh := s.fresh + 1 }
        let s := s.modTeam n.team fun t => { t with tx := { t.tx with commit := some c } }
        let wait (s : State) (c : Ctx) : State :=
          c.fly { cls := .v, ready := c.clk, flag := c.flag, regs := storable [(c.f.vd, 0)], poison := [], sreg := none,
                  wait := .commit key } s
        .ok (n.parts.foldl wait s)) s

/-- Where the held lines of a bracket go: each is translated and checked as a write (18 R365, R367), or the first that fails. -/
def heldPlaces (tm : Team) : Table (Nat × Bool) → State → Except (Nat × XFault) (List (Nat × Nat × Acc × Bool)) × State
  | [], s => (.ok [], s)
  | (line, vline, bad) :: r, s =>
    match access (clusterOf tm.core) tm.part .write none (128 * vline) s with
    | (.error f, s) => (.error (128 * vline, f), s)
    | (.ok t, s) => match heldPlaces tm r s with
      | (.error f, s) => (.error f, s)
      | (.ok l, s) => match t with
        | .dev pa a => (.ok ((line, pa / 128, a, bad) :: l), s)
        | _ => (.error (128 * vline, { kind := 6, level := 3 }), s)

/-- One held line is written at its home: every die's DIRTY bytes of it are written back and its copies dropped, then the held
bytes stand over it with their release record (22 R428, 15 R331). -/
def commitLine (core scope ep : Nat) (tx : Tx) (held line : Nat) (a : Acc) (bad : Bool) (s : State) : State :=
  let here := (mslice tx.held (128 * held) 128)
  let mask : BitVec 128 := BitVec.ofNat 128 (here.foldl (fun n c => n + 2 ^ (c.1 - 128 * held)) 0)
  let bs := (List.range 128).map fun i => tget tx.held (128 * held + i) 0
  let s := gcWritten (clusterOf core) line mask s
  let s := (List.range 4).foldl (fun s d => visDrop d line s) s
  let s := homeWrite a line mask (mask == BitVec.allOnes 128) bad bs s
  setRecord (dieOf core) scope ep a line s

/-- Every held write of a bracket is performed as one write, a release at the commit's scope (12 R280, 22 R428). -/
def performHeld (tm : Team) (scope : Nat) (places : List (Nat × Nat × Acc × Bool)) (s : State) : State :=
  let (ep, s) := releaseEpoch (dieOf tm.core) tm.part scope s
  places.foldl (fun s e => commitLine tm.core scope ep tm.tx e.1 e.2.1 e.2.2.1 e.2.2.2 s) s

/-- A held line lies in a region that is being promoted (18 R372). -/
def heldStall (s : State) (tm : Team) : Bool := tm.tx.lines.any fun e => promoStall s tm.part (128 * e.2.1)

/-- The outermost commit has what it waits for: an abort, or every bracketed command gone (12 R280). -/
def commitDue (s : State) (team : Nat) (tm : Team) : Bool :=
  tm.tx.commit.isSome && (tm.tx.aborted ||
    !((teamCmds s tm.core team).any (fun e => e.2.bracketed) || heldStall s tm))

/-- The write-back of a held line faults: a record that names no command tells it once, and the commit waits (18 R365, R369; log
137). -/
def commitFault (team : Nat) (tm : Team) (va : Nat) (f : XFault) (s : State) : State :=
  if tm.tx.fault = some (va, f.kind, f.level) then s
  else
    let (id, s) := nextFaultId tm.core s
    let s := s.modTeam team fun t => { t with tx := { t.tx with fault := some (va, f.kind, f.level) } }
    postFault tm.part [recWord 1 (f.kind + 256 * f.level + 2048), recWord id 0xFFFFFFFF, BitVec.ofNat 64 va, recWord 0 0xFFFFFFFF,
      tm.idx |> BitVec.ofNat 32 |> fun t => t ++ tm.gridId, 0, 0, 0] s

/-- The bracket closes: its word goes to the threads whose XCOMMIT waits, and later commands go on (12 R280, R282). -/
def closeTx (team : Nat) (tm : Team) (tx : Tx) (s : State) : State :=
  let s := s.modTeam team fun t => { t with tx := tx }
  let s := (teamCmds s tm.core team).foldl (fun s e => s.modCmd tm.core e.1 fun x => { x with afterCommit := false }) s
  match tm.tx.commit with
  | none => s
  | some (_, key, ts) =>
    let give (e : InFlight) : InFlight := { e with regs := e.regs.map fun r => (r.1, tx.word) }
    let answer (t : Thread) : Thread :=
      { t with flight := t.flight.map fun e => if e.wait == .commit key then give e else e }
    ts.foldl (fun s k => landWaits (.commit key) k (s.modThread k answer)) s

/-- An outermost commit in flight completes (12 R280). -/
def completeCommit (team : Nat) (s : State) : State :=
  match s.team? team with
  | none => s
  | some tm =>
    if !commitDue s team tm then s
    else if tm.tx.aborted then
      closeTx team tm { depth := 0, aborted := true, reason := tm.tx.reason, code := tm.tx.code } s
    else if tm.tx.failed then closeTx team tm { depth := 0, aborted := true, reason := 5 } s
    else match tm.tx.commit with
      | some (scope, _, _) => match heldPlaces tm tm.tx.lines s with
        | (.ok places, s) => closeTx team tm {} (performHeld tm scope places s)
        | (.error (va, f), s) => commitFault team tm va f s
      | none => s

/-- XCOMMIT_COMPLETE (12 R280), before the cycle's arrivals and issues (07 R159). -/
def execXcommitComplete (team : Nat) (s : State) : Host.Outcome State Fault Refusal :=
  .next (match s.team? team with | some tm => if (s.core tm.core).begun then s else completeCommit team s | none => s)

end Sys2Proof.Machine
end

