-- ==== Sys2Proof/Machine/Team.lean ====
section
/-! DEFINITION. The team leader, the tide turn, exits, kills and retention (01 R30, 13 R283 to R297, R306, 15 R327). -/

namespace Sys2Proof.Machine

open Sys2Proof

/-- The team leader: the lowest-numbered live thread that the dispatcher created (01 R12, 13 R286). -/
def leaderOf (s : State) (team : Nat) : Option (Nat × Thread) := (byNumber (ownThreads s team)).head?

/-- TLEAD (13 R286). -/
def execTlead (f : FA96) (s : State) : Host.Outcome State Fault Refusal :=
  issueKeyed (.tlead f) (fun c s =>
    let l := leaderOf s c.t.team
    let v := if c.m 0 then b2n (l.map (·.1) == some c.tid) else l.elim 0 (·.2.num)
    .ok (c.put (BitVec.ofNat 32 v) s)) s

/-- The fields of a turn record (13 R288). -/
structure TurnRec where
  entry : Nat
  handler : Nat
  threads : Nat
  regs : Nat
  spadP : Nat
  tiles : Nat
  gcg : Nat
  regMask : Nat
  tileMask : Nat
  spadMask : Nat
  bad : Bool
  deriving DecidableEq, Repr

/-- A turn record from its 768 bits; `bad` says that a reserved field is nonzero (13 R288, R291). -/
def turnRecOf (x : Nat) : TurnRec :=
  { entry := bitsAt x 0 56, handler := bitsAt x 64 56, threads := bitsAt x 128 11, regs := bitsAt x 144 9,
    spadP := bitsAt x 160 9, tiles := bitsAt x 176 7, gcg := bitsAt x 184 6, regMask := bitsAt x 192 64,
    tileMask := bitsAt x 256 64, spadMask := bitsAt x 384 256,
    bad := bitsAt x 56 8 != 0 || bitsAt x 120 8 != 0 || bitsAt x 139 5 != 0 || bitsAt x 153 7 != 0 || bitsAt x 169 7 != 0
      || bitsAt x 183 1 != 0 || bitsAt x 190 2 != 0 || bitsAt x 320 64 != 0 || bitsAt x 640 128 != 0 }

/-- The first code of R291 that a record meets, 0 where the turn succeeds; the fetch checks read their blocks. -/
def turnCode (s : State) (tm : Team) (team : Nat) (r : TurnRec) (bad : Bool) : Nat × State :=
  let c := (s.core tm.core).cfg
  let above (m n : Nat) : Bool := decide (m ≥ 2 ^ n)
  if r.bad || bad then (0x0A, s)
  else if r.threads = 0 || r.threads > 1024 || r.threads > tm.threads then (1, s)
  else if r.regs % 8 != 0 || r.regs < 8 || r.regs > 256 || r.regs > c.regs then (2, s)
  else if r.spadP > c.spadP then (3, s)
  else if r.tiles > c.tiles then (4, s)
  else if r.gcg > c.gcG then (5, s)
  else if above r.regMask (r.regs / 4) then (6, s)
  else if above r.spadMask (min r.spadP tm.spadP) then (7, s)
  else if above r.tileMask (min r.tiles tm.tiles) then (8, s)
  else
    let (e, s) := checkTarget tm.core (BitVec.ofNat 56 r.entry) s
    let (h, s) := if r.handler = 0 then (none, s) else checkTarget tm.core (BitVec.ofNat 56 r.handler) s
    if e.isSome || h.isSome then (9, s)
    else if (s.threadsOf team).any (fun e => e.2.task.isSome) || !(openTasks s tm).isEmpty then (0x0B, s)
    else (0, s)

/-- Bytes of the team's own scratchpad that lie in inherited pages. -/
def padKept (r : TurnRec) (a n : Nat) : Bool :=
  n == 0 || (List.range ((a + n - 1) / 4096 - a / 4096 + 1)).all fun k => bitAt r.spadMask (a / 4096 + k)

/-- The bytes that a record reaches in the team's own storage are inherited (13 R293). -/
def recKept (tm : Team) (r : TurnRec) (t : TRec) (up scUp : Nat) : Bool :=
  let own (b : Nat) : Bool := baseMode b == 1 || (baseMode b == 2 && basePeer b == tm.idx % tm.cohort)
  let kept (b lo hi : Nat) : Bool :=
    if !own b then true
    else if !baseTile b then padKept r lo (hi + 1 - lo)
    else if hi < 0x80000 then bitAt r.tileMask (lo / 8192)
    else bitAt r.tileMask ((lo - 0x80000) / 512)
  let (lo, hi) := t.span
  kept t.base (lo.toNat + up) (hi.toNat + up)
    && (!t.sc || kept t.scbase (baseOff t.scbase + scUp) (baseOff t.scbase + scUp + t.scaleBytes - 1))

/-- A command crosses a turn (13 R293). -/
def crosses (tm : Team) (r : TurnRec) (x : Command) : Bool :=
  let buoy := match x.buoy with | some a => padKept r a 16 | none => true
  let plain := (x.snaps.map trecOf).all fun t => recKept tm r t 0 0
  buoy && match x.instr with
    | .catom _ => padKept r ((x.regs[1]?).elim 0 (·.toNat)) 16 && plain
    | .drainH _ => x.tiles.all (bitAt r.tileMask) && plain
    | .cpyst _ => match tfind tm.rings x.rcb with
      | some g =>
        let slot := snapAt x 1
        padKept r x.rcb (32 + 32 * g.n) && recKept tm r (snapAt x 0) 0 0
          && (List.range g.n).all fun k => recKept tm r slot (k * g.stride) (k * slot.scaleBytes)
      | none => plain
    | .drainRoute _ =>
      let t := rtabOf ((x.snaps.head?).getD 0)
      padKept r t.rdy (64 + 8 * t.n) && padKept r t.buoy 16
        && (baseMode t.obase != 1 || padKept r (baseOff t.obase) t.landing)
    | _ => plain

/-- A turn that succeeds: the team enters TURNING and waits for the commands that do not cross (13 R292). -/
def beginTurn (team : Nat) (tm : Team) (bits : Nat) (s : State) : State :=
  let s := if tm.tx.depth = 0 then s
    else
      let s := abortTx team 8 0 s
      let tm := (s.team? team).getD tm
      closeTx team tm { depth := 0, aborted := true, reason := 8 } s
  let r := turnRecOf bits
  let wait := ((teamCmds s tm.core team).filter fun e => !crosses tm r e.2).map (·.1)
  s.modTeam team fun t => { t with state := .turning, turn := some bits, turnWait := wait }

/-- The turn record that a leader's TURN names: its bits, whether a word is poisoned or the bank offset is bad, or the trap of
its address (13 R287, R291). -/
def Ctx.turnRecord (c : Ctx) (s : State) : Except Trap (Nat × Bool) :=
  let a := c.va.toNat
  if bitAt c.f.mod 2 then
    match c.chunks a 96 s with
    | .error t => .error t
    | .ok off => .ok (poolRead s c.t.core off 96, poolPoisoned s c.t.core off 96)
  else
    let b := bitsAt c.f.mod 0 2
    if a % 16 != 0 || a + 96 > 65536 then .ok (0, true)
    else
      let ws := (List.range 24).map fun k => bankWord s c.t.core b (a + 4 * k)
      .ok (ws.foldr (fun w n => w.1.toNat + 2 ^ 32 * n) 0, ws.any (·.2))

/-- TURN issues for its participants at the release (13 R290, R291). A participant whose own guard is poisoned takes that trap
where the leader's attempt looks at guards (13 R308; log 115). -/
def performTurn (team : Nat) (i : Instr) (ts : List (Nat × Thread)) (s : State) : State :=
  match s.team? team, (byNumber ts).head? with
  | some tm, some l =>
    let cs := ts.map fun e => ctxOf i (fldsOf i) .v e.1 e.2 s
    let gate (c : Ctx) : Except Trap Bool := checkIssue i (shTurn c.f) c.f c.t c.count c.tid
    let lead := ctxOf i (fldsOf i) .v l.1 l.2 s
    let pass (s : State) (c : Ctx) : State := retireIn c none (unhold c.tid s)
    let trap (tr : Trap) (s : State) (c : Ctx) : State := enterTrap c.tid c.pc c.next tr (unhold c.tid s)
    let each (act : State → Ctx → State) (s : State) : State := cs.foldl (fun s c => match gate c with
      | .error tr => trap tr s c
      | .ok false => pass s c
      | .ok true => act s c) s
    match gate lead with
    | .error tr => each (trap tr) s
    | .ok false => cs.foldl pass s
    | .ok true => match poisonTrap (shTurn lead.f) lead.f lead.t lead.count lead.tid with
      | some tr => each (trap tr) s
      | none => match lead.turnRecord s with
        | .error tr => each (trap tr) s
        | .ok (bits, bad) =>
          match turnCode s tm team (turnRecOf bits) bad with
          | (0, s) => beginTurn team tm bits (cs.foldl pass s)
          | (code, s) => each (fun s c =>
              c.write [(c.f.vd, BitVec.ofNat 32 code)] (retireIn c c.flag (unhold c.tid s))) s
  | _, _ => s

/-- A team's TURN is released when every live thread that the dispatcher created has arrived at it (13 R290). -/
def releaseTurn (team : Nat) (s : State) : State :=
  let ts := ownThreads s team
  let live := match s.team? team with | some t => t.issues | none => false
  if live && allWaitAt .heldBar ts && ts.all (fun e => !heldIsBar e.2) then
    match ts with
    | (_, t) :: _ => match t.held with
      | some i => (performTurn team i ts s).bumpCore t.core 0x0050 1
      | none => s
    | [] => s
  else s

/-- Every wait of a team is looked at, its TURN included. -/
def settleAll (team : Nat) (s : State) : State := releaseTurn team (settleTeam team s)

/-- TURN: its members arrive (13 R287, R290). -/
def execTurn (f : FA128) (s : State) : Host.Outcome State Fault Refusal :=
  let teams := issueTeams s
  .next (match arriveEach .heldBar (.turn f) s with | .next s => teams.foldl (fun s t => releaseTurn t s) s | _ => s)

/-- BAR_RELEASE (07 R157), and the release of a TURN. -/
def execBarRelease (team : Nat) (s : State) : Host.Outcome State Fault Refusal := .next (releaseTurn team (releaseBar team s))

/-- A command of a team that reaches the team's own scratchpad and that a BARC waits for: a ring only while a chunk is under
way, a route drain once the ready bit lets it go on (11 R256, 15 R325; log 116). -/
def barcHolds (s : State) (tm : Team) (x : Command) : Bool :=
  let own (b : Nat) : Bool :=
    !baseTile b && (baseMode b == 1 || (baseMode b == 2 && basePeer b == tm.idx % tm.cohort))
  let reaches : Bool := x.buoy.isSome || match x.instr with
    | .catom _ | .drainRoute _ | .cpyst _ => true
    | _ => x.snaps.any fun r => let t := trecOf r; own t.base || (t.sc && own t.scbase)
  reaches && (if x.isRing then (tfind tm.rings x.rcb).elim false (·.cur.isSome) else !stageWaits s x)

/-- A cohort's BARC waits for no command of its teams (15 R325). For a cohort of one team BARC behaves as BAR (15 R324). -/
def barcOrdered (s : State) (grid cohort : Nat) : Bool :=
  (cohortTeams s grid cohort).all fun e =>
    decide (e.2.cohort ≤ 1) || !((teamCmds s e.2.core e.1).any fun x => barcHolds s e.2 x.2)

/-- Release a cohort's BARC (15 R324, R325, R335). -/
def releaseBarc (grid cohort : Nat) (s : State) : State :=
  if barcReady s grid cohort && barcOrdered s grid cohort then
    let teams := cohortTeams s grid cohort
    let keys := barrierAccs s (teams.flatMap fun e => ownThreads s e.1)
    let s := teams.foldl (fun s e => (releaseBarrier keys (ownThreads s e.1) s).bumpCore e.2.core 0x0050 1) s
    match teams with
    | (_, t) :: _ => s.modCluster (clusterOf t.core) fun c => { c with counters := bumpAt c.counters 0x18 1 }
    | [] => s
  else s

/-- BARC_RELEASE (15 R324). -/
def execBarcRelease (grid cohort : Nat) (s : State) : Host.Outcome State Fault Refusal := .next (releaseBarc grid cohort s)

/-- CONVERGENCE_ARRIVAL (07 R156, 08 R182): a thread that is ready at a convergence instruction arrives there; a cycle's arrivals end
its completions (07 R159). -/
def execConvergenceArrival (thread : Nat) (s : State) : Host.Outcome State Fault Refusal :=
  .next (match s.thread? thread with
  | none => s
  | some t =>
    let here (e : Nat × Thread × Decoded) : Bool :=
      e.1 == thread && !t.released && decodedArrives e.2.2 && !padHolds s e.2.2 thread t
    match (readyThreads s t.core).find? here with
    | some (_, _, .instr i _) =>
      let s := s.modCore t.core fun c => { c with begun := true }
      releaseTurn t.team (arriveSet i { s with issue := [thread] })
    | _ => s)

/-- Every result in flight of a thread completes, in order (01 R32, 13 R299). -/
def Thread.land (t : Thread) : Thread := t.flight.foldl Thread.commit { t with flight := [] }

/-- A successor thread in the lane slot of predecessor thread `n` (13 R295). `old` is that thread, if it is live. -/
def successor (s : State) (team : Nat) (tm : Team) (r : TurnRec) (n seq : Nat) (old : Option Thread) : Thread :=
  let depth := match s.grid? tm.grid with | some g => g.depth | none => 1
  let t := newThread team tm (s.core tm.core).cfg.waves n seq depth (BitVec.ofNat 56 r.entry)
  match old with
  | none => t
  | some o =>
    let kept (k : Nat) : Bool := bitAt r.regMask (k / 4)
    { t with regs := o.regs.filter (fun e => kept e.1), poison := o.poison.filter kept,
             retired := o.retired, terms := o.terms, termCyc := o.termCyc, termSkew := o.termSkew }

/-- The threads of a team are replaced by their successors (13 R294, R295). -/
def successors (team : Nat) (tm : Team) (r : TurnRec) (s : State) : State :=
  let olds := (s.threadsOf team).map fun e => (e.1, e.2.land)
  let s := { s with threads := s.threads.filter fun e => e.2.team != team }
  (List.range r.threads).foldl (fun s n =>
    let old := olds.find? fun e => e.2.num == n
    let seq := (s.core tm.core).nextSeq
    let t := successor s team tm r n seq (old.map (·.2))
    let s := s.modCore tm.core fun c => { c with nextSeq := seq + 1 }
    match old with
    | some (k, _) => s.putThread k t
    | none => { s.putThread s.fresh t with fresh := s.fresh + 1 }) s

/-- The uninherited storage of a turning team is scrubbed (13 R294). -/
def scrubTurn (team : Nat) (tm : Team) (r : TurnRec) (s : State) : State :=
  let c := s.core tm.core
  let base := regionBase s tm.core tm.slot
  let pages := (List.range c.cfg.spadP).filter fun p => !bitAt r.spadMask p
  let tiles := ((List.range c.cfg.tiles).filter fun t => !bitAt r.tileMask t).map (· + tm.slot * c.cfg.tiles)
  let hs := (List.range (handlesPer c)).filter fun i => (handleEntry s tm i).valid
  let s := hs.foldl (fun s i => dropRoute team i (putHandle tm i { handleEntry s tm i with valid := false, rcd := 0 } s)) s
  let s := pages.foldl (fun s p => s.modCore tm.core fun c =>
    let a := base + 4096 * p
    { c with pool := mzero c.pool a 4096, poolPoison := c.poolPoison.filter fun w => 8 * w < a || a + 4096 ≤ 8 * w }) s
  tiles.foldl (fun s t => s.modCore tm.core fun c =>
    { c with tiles := mzero c.tiles (8192 * t) 8192, sideBand := mzero c.sideBand (512 * t) 512, tags := tput c.tags t 0 }) s

/-- A turn has what it waits for: the steps accepted and the accesses issued before it, and the commands that do not cross (13
R292). -/
def turnDue (s : State) (team : Nat) (tm : Team) : Bool :=
  tm.state == .turning && !tm.killReq && !((s.core tm.core).steps.any fun x => x.team == team) && !padBusy s team tm
    && !(tm.turnWait.any fun k => (s.cmd? tm.core k).isSome)

/-- A turn's succession: scrub, successor threads, and the team is LIVE (13 R292). -/
def succeed (team : Nat) (s : State) : State :=
  match s.team? team with
  | none => s
  | some tm =>
    if !turnDue s team tm then s
    else
      let r := turnRecOf (tm.turn.getD 0)
      let s := scrubTurn team tm r (landTeamOps tm.core tm.slot s)
      let s := s.modTeam team fun t =>
        { t with threads := r.threads, waves := ceilDiv r.threads 32, regs := r.regs, spadP := r.spadP, tiles := r.tiles,
                 gcg := r.gcg, handler := if r.handler = 0 then t.handler else BitVec.ofNat 56 r.handler, state := .live,
                 turn := none, turnWait := [], latches := [] }
      match s.team? team with | some tm => successors team tm r s | none => s

/-- TURN_SUCCESSION (13 R292). -/
def execTurnSuccession (team : Nat) (s : State) : Host.Outcome State Fault Refusal := .next (succeed team s)

/-- The last live thread of a team has exited: the team is ENDED (13 R283, 15 R327, 19 R396, R398). -/
def endTeam (team : Nat) (s : State) : State :=
  match s.team? team with
  | none => s
  | some tm =>
    let s := clearHandles tm (freeTasks tm s)
    let s := s.modTeam team fun t => { t with state := .ended, latches := [] }
    s.modGrid tm.grid fun g => { g with ok := g.ok + 1, done := nadd g.done tm.idx }

/-- An exiting thread whose flags are 0 stops being live, before the cycle's arrivals and issues (01 R30, 07 R157 to R160, 09 R205, 15 R326, 19 R395). -/
def completeExit (tid : Nat) (s : State) : State :=
  match s.thread? tid with
  | none => s
  | some t =>
    if t.conv != .exiting || !t.quiet || (s.core t.core).begun then s
    else
      let s := { exitTask t s with threads := tdel (exitTask t s).threads tid }
      let live := match s.team? t.team with | some tm => tm.state == .live | none => false
      let co := cohortOf s t.team
      if (s.threadsOf t.team).isEmpty && live then divergeCohort co.1 co.2 (endTeam t.team s)
      else settleAll t.team (gangWave t.team t.wave.toNat (failLatches t.team s))

/-- EXIT_COMPLETION (01 R30). -/
def execExitCompletion (thread : Nat) (s : State) : Host.Outcome State Fault Refusal := .next (completeExit thread s)

/-- A kill of a team: its threads stop, its commands are cancelled, nothing of an open bracket is committed, and accepted steps
leave no result (13 R306). A team that has ended through EXIT stays counted so (19 R398). -/
def killTeam (team : Nat) (s : State) : State :=
  match s.team? team with
  | none => s
  | some tm =>
    if tm.state == .killed || tm.state == .saved || tm.state == .released then
      s.modTeam team fun t => { t with killReq := false }
    else
      let s := (teamCmds s tm.core team).foldl (fun s e => cancelCmd tm.core e.1 s) s
      let s := discardTeamOps tm.core tm.slot { s with threads := s.threads.filter fun e => e.2.team != team }
      let s := (openTasks s tm).foldl (fun s e => putTask tm e.1 { gen := e.2.gen } s) s
      let s := clearHandles tm s
      let s := s.modTeam team fun t =>
        { t with state := .killed, killReq := false, saveReq := false, tx := {}, latches := [], turn := none, turnWait := [] }
      let s := s.modPart tm.part fun v => { v with recovKilled := v.recovKilled + b2n v.recovering.isSome }
      s.modGrid tm.grid fun g =>
        { g with killed := g.killed + b2n (!nmem g.done tm.idx), done := nadd g.done tm.idx }

/-- A kill of one team; what is left of its cohort may be diverged (13 R306, 15 R326). -/
def killOne (team : Nat) (s : State) : State :=
  let co := cohortOf s team
  divergeCohort co.1 co.2 (killTeam team s)

/-- TEAM_KILL (13 R306): a double fault or a watchdog has stopped the team. -/
def execTeamKill (team : Nat) (s : State) : Host.Outcome State Fault Refusal :=
  .next (match s.team? team with | some tm => if tm.killReq then killOne team s else s | none => s)

/-- The teams of a team's cohort, with their keys. -/
def cohortMates (s : State) (tm : Team) : List (Nat × Team) :=
  s.teams.filter fun e => e.2.grid == tm.grid && e.2.idx / e.2.cohort == tm.idx / tm.cohort

/-- A team has ended and none of its commands, steps and accesses is left. -/
def teamOver (s : State) (e : Nat × Team) : Bool :=
  (e.2.state == .ended || e.2.state == .killed) && (teamCmds s e.2.core e.1).isEmpty
    && !((s.core e.2.core).steps.any fun x => x.team == e.1) && !padBusy s e.1 e.2

/-- A team is RELEASED: its slot is scrubbed and free (13 R283, R285). -/
def releaseTeam (e : Nat × Team) (s : State) : State :=
  let s := landTeamOps e.2.core e.2.slot s
  let s := e.2.routes.foldl (fun s r => dropRoute e.1 r.1 s) s
  let s := scrubSlot e.2.core e.2.slot s
  let s := s.modGrid e.2.grid fun g => { g with trigs := g.trigs + b2n (!e.2.trigDone) }
  { s with teams := tdel s.teams e.1 }

/-- Retention of a cohort ends at once, when every team of it has ended and every command is gone (15 R327). -/
def endRetention (team : Nat) (s : State) : State :=
  match s.team? team with
  | none => s
  | some tm =>
    let es := cohortMates s tm
    if es.all (teamOver s) then es.foldl (fun s e => releaseTeam e s) s else s

/-- RETENTION_END (15 R327). -/
def execRetentionEnd (team : Nat) (s : State) : Host.Outcome State Fault Refusal := .next (endRetention team s)

end Sys2Proof.Machine
end

