-- ==== Sys2Proof/Machine/Save.lean ====
section
/-! DEFINITION. Pre-emption: the save of a team with its cohort, the image, and the restoring of a team on a core (13 R298 to
R305, 15 R327, 19 R380, R396). -/

namespace Sys2Proof.Machine

open Sys2Proof

/-- The pool configuration word (07 R145). -/
def PoolConfig.word (c : PoolConfig) : Nat :=
  c.gcG + 2 ^ 6 * c.spadG + 2 ^ 12 * c.regG + 2 ^ 18 * c.tiles + 2 ^ 25 * c.spadP + 2 ^ 34 * c.regs + 2 ^ 43 * c.waves
    + 2 ^ 49 * c.slots

/-- The shape word (13 R288). -/
def shapeWord (threads regs spadP tiles gcg : Nat) : Nat :=
  threads + 2 ^ 16 * regs + 2 ^ 32 * spadP + 2 ^ 48 * tiles + 2 ^ 56 * gcg

/-- H and E for a slot count (11 R237, 19 R392). -/
def handlesFor (slots : Nat) : Nat := 256 / 2 ^ clog2 slots
def tasksFor (slots : Nat) : Nat := 512 / 2 ^ clog2 slots

/-- `n` rounded up to a multiple of `k`. -/
def alignUp (n k : Nat) : Nat := ceilDiv n k * k

/-- SZ, the bytes of an image slot of a grid (19 R380). -/
def imageSize (g : Grid) : Nat :=
  let w := ceilDiv g.threads 32
  let sections := [1024, 128 * 32 * w, 32 * w * (4 * g.regs + g.regs / 8), 4160 * g.spadP, 8960 * g.tiles,
    256 * handlesFor g.config.slots, 512 * 64, 128 * tasksFor g.config.slots]
  alignUp (sections.foldl (fun n x => n + alignUp x 256) 0) 65536

/-- The image slots of a grid that teams hold. -/
def imagesUsed (s : State) (grid : Nat) : List Nat :=
  s.teams.filterMap fun e => if e.2.grid == grid then e.2.image else none

/-- Up to `n` free image slots of a grid, lowest first (19 R380). -/
def freeImages (s : State) (grid n : Nat) : List Nat :=
  match s.grid? grid with
  | none => []
  | some g =>
    let used := imagesUsed s grid
    if g.saveBase = 0 then []
    else ((List.range (min g.saveSlots (used.length + n))).filter fun j => !used.contains j).take n

/-- A team that a save can begin on (13 R283, 15 R327). -/
def saveable (tm : Team) : Bool := tm.state == .live || tm.state == .turning || tm.state == .ended || tm.state == .killed

/-- The teams of a cohort that a save takes, in team order (13 R298, 15 R327). -/
def saveMates (s : State) (tm : Team) : List (Nat × Team) :=
  sortOn (fun (e : Nat × Team) => e.2.idx) ((cohortMates s tm).filter fun e => saveable e.2)

/-- A save has an image slot for every team of a cohort (19 R380). -/
def saveFits (s : State) (tm : Team) : Bool :=
  decide ((freeImages s tm.grid (saveMates s tm).length).length ≥ (saveMates s tm).length)

/-- A save of a team's cohort is requested (13 R298). -/
def requestSave (tm : Team) (s : State) : State :=
  (saveMates s tm).foldl (fun s e => s.modTeam e.1 fun t => { t with saveReq := true }) s

/-- A thread whose team's save begins: its waits and halts end, and it issues nothing more (07 R161, 13 R299, 24 R466). -/
def Thread.stopForSave (t : Thread) : Thread :=
  { t with conv := if t.conv == .exiting then .exiting else .run, held := none, notBefore := 0, halted := .none,
           haltNext := false, stepping := false, pastBreak := false, released := false }

/-- Steps 1, 2 and 4 of a save of one team (13 R299, 12 R281). -/
def beginSave (team image : Nat) (s : State) : State :=
  match s.team? team with
  | none => s
  | some tm =>
    let s := completeCommit team (abortTx team 3 0 s)
    let s : State := { s with threads := s.threads.map fun (e : Nat × Thread) => if e.2.team = team then (e.1, e.2.stopForSave) else e }
    let s := s.modCore tm.core fun c => { c with stepSets := c.stepSets.filter fun x => x.team != team }
    s.modTeam team fun t =>
      { t with state := .saving, saveReq := false, image := some image, latches := [],
               savedAs := if tm.state == .live then .live else if tm.state == .turning then .turning else .ended }

/-- A recovery is in progress in a partition. -/
def recovering (s : State) (p : Nat) : Bool := (s.part p).recovering.isSome

/-- A tidemark fails for want of an image slot: the partition stays held (24 R463). -/
def failTide (p : Nat) (s : State) : State :=
  match (s.part p).tiding with
  | none => s
  | some k =>
    let v := s.part p
    let gid := match s.grid? k with | some g => g.gridId.toNat | none => 0
    let s := s.modPart p fun v => { v with tiding := none, hold := true }
    let s := s.modGrid k fun g => { g with tided := true }
    postDebug p (dbgWords 21 (2 ^ 31 + v.tide) 0 0xFFFFFFFF 0 0 0 0 (s.die 0).clk gid v.tideSaved) s

/-- The kills that wait in a cohort are made before its save, which then takes the killed teams' retained regions (13 R283, R306,
15 R327). -/
def killWaiting (tm : Team) (s : State) : State :=
  (cohortMates s tm).foldl (fun s e => if e.2.killReq && saveable e.2 then killOne e.1 s else s) s

/-- A save that has been requested begins for the teams of a cohort. With too few image slots it does not begin, and in a
recovery the teams left over are killed (13 R298, 19 R380); a tidemark fails (24 R463). -/
def startMates (tm : Team) (s : State) : State :=
  let es := saveMates s tm
  let js := freeImages s tm.grid es.length
  let drop (t : Team) : Team := { t with saveReq := false }
  if js.length ≥ es.length then (es.zip js).foldl (fun s e => beginSave e.1.1 e.2 s) s
  else if recovering s tm.part then
    let s := (es.zip js).foldl (fun s e => beginSave e.1.1 e.2 s) s
    (es.drop js.length).foldl (fun s e => s.modTeam e.1 fun t =>
      if t.state == .killed then drop t else { drop t with killReq := true }) s
  else failTide tm.part (es.foldl (fun s e => s.modTeam e.1 drop) s)

/-- A requested save begins for the whole cohort, unless its last live team is killed by it (13 R298). -/
def startSave (team : Nat) (s : State) : State :=
  match s.team? team with
  | none => s
  | some tm =>
    if !tm.saveReq || !saveable tm then s
    else
      let s := killWaiting tm s
      if (cohortMates s tm).any fun e => e.2.saveReq && saveable e.2 then startMates tm s else s

/-- TEAM_SAVE (13 R298, R299). -/
def execTeamSave (team : Nat) (s : State) : Host.Outcome State Fault Refusal := .next (startSave team s)

/-- Bytes filled up to a multiple of `n`. -/
def padTo (n : Nat) (bs : List Byte) : List Byte := bs ++ List.replicate (alignUp bs.length n - bs.length) 0

/-- A number as `n` bytes, cut to them. -/
def le (n v : Nat) : List Byte := leBytes n v

/-- The image header (13 R302). -/
def imageHeader (tm : Team) (cfg : PoolConfig) (ncmd : Nat) : List Byte :=
  let state := match tm.savedAs with | .live => 1 | .turning => 2 | _ => 3
  let frt := (List.range 16).flatMap fun k => le 4 (tget tm.tfmt k 0).toNat
  let fails := tm.fails.flatMap fun f => le 4 f.ticket ++ le 4 f.st ++ le 4 f.reason ++ le 4 f.c
  padTo 1024 <|
    le 4 1 ++ le 4 state ++ le 4 tm.gridId.toNat ++ le 4 tm.idx
      ++ le 8 (shapeWord tm.threads tm.regs tm.spadP tm.tiles tm.gcg) ++ le 8 cfg.word ++ le 8 tm.handler.toNat
      ++ le 4 tm.tx.word.toNat ++ le 4 tm.ticket ++ le 4 ncmd ++ le 4 tm.fails.length
      ++ le 4 (cohortOfIdx tm.idx tm.cohort).toNat ++ le 4 0 ++ frt ++ le 128 ((tm.turn).getD 0) ++ fails

/-- A thread record (13 R303); a lane slot without a live thread has zeros. -/
def threadRecord : Option Thread → List Byte
  | none => List.replicate 128 0
  | some t => padTo 128 <|
      le 8 t.pc.toNat ++ le 4 (1 + 2 * b2n t.tm)
        ++ le 4 ((List.range 12).foldl (fun n k => n + tget t.flags k 0 * 8 ^ k) 0 % 2 ^ 32)
        ++ le 4 t.trapCause.toNat ++ le 4 t.trapMask.toNat ++ le 8 t.trapPc.toNat ++ le 8 t.trapAddr.toNat
        ++ le 8 t.epc.toNat ++ le 4 t.gang.toNat ++ le 4 0 ++ le 8 t.retired.toNat ++ le 8 t.terms.toNat
        ++ le 8 t.termCyc.toNat ++ le 8 t.termSkew.toNat

/-- A thread's registers and their poison bits (13 R300). -/
def registerRecord (n : Nat) : Option Thread → List Byte
  | none => List.replicate (4 * n + n / 8) 0
  | some t =>
    ((List.range n).flatMap fun k => le 4 (tget t.regs k 0).toNat)
      ++ (List.range (n / 8)).map fun b => BitVec.ofNat 8 ((List.range 8).foldl (fun x k =>
          x + 2 ^ k * b2n (nmem t.poison (8 * b + k))) 0)

/-- The threads of a slot by position: wave, then lane (13 R300). -/
def slotThreads (s : State) (tm : Team) (waves : Nat) : List (Option Thread) :=
  (List.range (32 * waves)).map fun p =>
    (s.threads.find? fun e => e.2.core == tm.core && e.2.laneSlot == tm.slot * waves + p / 32 && e.2.lane.toNat == p % 32).map
      (·.2)

/-- A page of the region with its poison bits (13 R300). -/
def pageRecord (c : Core) (base p : Nat) : List Byte :=
  let a := base + 4096 * p
  mgets c.pool a 4096 ++ (List.range 64).map fun b => BitVec.ofNat 8 ((List.range 8).foldl (fun x k =>
    x + 2 ^ k * b2n (nmem c.poolPoison (a / 8 + 8 * b + k))) 0)

/-- A tile with its side-band and tag (13 R300). -/
def tileRecord (c : Core) (t : Nat) : List Byte :=
  mgets c.tiles (8192 * t) 8192 ++ mgets c.sideBand (512 * t) 512 ++ le 2 (tget c.tags t 0) ++ List.replicate 254 0

/-- A handle entry (13 R300). -/
def handleRecord (h : Handle) : List Byte :=
  le 4 (256 * h.gen + b2n h.valid) ++ List.replicate 124 0 ++ le 128 h.rcd.toNat

/-- A command record (13 R304). -/
def commandRecord (tm : Team) (x : Command) : List Byte :=
  let words := (List.range 4).flatMap fun k => le 4 (wordAt (encode x.instr) k).toNat
  let regs := (List.range 16).flatMap fun k => le 4 (x.regs.getD k 0).toNat
  let ring := if x.isRing then tfind tm.rings x.rcb else none
  let rel (r : Ring) : Nat := (List.range r.n).foldl (fun v k => v + (r.rel.getD k 0 % 2048) * 2 ^ (11 * k)) 0
  let rb := match ring with
    | some r => le 4 r.next ++ le 4 r.done ++ le 1 r.state ++ le 1 0 ++ le 22 (rel r)
    | none => le 32 0
  let head := match ring with
    | some r => le 8 (r.n + 2 ^ 8 * r.dir + 2 ^ 16 * r.relt + 2 ^ 32 * r.stride)
    | none => []
  let snaps := x.snaps.flatMap fun r => le 128 r.toNat
  padTo 512 <|
    words ++ regs ++ le 4 x.ticket ++ le 4 x.state.code ++ le 4 x.c ++ le 4 0 ++ rb ++ snaps ++ head

/-- A task entry (19 R392): its ID is 0 until a task has been spawned in it. -/
def taskRecord (i : Nat) (e : Task) : List Byte :=
  padTo 64 (le 8 e.entry.toNat ++ le 4 (2 ^ 24 * e.state + e.count) ++ le 4 (if e.gen = 0 then 0 else taskId e.gen i) ++ le 4 e.notify
      ++ le 4 (if e.state = 3 then e.lane + 2 ^ 8 * e.laneSlot else 0))
    ++ (List.range 16).flatMap fun k => le 4 (e.args.getD k 0).toNat

/-- The image of a team (13 R300). -/
def imageOf (s : State) (team : Nat) (tm : Team) : List Byte :=
  let c := s.core tm.core
  let ended := tm.savedAs != .live && tm.savedAs != .turning
  let ts := if ended then [] else slotThreads s tm c.cfg.waves
  let base := regionBase s tm.core tm.slot
  let cmds := sortOn (fun (e : Nat × Command) => e.2.ticket) (teamCmds s tm.core team)
  imageHeader tm c.cfg cmds.length
    ++ padTo 256 (ts.flatMap threadRecord)
    ++ padTo 256 (ts.flatMap (registerRecord tm.regs))
    ++ padTo 256 ((List.range tm.spadP).flatMap (pageRecord c base))
    ++ padTo 256 ((List.range tm.tiles).flatMap fun t => tileRecord c (tm.slot * c.cfg.tiles + t))
    ++ ((List.range (handlesPer c)).flatMap fun i => handleRecord (handleEntry s tm i))
    ++ (cmds.flatMap fun e => commandRecord tm e.2)
    ++ (List.range (tasksPer c)).flatMap fun i => taskRecord i (taskEntry s tm i)

/-- Pieces of bytes written by a core through translation as a release of device scope: the fault that stopped it (13 R299, 19
R380, 22 R429). -/
def saveBytes (core p ep : Nat) : List (Nat × Nat) → List Byte → State → Option (Nat × XFault) × State
  | [], _, s => (none, s)
  | (va, n) :: r, bs, s => match Machine.access (clusterOf core) p .write none va s with
    | (.ok (.dev pa a), s) => saveBytes core p ep r (bs.drop n) (releaseWrite (dieOf core) 4 ep a pa (bs.take n) false s)
    | (.ok _, s) => (some (va, { kind := 6, level := 0 }), s)
    | (.error f, s) => (some (va, f), s)

/-- A FAULT record of a core that names no command (18 R369, 19 R379, R380). -/
def plainFault (core part grid team kind va count : Nat) (s : State) : State :=
  let (id, s) := nextFaultId core s
  postFault part [recWord 1 kind, recWord id 0xFFFFFFFF, BitVec.ofNat 64 va, recWord (count % 2 ^ 32) 0xFFFFFFFF,
    recWord grid team, 0, 0, 0] s

/-- What a save keeps of a team beside its image, by places relative to its slot (log 26). -/
def savedOf (s : State) (team : Nat) (tm : Team) : Saved :=
  let c := s.core tm.core
  let base := regionBase s tm.core tm.slot
  let n := 4096 * tm.spadP
  let t0 := tm.slot * c.cfg.tiles
  let h := handlesPer c
  let e := tasksPer c
  let ended := tm.savedAs != .live && tm.savedAs != .turning
  let rel (t : Thread) : Thread :=
    { t with laneSlot := t.laneSlot - tm.slot * c.cfg.waves, task := t.task.map (· - tm.slot * e) }
  let keep {α : Type} (m : Table α) (a k : Nat) : Table α :=
    (m.filter fun x => decide (a ≤ x.1) && decide (x.1 < a + k)).map fun x => (x.1 - a, x.2)
  { threads := if ended then [] else (s.threadsOf team).map fun x => (x.1, rel x.2),
    region := mmove c.pool base 0 n,
    poison := (c.poolPoison.filter fun w => decide (base ≤ 8 * w) && decide (8 * w < base + n)).map (· - base / 8),
    tiles := mmove c.tiles (8192 * t0) 0 (8192 * tm.tiles),
    sideBand := mmove c.sideBand (512 * t0) 0 (512 * tm.tiles),
    tags := keep c.tags t0 tm.tiles,
    handles := keep c.handles (tm.slot * h) h,
    tasks := (keep c.tasks (tm.slot * e) e).map fun x => (x.1, { x.2 with laneSlot := x.2.laneSlot - tm.slot * c.cfg.waves }),
    cmds := teamCmds s tm.core team }

/-- A save of a team has what it waits for: its steps have completed, its cohort's accesses have been performed, its commands are
accepted, and no message of one is out (13 R299, 11 R257, 15 R318). -/
def saveDue (s : State) (team : Nat) (tm : Team) : Bool :=
  tm.state == .saving && !tm.killReq && !((s.core tm.core).steps.any fun x => x.team == team)
    && !((cohortMates s tm).any fun e => e.2.state != .saved && padBusy s e.1 e.2)
    && (teamCmds s tm.core team).all fun e => e.2.accepted && !e.2.waiting

/-- Exits that have issued complete before the image is written; a team without a live thread left is saved as ENDED. -/
def saveExits (team : Nat) (tm : Team) (s : State) : State :=
  let s := (s.threadsOf team).foldl (fun s e =>
    if e.2.conv == .exiting then { exitTask e.2 s with threads := tdel (exitTask e.2 s).threads e.1 } else s) s
  if tm.savedAs == .live && (s.threadsOf team).isEmpty then
    let s := clearHandles tm (freeTasks tm s)
    let s := s.modTeam team fun t => { t with savedAs := .ended }
    s.modGrid tm.grid fun g => { g with ok := g.ok + 1, done := nadd g.done tm.idx }
  else s

/-- The threads of a team saved in TURNING are those of its successor (13 R301). -/
def saveTurn (team : Nat) (tm : Team) (s : State) : State :=
  match tm.turn with
  | some bits =>
    let r := turnRecOf bits
    successors team { tm with threads := r.threads, waves := ceilDiv r.threads 32, regs := r.regs } r s
  | none => s

/-- The count of a partition's drain or tidemark goes up by a saved team (23 R448, 24 R463). -/
def countSaved (p : Nat) (s : State) : State :=
  s.modPart p fun v =>
    { v with recovSaved := v.recovSaved + b2n v.recovering.isSome, tideSaved := v.tideSaved + b2n v.tiding.isSome }

/-- Steps 3 and 5 to 7 of a save (13 R299): results land, commands stop, the image is written, and the slot is scrubbed, which ends
the state of rings that have stopped or finished (12 R274). A write that faults kills the team (19 R380). -/
def finishSave (team : Nat) (s : State) : State :=
  match s.team? team with
  | none => s
  | some tm =>
    if !saveDue s team tm then s
    else
      let s := landTeamOps tm.core tm.slot s
      let s : State := { s with threads := s.threads.map fun (e : Nat × Thread) => if e.2.team = team then (e.1, e.2.land) else e }
      let s := saveTurn team tm (saveExits team tm s)
      let s := (teamCmds s tm.core team).foldl (fun s e => withdraw tm e.2 s) s
      match s.team? team, s.grid? tm.grid with
      | some tm, some g =>
        let s := (List.range tm.tiles).foldl (fun s t =>
          (scrubTile tm.core (tm.slot * (s.core tm.core).cfg.tiles + t) s).2) s
        let bs := imageOf s team tm
        let va := g.saveBase + tm.image.getD 0 * imageSize g
        let (ep, s) := releaseEpoch (dieOf tm.core) tm.part 4 s
        match saveBytes tm.core tm.part ep (pageRuns (bs.length + 1) va bs.length) bs s with
        | (some (a, f), s) =>
          let s := plainFault tm.core tm.part tm.gridId.toNat tm.idx (f.kind + 256 * f.level + 2048) a 0 s
          killOne team (s.modTeam team fun t => { t with image := none })
        | (none, s) =>
          let rings := tm.rings.filter fun e => e.2.state == 1
          let kept := savedOf s team tm
          let s := { s with threads := s.threads.filter fun e => e.2.team != team }
          let s := kept.cmds.foldl (fun s e => s.dropCmd tm.core e.1) s
          let s := scrubSlot tm.core tm.slot s
          countSaved tm.part (s.modTeam team fun t => { t with state := .saved, saved := some kept, rings := rings })
      | _, _ => s

/-- TEAM_SAVE_COMPLETE (13 R299). -/
def execTeamSaveComplete (team : Nat) (s : State) : Host.Outcome State Fault Refusal := .next (finishSave team s)

/-- The configuration word of an image's header is out of range (07 R145). -/
def configBad (w : Nat) : Bool :=
  let slots := bitsAt w 49 7
  let waves := bitsAt w 43 6
  let regs := bitsAt w 34 9
  decide (w ≥ 2 ^ 56) || slots == 0 || decide (slots > 64) || waves == 0 || decide (waves > 32) || decide (regs < 8) || decide (regs > 256)
    || regs % 8 != 0 || decide (bitsAt w 25 9 > 256) || decide (bitsAt w 18 7 > 64)
    || bitsAt w 12 6 + bitsAt w 6 6 + bitsAt w 0 6 != 32

/-- The COHORT register of an image's header is out of range (01 R17). -/
def cohortBad (w : Nat) : Bool :=
  bitAt w 15 || bitsAt w 6 2 != 0 || bitsAt w 8 7 == 0 || decide (bitsAt w 8 7 > 64) || decide (bitsAt w 0 6 ≥ bitsAt w 8 7)

/-- The transaction word of an image's header is out of range: after a save's abort no bracket is open but an aborted one (12
R278, 13 R302). -/
def txBad (w : Nat) : Bool :=
  bitsAt w 24 3 != 0 || bitsAt w 8 8 != 0 || decide (bitsAt w 0 8 > 8) || bitAt w 31 != (bitsAt w 27 3 != 0)
    || (bitAt w 31 && !bitAt w 30)

/-- A header field of an image is out of range, or a reserved one is not zero (13 R302, R305). -/
def headerBad (x : Nat) : Bool :=
  let at' (o n : Nat) : Nat := bitsAt x (8 * o) (8 * n)
  let sh := at' 0x10 8
  let turn := at' 0x80 96
  at' 0 4 != 1 || at' 4 4 == 0 || decide (at' 4 4 > 3) || decide (at' 0x30 4 > 64) || decide (at' 0x34 4 > 16)
    || bitsAt sh 0 16 == 0 || decide (bitsAt sh 0 16 > 1024) || decide (bitsAt sh 16 16 < 8) || decide (bitsAt sh 16 16 > 256)
    || bitsAt sh 16 3 != 0 || decide (bitsAt sh 32 16 > 256) || decide (bitsAt sh 48 8 > 64) || decide (bitsAt sh 56 8 > 31)
    || configBad (at' 0x18 8) || at' 0x27 1 != 0 || txBad (at' 0x28 4) || cohortBad (at' 0x38 4)
    || at' 0x3C 4 != 0 || at' 0xE0 32 != 0 || at' 0x200 512 != 0
    || (if at' 4 4 = 2 then (turnRecOf turn).bad else turn != 0)

/-- The header of a saved team's image, as the core it resumes on reads it: a fault, or whether it is in range (13 R305). -/
def readHeader (core : Nat) (tm : Team) (s : State) : Except (Nat × XFault) Bool × State :=
  match s.grid? tm.grid with
  | none => (.ok false, s)
  | some g =>
    let va := g.saveBase + tm.image.getD 0 * imageSize g
    match Machine.access (clusterOf core) tm.part .read none va s with
    | (.ok (.dev pa a), s) =>
      let ((bs, bad), s) := acquireRead (dieOf core) a pa 1024 s
      (.ok (!bad && !headerBad (leNat bs)), s)
    | (.ok _, s) => (.error (va, { kind := 6, level := 0 }), s)
    | (.error f, s) => (.error (va, f), s)

/-- A resume that fails on its header: its record, whose KIND the manual gives only for a translation's fault (log 2). -/
def failResume (core team : Nat) (tm : Team) (why : Option (Nat × XFault)) (s : State) : State :=
  let s := s.modTeam team fun t => { t with resumeBad := true }
  match why with
  | some (va, f) => plainFault core tm.part tm.gridId.toNat tm.idx (f.kind + 256 * f.level) va 0 s
  | none =>
    let (k, s) := s.takeFree
    let va := match s.grid? tm.grid with | some g => g.saveBase + tm.image.getD 0 * imageSize g | none => 0
    plainFault core tm.part tm.gridId.toNat tm.idx (k % 4096) va 0 s

/-- The header checks of the teams of a cohort; the first that fails ends the resume. -/
def headersOk : List ((Nat × Team) × Nat) → State → Bool × State
  | [], s => (true, s)
  | ((k, tm), core) :: r, s => match readHeader core tm s with
    | (.ok true, s) => headersOk r s
    | (.ok false, s) => (false, failResume core k tm none s)
    | (.error f, s) => (false, failResume core k tm (some f) s)

/-- A start or a resume of a team on a die acts as an acquire of device scope (22 R424, R429, 15 R331). -/
def acquireStart (core p : Nat) (s : State) : State := acquireDie (dieOf core) p (gcDrop core (fun _ => true) s)

/-- Saved threads placed on a core, with new creation numbers in their order (13 R305, 07 R150). -/
def restoreThreads (core slot : Nat) (ts : Table Thread) (s : State) : State :=
  (sortOn (fun (e : Nat × Thread) => e.2.seq) ts).foldl (fun s e =>
    let c := s.core core
    let t := { e.2 with core := core, laneSlot := slot * c.cfg.waves + e.2.laneSlot, seq := c.nextSeq, lastIssue := none,
                        starve := 0, before := [], task := e.2.task.map (slot * tasksPer c + ·), coreNo := BitVec.ofNat 32 (core % 64),
                        clusterNo := BitVec.ofNat 32 (core / 64 % 3), dieNo := BitVec.ofNat 32 (dieOf core) }
    (s.modCore core fun c => { c with nextSeq := c.nextSeq + 1 }).putThread e.1 t) s

/-- A saved team's storage and task entries placed in a slot: handles and tasks with their generations, those of the slot's last
team gone (13 R305). -/
def restoreSlot (core slot : Nat) (tm : Team) (v : Saved) (s : State) : State :=
  let base := regionBase s core slot
  s.modCore core fun c =>
    let t0 := slot * c.cfg.tiles
    let h := handlesPer c
    let n := tasksPer c
    let order (e : Nat × Task) : Task :=
      { e.2 with order := c.taskOrder + e.2.order, laneSlot := e.2.laneSlot + slot * c.cfg.waves }
    { c with
      pool := mpatch c.pool base (4096 * tm.spadP) (mmove v.region 0 base (4096 * tm.spadP)),
      poolPoison := v.poison.foldl (fun l w => nadd l (base / 8 + w)) c.poolPoison,
      tiles := mpatch c.tiles (8192 * t0) (8192 * tm.tiles) (mmove v.tiles 0 (8192 * t0) (8192 * tm.tiles)),
      sideBand := mpatch c.sideBand (512 * t0) (512 * tm.tiles) (mmove v.sideBand 0 (512 * t0) (512 * tm.tiles)),
      tags := v.tags.foldl (fun m e => tput m (t0 + e.1) e.2) c.tags,
      handles := v.handles.foldl (fun m e => tput m (slot * h + e.1) e.2) (tclear c.handles (slot * h) h),
      tasks := v.tasks.foldl (fun m e => tput m (slot * n + e.1) (order e)) (tclear c.tasks (slot * n) n),
      taskClk := none,
      taskOrder := v.tasks.foldl (fun n e => max n (c.taskOrder + e.2.order + 1)) c.taskOrder }

/-- Saved commands put back in the queue in ticket order; each resumes at its count (13 R305). -/
def restoreCmds (core : Nat) (cs : Table Command) (s : State) : State :=
  (sortOn (fun (e : Nat × Command) => e.2.ticket) cs).foldl (fun s e =>
    let x := { e.2 with state := .queued, park := none, begun := false, epoch := none, got := [], ready := 0,
                        requeued := some s.fresh }
    { s.putCmd core e.1 x with fresh := s.fresh + 1 }) s

/-- Arrivals held for a team's landing windows are counted at its resume, in their order (27 R504). -/
def countHeld (team : Nat) (tm : Team) (s : State) : State :=
  ((s.part tm.part).lands.filter fun e => e.2.1 == team).foldl (fun s e =>
    let held := tget (s.part tm.part).pend e.1 []
    let s := s.modPart tm.part fun v => { v with pend := tdel v.pend e.1 }
    held.foldl (fun s a => takeArrival team e.2.2 a.1 a.2.1 (a.2.2 == 1) s) s) s

/-- A saved team becomes resident in a slot (13 R305). -/
def restoreTeam (team core slot : Nat) (s : State) : State :=
  match s.team? team with
  | none => s
  | some tm => match tm.saved with
    | none => s
    | some v =>
      let s := acquireStart core tm.part s
      let s := s.putTeam team { tm with core := core, slot := slot, state := tm.savedAs, image := none, saved := none }
      let s := restoreCmds core v.cmds (restoreThreads core slot v.threads (restoreSlot core slot tm v s))
      let wait := match tm.turn with
        | some bits => ((teamCmds s core team).filter fun e => !crosses { tm with core := core } (turnRecOf bits) e.2).map (·.1)
        | none => []
      countHeld team tm (s.modTeam team fun t => { t with turnWait := wait })

/-- The teams of a cohort resume together in their slots, unless a header fails (13 R305). -/
def resumeTeams (es : List ((Nat × Team) × Nat × Nat)) (s : State) : State :=
  match headersOk (es.map fun e => (e.1, e.2.1)) s with
  | (false, s) => s
  | (true, s) => es.foldl (fun s e => restoreTeam e.1.1 e.2.1 e.2.2 s) s

end Sys2Proof.Machine
end

