-- ==== Sys2Proof/Machine/Grid.lean ====
section
/-! DEFINITION. Launch records, their checks, the grid table, LAUNCH and TRIGGER (07 R146, 19 R376 to R378, R386 to R391). -/

namespace Sys2Proof.Machine

open Sys2Proof

/-- A launch record (19 R376). `bad` says that a reserved field is nonzero or a value lies outside its limit, ORDER apart from
LAUNCH's (19 R377, status 0x02). -/
structure LaunchRec where
  entry : Nat
  handler : Nat
  threads : Nat
  regs : Nat
  spadP : Nat
  tiles : Nat
  gcg : Nat
  teams : Nat
  cohort : Nat
  smax : Nat
  order : Nat
  tag : Nat
  saveBase : Nat
  saveSlots : Nat
  banks : List (Nat × Nat)
  bad : Bool
  deriving DecidableEq, Repr

/-- A launch record from its 2,048 bits (19 R376, 13 R288). -/
def launchRecOf (x : Nat) : LaunchRec :=
  let sh := bitsAt x 128 64
  let ctrl := bitsAt x 224 32
  let threads := bitsAt sh 0 11
  let regs := bitsAt sh 16 9
  let spadP := bitsAt sh 32 9
  let tiles := bitsAt sh 48 7
  let gcg := bitsAt sh 56 6
  let teams := bitsAt x 192 32
  let cohort := bitsAt ctrl 0 7
  let smax := bitsAt ctrl 8 7
  let order := bitsAt ctrl 16 2
  let saveBase := bitsAt x 320 64
  let banks := (List.range 4).map fun b => (bitsAt x (512 + 128 * b) 64, bitsAt x (576 + 128 * b) 32)
  let reserved := bitsAt sh 11 5 != 0 || bitsAt sh 25 7 != 0 || bitsAt sh 41 7 != 0 || bitsAt sh 55 1 != 0 || bitsAt sh 62 2 != 0
    || bitsAt ctrl 7 1 != 0 || bitsAt ctrl 15 1 != 0 || bitsAt ctrl 18 14 != 0 || bitsAt x 416 96 != 0
    || bitsAt x 1024 1024 != 0 || (List.range 4).any (fun b => bitsAt x (608 + 128 * b) 32 != 0)
    || bitsAt x 56 8 != 0 || bitsAt x 120 8 != 0
  let shape := decide (threads < 1) || decide (threads > 1024) || decide (regs < 8) || decide (regs > 256) || regs % 8 != 0
    || decide (spadP > 256) || decide (tiles > 64) || decide (gcg > 31)
  { entry := bitsAt x 0 64, handler := bitsAt x 64 64, threads := threads, regs := regs, spadP := spadP, tiles := tiles,
    gcg := gcg, teams := teams, cohort := cohort, smax := smax, order := order, tag := bitsAt x 256 64, saveBase := saveBase,
    saveSlots := bitsAt x 384 32, banks := banks,
    bad := reserved || shape || teams == 0 || cohort == 0 || decide (cohort > 64) || teams % cohort != 0 || decide (smax > 64)
      || order == 3 || banks.any (fun b => decide (b.2 > 65536) || b.2 % 4 != 0) || saveBase % 65536 != 0 }

/-- The configuration that the dispatcher computes for a shape (07 R146). -/
def fitConfig (threads regs spadP tiles gmin smax : Nat) : Option PoolConfig :=
  let w := ceilDiv threads 32
  ((List.range 64).map fun k => 64 - k).findSome? fun n =>
    let rg := ceilDiv (n * w * regs) 512
    let sg := ceilDiv (n * spadP) 16
    if n * w ≤ 64 ∧ n * tiles ≤ 64 ∧ rg + sg + gmin ≤ 32 ∧ (smax = 0 ∨ n ≤ smax) then
      some { slots := n, waves := w, regs := regs, spadP := spadP, tiles := tiles, regG := rg, spadG := sg, gcG := 32 - rg - sg }
    else none

/-- The configuration for a record's shape. -/
def LaunchRec.config (r : LaunchRec) : Option PoolConfig := fitConfig r.threads r.regs r.spadP r.tiles r.gcg r.smax

/-- The cores of a cluster that are not withdrawn (23 R443). -/
def coresUp (s : State) (cl : Nat) : List Nat :=
  ((List.range 64).map (64 * cl + ·)).filter fun c => !(s.core c).withdrawn

/-- The clusters of a partition (23 R438). -/
def clustersOf (s : State) (p : Nat) : List Nat := (List.range 12).filter fun c => (s.part p).clusters.getLsbD c

/-- A read of bytes of one page by the I/O die, through translation, at the home copies (19 R375, R377): the bytes and their
poison, or nothing. -/
def ioRead (p va n : Nat) (s : State) : Option (List Byte × Bool) × State :=
  match walk 0 p va s with
  | (.error _, s) => (none, s)
  | (.ok e, s) => match checkLeaf s p .read none e va with
    | .ok (.dev pa a) =>
      let s := (linesIn pa n).foldl (fun s l => homeTouch a l s) s
      (some (mgets s.dev.home pa n, (linesIn pa n).any fun l => (homeMetaOf s l).poison), s)
    | _ => (none, s)

/-- An address is an instruction start that passes the fetch checks, as the dispatcher finds it (03 R64, 06 R136). -/
def targetOk (p a : Nat) (s : State) : Bool × State :=
  if a % 4 != 0 || decide (a ≥ 2 ^ 56) then (false, s)
  else
    let b := a / 32 * 32
    match walk 0 p b s with
    | (.error _, s) => (false, s)
    | (.ok e, s) => match regionOf s p e.leaf.toNat (leafPa e b) with
      | .ok (.dev pa k) =>
        if !bitAt e.leaf.toNat 4 || !keyOpen s p k.key then (false, s)
        else
          let s := homeTouch k (pa / 128) s
          let ws := wordsOfBytes (mgets s.dev.home pa 32) 8
          (!(homeMetaOf s (pa / 128)).poison && (startsFrom 8 0 ws).contains (a % 32 / 4), s)
      | _ => (false, s)

/-- Every page of a bank image has a valid translation with RD (19 R377, status 0x06). -/
def bankOk (p : Nat) : List Nat → State → Bool × State
  | [], s => (true, s)
  | pg :: r, s => match walk 0 p (65536 * pg) s with
    | (.ok e, s) => if bitAt e.leaf.toNat 2 then bankOk p r s else (false, s)
    | (.error _, s) => (false, s)

/-- The pages of the bank images of a record. -/
def LaunchRec.bankPages (r : LaunchRec) : List Nat :=
  r.banks.flatMap fun b =>
    if b.2 = 0 then [] else (List.range ((b.1 + b.2 - 1) / 65536 - b.1 / 65536 + 1)).map (· + b.1 / 65536)

/-- The grids of a partition. -/
def gridsOf (s : State) (p : Nat) : List (Nat × Grid) := s.grids.filter fun e => e.2.part == p

/-- The partition's grid table is full (19 R378). -/
def gridTableFull (s : State) (p : Nat) : Bool := decide ((gridsOf s p).length ≥ 1024)

/-- The status of a record by 19 R377, 0x0A apart. `child` is what LAUNCH adds: whether the issuing thread is the leader. -/
def launchStatus (p depth : Nat) (r : LaunchRec) (poison : Bool) (child : Option Bool) (s : State) : Nat × State :=
  if poison then (9, s)
  else if r.bad || (child.isSome && r.order != 0) then (2, s)
  else if depth > 10 then (3, s)
  else if child == some false then (8, s)
  else if child.isSome && gridTableFull s p then (7, s)
  else match r.config with
    | none => (1, s)
    | some c =>
      if !((clustersOf s p).any fun cl => decide (c.slots * (coresUp s cl).length ≥ r.cohort)) then (5, s)
      else
        let (e, s) := targetOk p r.entry s
        let (h, s) := if r.handler = 0 then (true, s) else targetOk p r.handler s
        if !e || !h then (4, s)
        else
          let (b, s) := bankOk p r.bankPages s
          (if b then 0 else 6, s)

/-- A partition takes tidemarks (24 R459). -/
def tideMode (s : State) (p : Nat) : Bool := bitAt (s.part p).dbgctl.toNat 1

/-- A grid is accepted: it takes the lowest free entry of the grid table and the next acceptance sequence (19 R378). -/
def acceptGrid (p : Nat) (r : LaunchRec) (g : Grid) (s : State) : Nat × State :=
  let used := (gridsOf s p).map fun e => e.2.entryNo
  let i := ((List.range 1024).find? fun k => !used.contains k).getD 0
  let q := (s.part p).gridSeq
  let key := s.fresh
  let g : Grid :=
    { g with part := p, entryNo := i, gridId := BitVec.ofNat 32 (q % 2 ^ 22 * 1024 + i), entry := BitVec.ofNat 56 r.entry,
             handler := BitVec.ofNat 56 r.handler, threads := r.threads, regs := r.regs, spadP := r.spadP, tiles := r.tiles,
             gcg := r.gcg, teams := r.teams, cohort := r.cohort, order := r.order, tag := BitVec.ofNat 64 r.tag,
             saveBase := r.saveBase, saveSlots := r.saveSlots, banks := r.banks, config := (r.config).getD {},
             tided := !tideMode s p }
  let s := s.modPart p fun v => { v with gridSeq := q + 1 }
  (key, { s with grids := tput s.grids key g, fresh := key + 1 })

/-- A grid before its record's fields are filled in. -/
def bareGrid (queue depth rank : Nat) : Grid :=
  { part := 0, entryNo := 0, gridId := 0, queue := queue, depth := depth, rank := rank, entry := 0, handler := 0, threads := 0,
    regs := 0, spadP := 0, tiles := 0, gcg := 0, teams := 0, cohort := 1, config := {} }

/-- LAUNCH by one thread; `j` makes the child a continuation (19 R386 to R389). -/
def Ctx.launch (c : Ctx) (j : Bool) (s : State) : Except Trap State :=
  c.withTeam s fun tm =>
    match c.chunks c.va.toNat 256 s, s.grid? tm.grid with
    | .error t, _ => .error t
    | .ok _, none => .ok (c.putP 0 s)
    | .ok off, some g =>
      let r := launchRecOf (poolRead s tm.core off 256)
      let lead := (leaderOf s c.t.team).map (·.1) == some c.tid
      match launchStatus tm.part (g.depth + 1) r (poolPoisoned s tm.core off 256) (some lead) s with
      | (0, s) =>
        let cmds := (teamCmds s tm.core c.t.team).map (·.1)
        let kids := if j then tm.children.filter fun k => (s.grid? k).isSome else []
        let b := { bareGrid g.queue (g.depth + 1) g.rank with
          launcher := some (c.t.team, tm.grid), waitCmds := some (c.t.team, cmds), waitGrids := kids, started := false }
        let (k, s) := acceptGrid tm.part r b s
        let s := s.modTeam c.t.team fun t => { t with children := t.children ++ [k] }
        .ok (c.putP (pair64 0 ((s.grid? k).elim 0 (·.gridId))) s)
      | (st, s) => .ok (c.putP (pair64 (BitVec.ofNat 32 st) 0) s)

/-- LAUNCH (19 R386). -/
def execLaunch (f : FA128) (s : State) : Host.Outcome State Fault Refusal :=
  issueKeyed (.launch f) (fun c s => c.launch false s) s
/-- LAUNCH.J (19 R388). -/
def execLaunchJ (f : FA128) (s : State) : Host.Outcome State Fault Refusal :=
  issueKeyed (.launchJ f) (fun c s => c.launch true s) s

/-- TRIGGER: the team's first fixes its trigger set; it completes 4 clk after its issue (19 R390). -/
def execTrigger (f : FA128) (s : State) : Host.Outcome State Fault Refusal :=
  issueKeyed (.trigger f) (fun c s => c.withTeam s fun tm =>
    let first := tm.trigger.isNone
    let set := (teamCmds s tm.core c.t.team).map (·.1)
    let s := if first then s.modTeam c.t.team fun t => { t with trigger := some set } else s
    .ok (c.fly { cls := .v, ready := c.clk, flag := c.flag, regs := storable [(c.f.vd, bool32 (!first))], poison := [],
                 sreg := none, wait := .accept 0 (c.clk + 4) } s)) s

/-- A release of device or system scope that no write carries: every die with DIRTY lines of the partition serves a new epoch
(22 R423, R426). -/
def releaseDies (p : Nat) (s : State) : State :=
  (List.range 4).foldl (fun s d =>
    if (s.die d).visMeta.any fun e => e.2.part == p && e.2.dirty != 0 then
      let (e, s) := takeEpoch d p s
      serveEpoch d p e s
    else s) s

/-- Commands of a team, resident or saved, that are not gone. -/
def cmdsLeft (s : State) (team : Nat) (ks : List Nat) : Bool :=
  match s.team? team with
  | none => false
  | some tm =>
    let now := if tm.state == .saved then (tm.saved.elim [] (·.cmds)).map (·.1) else (teamCmds s tm.core team).map (·.1)
    ks.any fun k => now.contains k

/-- The trigger point of a team is reached: every command of its trigger set is gone (19 R390). -/
def atTrigger (s : State) (team : Nat) (tm : Team) : Bool :=
  match tm.trigger with | some ks => !tm.triggered && !cmdsLeft s team ks | none => false

/-- TRIGGER_POINT (19 R390). -/
def execTriggerPoint (team : Nat) (s : State) : Host.Outcome State Fault Refusal :=
  .next (match s.team? team with
  | none => s
  | some tm =>
    if !atTrigger s team tm then s
    else
      let s := releaseDies tm.part s
      let s := s.modTeam team fun t => { t with triggered := true, trigDone := true }
      s.modGrid tm.grid fun g => { g with trigs := g.trigs + b2n (!tm.trigDone) })

/-- A team satisfies the trigger condition by having ended with every command gone, and is not counted yet (19 R391). -/
def endedGone (s : State) (e : Nat × Team) : Bool :=
  !e.2.trigDone && (teamOver s e
    || (e.2.state == .saved && e.2.savedAs == .ended && (e.2.saved.elim [] (·.cmds)).isEmpty))

/-- A grid meets the trigger condition (19 R391). -/
def trigMet (s : State) (k : Nat) (g : Grid) : Bool :=
  g.placed == g.teams && g.trigs + (s.teams.filter fun e => e.2.grid == k && endedGone s e).length == g.teams

/-- A child has what it waits for: the launcher's commands, and for a continuation the grids before it (19 R388, R389). -/
def childDue (s : State) (g : Grid) : Bool :=
  !g.started && (match g.waitCmds with | some (t, ks) => !cmdsLeft s t ks | none => true)
    && !(g.waitGrids.any fun k => (s.grid? k).isSome)

/-- A child may place its teams, after the release of its launcher's writes (19 R389). -/
def startChild (grid : Nat) (s : State) : State :=
  match s.grid? grid with
  | none => s
  | some g =>
    if !childDue s g then s
    else (releaseDies g.part s).modGrid grid fun g => { g with started := true, waitCmds := none, waitGrids := [] }

/-- CHILD_START (19 R389): of a child that is no continuation behind other grids. -/
def execChildStart (grid : Nat) (s : State) : Host.Outcome State Fault Refusal :=
  .next (match s.grid? grid with | some g => if g.waitGrids.isEmpty then startChild grid s else s | none => s)
/-- CONTINUATION_START (19 R388). -/
def execContinuationStart (grid : Nat) (s : State) : Host.Outcome State Fault Refusal :=
  .next (match s.grid? grid with | some g => if g.waitGrids.isEmpty then s else startChild grid s | none => s)

end Sys2Proof.Machine
end

