-- ==== Sys2Proof/Machine/Place.lean ====
section
/-! DEFINITION. The dispatcher: configuring cores, placing and resuming teams, the progress rule, and the end of a grid (07
R146 to R148, 13 R305, 15 R317, 19 R379, R383, R385, R397, R398). -/

namespace Sys2Proof.Machine

open Sys2Proof

/-- A team occupies its slot (13 R283). -/
def Team.resident (t : Team) : Bool := t.state != .saved && t.state != .released

/-- A slot of a core holds no team. -/
def slotFree (s : State) (core slot : Nat) : Bool :=
  !(s.teams.any fun e => e.2.core == core && e.2.slot == slot && e.2.resident)

/-- A page of a range of addresses leads to the pool or tile store of a core, as die `d` walks. What one table entry covers is
looked at once (18 R359, R361, R364). -/
def pagesReach (core p d : Nat) : Nat → Nat → Nat → State → Bool
  | 0, _, _, _ => false
  | fuel + 1, va, hi, s =>
    if va > hi then false
    else
      let past (bits : Nat) : Nat := (va / 2 ^ bits + 1) * 2 ^ bits
      match walk d p va s with
      | (.error f, s) => pagesReach core p d fuel (past (if f.level = 3 then 16 else walkBits f.level)) hi s
      | (.ok e, s) =>
        let pa := leafPa e va
        (bitsAt pa 48 4 == 1 && 192 * bitsAt pa 46 2 + 64 * bitsAt pa 44 2 + bitsAt pa 38 6 == core)
          || pagesReach core p d fuel (past (pageBits e.level)) hi s

/-- A command of core `at'` reads or writes the pool or tile store of a core through an on-chip window (07 R148, 18 R364). -/
def cmdReaches (core at' : Nat) (s : State) (x : Command) : Bool :=
  let p := match s.team? x.team with | some t => t.part | none => 0
  let range (lo n : Nat) : Bool := pagesReach core p (dieOf at') (n / 65536 + 2) lo (lo + n) s
  x.snaps.any fun r =>
    let t := trecOf r
    let (lo, hi) := t.span
    bitsAt r.toNat 156 4 != 1 && ((baseMode t.base == 0 && range lo.toNat (hi - lo).toNat)
      || (t.sc && baseMode t.scbase == 0 && range (baseOff t.scbase) (t.scaleBytes - 1)))

/-- A core is empty: no team, no retained region, and no command that is not gone of it or of another core that reaches it (07
R148). -/
def coreEmpty (s : State) (core : Nat) : Bool :=
  !(s.teams.any fun e => e.2.core == core && e.2.resident) && (s.core core).cmds.isEmpty
    && !(s.cores.any fun c => partOfCore s c.1 == partOfCore s core && c.2.cmds.any fun e => cmdReaches core c.1 s e.2)

/-- A core holds a grid's configuration and may take its teams (07 R147, 13 R305, 23 R443). -/
def coreFits (s : State) (grid : Nat) (g : Grid) (core : Nat) : Bool :=
  let c := s.core core
  c.grid == some grid && !c.loading && !c.withdrawn && c.cfg.slots != 0 && c.cfg == g.config

/-- The free slots of a grid on some cores. -/
def freeSlots (s : State) (grid : Nat) (g : Grid) (cores : List Nat) : List (Nat × Nat) :=
  (cores.filter (coreFits s grid g)).flatMap fun c =>
    ((List.range (s.core c).cfg.slots).filter (slotFree s c)).map fun k => (c, k)

/-- The teams of a grid that a core holds. -/
def teamsHeld (s : State) (grid core : Nat) : Nat :=
  (s.teams.filter fun e => e.2.grid == grid && e.2.core == core && e.2.resident).length

/-- `n` slots taken one after another: the core that holds the fewest teams of the grid, then the lowest core and slot (19
R383). -/
def pickSlots (s : State) (grid : Nat) : Nat → List (Nat × Nat) → List (Nat × Nat) → List (Nat × Nat)
  | 0, _, got => got
  | n + 1, free, got =>
    let load (x : Nat × Nat) : Nat := teamsHeld s grid x.1 + (got.filter fun y => y.1 == x.1).length
    match sortOn (fun (x : Nat × Nat) => load x * 2 ^ 20 + x.1 * 64 + x.2) free with
    | [] => got
    | x :: _ => pickSlots s grid n (free.filter (· != x)) (got ++ [x])

/-- The cores of a partition that are not withdrawn, and the groups among which a placement unit is placed: all of them, or a
cluster's for a cohort (19 R383). -/
def placeGroups (s : State) (g : Grid) : List (List Nat) :=
  let cls := (clustersOf s g.part).map (coresUp s)
  if g.cohort ≤ 1 then [cls.flatten] else cls

/-- The slots that the next placement unit of a grid takes, in ascending order. -/
def findSlots (s : State) (grid : Nat) (g : Grid) : Option (List (Nat × Nat)) :=
  (placeGroups s g).findSome? fun cs =>
    let free := freeSlots s grid g cs
    if free.length ≥ g.cohort then
      some (sortOn (fun (x : Nat × Nat) => x.1 * 64 + x.2) (pickSlots s grid g.cohort free []))
    else none

/-- A core that the dispatcher may configure for a grid. -/
def configurable (s : State) (grid core : Nat) : Bool :=
  let c := s.core core
  coreEmpty s core && !c.loading && !c.withdrawn && !(c.grid == some grid && c.cfg.slots != 0)

/-- The teams of a grid that wait to be placed or resumed (19 R383). -/
def teamsWaiting (s : State) (grid : Nat) (g : Grid) : Nat :=
  (g.teams - g.placed) + (s.teams.filter fun e => e.2.grid == grid && e.2.state == .saved && !e.2.resumeBad).length

/-- The core that is configured next for a grid that finds no slot, unless the reconfigurations in progress will take every team
that waits; the lowest empty one of the first group that can hold one unit more (19 R383; log 118). -/
def findEmpty (s : State) (grid : Nat) (g : Grid) : Option Nat :=
  let groups := placeGroups s g
  let room (cs : List Nat) : Nat :=
    (freeSlots s grid g cs).length
      + (cs.filter fun c => (s.core c).loading && (s.core c).grid == some grid).length * g.config.slots
  if teamsWaiting s grid g ≤ groups.foldl (fun n cs => n + room cs / g.cohort * g.cohort) 0 then none
  else groups.findSome? fun cs =>
    let es := cs.filter (configurable s grid)
    if room cs % g.cohort + es.length * g.config.slots ≥ g.cohort then es.head? else none

/-- The dispatcher places and resumes nothing of a partition: a recovery, a hold or a tidemark (23 R448, 24 R463). -/
def heldBack (s : State) (p : Nat) : Bool :=
  let v := s.part p
  v.recovering.isSome || v.hold || v.tiding.isSome || (gridsOf s p).any fun e => !e.2.tided

/-- The lowest candidate of a grid: the first team of an unplaced cohort, or of one whose teams are all SAVED (15 R318, 19
R383). -/
def nextCandidate (s : State) (grid : Nat) (g : Grid) : Option (Nat × Bool) :=
  let ready (t : Team) : Bool := (cohortMates s t).all fun e => e.2.state == .saved && !e.2.resumeBad
  let saved := (s.teams.filter fun e => e.2.grid == grid && ready e.2).map fun e => e.2.idx
  let low := saved.foldl (fun m i => min m i) g.teams
  if low < g.placed then some (low / g.cohort * g.cohort, true)
  else if g.placed < g.teams then some (g.placed, false)
  else if low < g.teams then some (low / g.cohort * g.cohort, true) else none

/-- What the dispatcher does next for a grid. -/
inductive PlaceAct where
  | start (first : Nat) (slots : List (Nat × Nat))
  | resume (first : Nat) (slots : List (Nat × Nat))
  | configure (core : Nat)
  deriving DecidableEq, Repr

/-- What a grid's next placement unit can do now. -/
def gridAct (s : State) (grid : Nat) (g : Grid) : Option PlaceAct :=
  if !g.started then none
  else match nextCandidate s grid g with
    | none => none
    | some (i, old) => match findSlots s grid g with
      | some xs => some (if old then .resume i xs else .start i xs)
      | none => (findEmpty s grid g).map .configure

/-- The grids of a partition in the order in which they are served: descending rank, then acceptance (19 R383). -/
def servedGrids (s : State) (p : Nat) : List (Nat × Grid) :=
  sortOn (fun (e : Nat × Grid) => 7 - e.2.rank) (gridsOf s p)

/-- The partition's next placement (19 R383). -/
def nextAct (s : State) (p : Nat) : Option (Nat × Grid × PlaceAct) :=
  if heldBack s p then none
  else (servedGrids s p).findSome? fun e => (gridAct s e.1 e.2).map fun a => (e.1, e.2, a)

/-- Reconfiguration of an empty core begins: its pool, tags, gather cache, handles and tasks are cleared (07 R148). -/
def clearCore (core : Nat) (s : State) : State :=
  let s := gcForget core (fun _ => true) s
  s.modCore core fun c => { c with pool := [], poolPoison := [], tags := [], handles := [], tasks := [] }

/-- The dispatcher configures a core for a grid (07 R146, R148). -/
def beginConfig (core grid : Nat) (s : State) : State :=
  (clearCore core s).modCore core fun c => { c with grid := some grid, loading := true }

/-- A range of addresses cut at lines of 128 bytes. -/
def lineRuns (va n : Nat) : List (Nat × Nat) :=
  if n = 0 then []
  else (List.range ((va + n - 1) / 128 - va / 128 + 1)).map fun k =>
    let lo := max va (128 * (va / 128 + k))
    (lo, min (va + n) (128 * (va / 128 + k) + 128) - lo)

/-- Bytes of a bank image read by a core in pieces of one line each, with their poison, or the first fault. What a fabric window
would answer is free (19 R379; log 119). -/
def bankRead (core p : Nat) : List (Nat × Nat) → State → Except XFault (List Byte × Bool) × State
  | [], s => (.ok ([], false), s)
  | (va, n) :: r, s =>
    let more (x : List Byte × Bool) (s : State) : Except XFault (List Byte × Bool) × State :=
      match bankRead core p r s with
      | (.ok y, s) => (.ok (x.1 ++ y.1, x.2 || y.2), s)
      | (.error f, s) => (.error f, s)
    match Machine.access (clusterOf core) p .read none va s with
    | (.ok (.dev pa a), s) => let (x, s) := acquireRead (dieOf core) a pa n s; more x s
    | (.ok (.chip c off tile), s) => let (x, s) := chipRead c off n tile (chipAcquire (dieOf core) p c s); more x s
    | (.ok (.fabric _), s) => let (k, s) := s.takeFree; more ((List.range n).map fun i => BitVec.ofNat 8 (k / 2 ^ (8 * i)), false) s
    | (.error f, s) => (.error f, s)

/-- The parts of a bank image that load or fail together: whole words, those of one line at once where the image is aligned to
words (19 R379). -/
def bankUnits (va n : Nat) : List (Nat × Nat) :=
  if va % 4 = 0 then lineRuns va n else (List.range (n / 4)).map fun k => (va + 4 * k, 4)

/-- A bank image is loaded: a word that cannot be read stays zero; the first such word and its fault (19 R379). -/
def bankPieces (core p b va : Nat) : List (Nat × Nat) → Option (Nat × Nat × XFault) → State → Option (Nat × Nat × XFault) × State
  | [], bad, s => (bad, s)
  | (a, n) :: r, bad, s => match bankRead core p (lineRuns a n) s with
    | (.ok (bs, poi), s) =>
      let off := a - va
      let s := s.modCore core fun c =>
        { c with banks := mputs c.banks (65536 * b + off) bs,
                 bankPoison := if poi then (List.range (n / 4)).foldl (fun l k => nadd l (16384 * b + off / 4 + k)) c.bankPoison
                               else c.bankPoison }
      bankPieces core p b va r bad s
    | (.error f, s) => bankPieces core p b va r (bad.or (some (a, a - va, f))) s

/-- A constant bank is loaded: words without a valid translation read zero, and a record names the first (19 R379, 03 R72). -/
def loadBank (core : Nat) (g : Grid) (b : Nat) (s : State) : State :=
  let (va, n) := g.banks.getD b (0, 0)
  let s := s.modCore core fun c =>
    { c with banks := mzero c.banks (65536 * b) 65536, bankPoison := c.bankPoison.filter fun w => w / 16384 != b }
  match bankPieces core g.part b va (bankUnits va n) none s with
  | (none, s) => s
  | (some (a, off, f), s) => plainFault core g.part g.gridId.toNat 0xFFFFFFFF (f.kind + 256 * f.level) a off s

/-- RECONFIGURATION_DONE (07 R148): the banks are loaded and the new word is written. -/
def execReconfigurationDone (core : Nat) (s : State) : Host.Outcome State Fault Refusal :=
  .next (
    let c := s.core core
    if !c.loading then s
    else match c.grid.bind fun k => s.grid? k with
      | none => s.modCore core fun c => { c with loading := false, grid := none, cfg := {} }
      | some g =>
        let s := (List.range 4).foldl (fun s b => loadBank core g b s) s
        s.modCore core fun c => { c with loading := false, cfg := g.config })

/-- A cluster is active from its die's clk on (23 R455). -/
def wakeCluster (cl : Nat) (s : State) : State :=
  let clk := (s.die (cl / 3)).clk
  s.modCluster cl fun c => { c with power := 0, active := clk }

/-- The threads of a new team (01 R29, 07 R150). -/
def startThreads (key : Nat) (tm : Team) (g : Grid) (s : State) : State :=
  (List.range tm.threads).foldl (fun s n =>
    let c := s.core tm.core
    let t := newThread key tm c.cfg.waves n c.nextSeq g.depth g.entry
    let s := s.modCore tm.core fun c => { c with nextSeq := c.nextSeq + 1 }
    { s.putThread s.fresh t with fresh := s.fresh + 1 }) s

/-- A team starts in a slot, whose region and tiles read zero whatever a window has put there since the slot was scrubbed (08
R162, 09 R185, 13 R283, R284, 22 R429). -/
def startTeam (grid : Nat) (g : Grid) (idx core slot : Nat) (s : State) : State :=
  let key := s.fresh
  let tm : Team :=
    { grid := grid, part := g.part, core := core, slot := slot, idx := idx, cohort := g.cohort, threads := g.threads,
      waves := ceilDiv g.threads 32, regs := g.regs, spadP := g.spadP, tiles := g.tiles, gcg := g.gcg, handler := g.handler,
      gridId := g.gridId }
  let s := wakeCluster (clusterOf core) (acquireStart core g.part (scrubSlot core slot s))
  startThreads key tm g ({ s with fresh := key + 1 }.putTeam key tm)

/-- One act of the dispatcher (19 R383, 15 R317). -/
def placeAct (grid : Nat) (g : Grid) (a : PlaceAct) (s : State) : State :=
  match a with
  | .configure core => wakeCluster (clusterOf core) (beginConfig core grid s)
  | .start i xs =>
    let s := (numbered xs).foldl (fun s x => startTeam grid g (i + x.1) x.2.1 x.2.2 s) s
    s.modGrid grid fun g => { g with placed := i + g.cohort }
  | .resume i xs =>
    let es := sortOn (fun (e : Nat × Team) => e.2.idx)
      (s.teams.filter fun e => e.2.grid == grid && e.2.state == .saved && e.2.idx / g.cohort == i / g.cohort)
    let s := xs.foldl (fun s x => wakeCluster (clusterOf x.1) s) s
    resumeTeams (es.zip xs) s

/-- TEAM_RESUME (13 R305): the dispatcher resumes the team's cohort, when that is what it does next. -/
def execTeamResume (team : Nat) (s : State) : Host.Outcome State Fault Refusal :=
  .next (match s.team? team with
  | none => s
  | some tm => match nextAct s tm.part with
    | some (k, g, .resume i xs) => if k = tm.grid ∧ tm.idx / g.cohort = i / g.cohort then placeAct k g (.resume i xs) s else s
    | _ => s)

/-- L of the progress rule: the lowest team of a grid that has not ended (19 R385). -/
def lowTeam (g : Grid) : Option Nat := (List.range (g.done.length + 1)).find? fun i => decide (i < g.teams) && !nmem g.done i

/-- A team of a grid is resident. -/
def residentAt (s : State) (grid idx : Nat) : Bool :=
  s.teams.any fun e => e.2.grid == grid && e.2.idx == idx && e.2.resident

/-- PROGRESS of a partition in us (19 R381). -/
def progressOf (s : State) (p : Nat) : Nat := bitsAt (s.part p).pdisp.toNat 32 32

/-- One us of a grid's progress timer (19 R385). -/
def tickProgress (s : State) (e : Nat × Grid) : Nat × Grid :=
  let g := e.2
  if progressOf s g.part = 0 then e
  else match lowTeam g with
    | none => e
    | some l =>
      if residentAt s e.1 l then (e.1, { g with progress := 0, progressFor := l })
      else if g.progressFor != l then (e.1, { g with progress := 1, progressFor := l })
      else (e.1, { g with progress := g.progress + 1 })

/-- The progress timer of a grid has expired (19 R385). -/
def progressDue (s : State) (grid : Nat) (g : Grid) : Bool :=
  progressOf s g.part != 0 && decide (g.progress ≥ progressOf s g.part) && !recovering s g.part &&
    match lowTeam g with
    | some l => l == g.progressFor && !residentAt s grid l
    | none => false

/-- A resident cohort whose slots would take another of its grid: each of its teams can be saved, and its cores still take the
grid's teams (19 R385, 13 R305). -/
def givesWay (s : State) (grid : Nat) (g : Grid) (tm : Team) : Bool :=
  (cohortMates s tm).all fun e => saveable e.2 && coreFits s grid g e.2.core

/-- PROGRESS_TIMER_EXPIRY (19 R385): with no slot free for L's cohort, a save is requested of the highest resident cohort whose
slots would take it; the timer restarts (log 120). -/
def execProgressTimerExpiry (grid : Nat) (s : State) : Host.Outcome State Fault Refusal :=
  .next (match s.grid? grid with
  | none => s
  | some g =>
    if !progressDue s grid g then s
    else
      let s := s.modGrid grid fun g => { g with progress := 0 }
      let mine := s.teams.filter fun e => e.2.grid == grid
      let busy := mine.any fun e => e.2.saveReq || e.2.state == .saving
      let room := (findSlots s grid g).isSome || (findEmpty s grid g).isSome
      if busy || room then s
      else
        let ts := mine.filter fun e => givesWay s grid g e.2
        let top := ts.foldl (fun (b : Option Team) e => match b with
          | some x => if x.idx < e.2.idx then some e.2 else b
          | none => some e.2) none
        match top with
        | some tm => if saveFits s tm then requestSave tm s else s
        | none => s)

/-- The idle signal of a grid over every die (19 R397). -/
def gridIdle (s : State) (grid : Nat) (g : Grid) : Bool :=
  g.placed == g.teams
    && (s.teams.filter fun e => e.2.grid == grid).all (teamOver s)
    && !(s.grids.any fun e => match e.2.launcher with | some (_, k) => k == grid | none => false)

/-- A die's messages summed. -/
def sumOf (t : Table Nat) : Nat := t.foldl (fun n e => n + e.2) 0

/-- The watchdog count of a queue restarts (23 R447). -/
def restartTimer (q : Nat) (s : State) : State := s.modQueue q fun v => { v with timer := 0, bound := v.limit }

/-- A completion record of a host grid, or of a record that is rejected (19 R398). -/
def completionWords (type status gridId queue index : Nat) (g : Grid) : List DWord :=
  [recWord type status, recWord gridId (queue % 4096 * 2 ^ 20 + index % 2 ^ 20), recWord g.ok g.killed,
   recWord g.orphaned g.poisonTasks, g.tag, recWord g.fails 0, 0, 0]

/-- A host grid's completion record is posted; a KILLED one leaves its queue's timer as it stands (19 R398, 23 R447). -/
def postGrid (type status : Nat) (g : Grid) (s : State) : State :=
  match g.host with
  | none => s
  | some i =>
    let s := postCompletion g.queue (completionWords type status g.gridId.toNat g.queue i g) s
    if type = 3 then s else restartTimer g.queue s

/-- A quiescent grid completes (19 R397). -/
def completeGrid (grid : Nat) (g : Grid) (s : State) : State :=
  let s := releaseDies g.part s
  let s := (s.teams.filter fun e => e.2.grid == grid).foldl (fun s e => releaseTeam e s) s
  postGrid 1 0 g { s with grids := tdel s.grids grid }

/-- A sample of the quiescence detector: a second one at least 1 us after a first that agrees completes the grid (19 R397). A
count of whole us that differs by 2 is the least that shows a us passed. -/
def sampleGrid (grid : Nat) (s : State) : State :=
  match s.grid? grid with
  | none => s
  | some g =>
    let put (v : Option (Nat × Nat × Nat)) : State := s.modGrid grid fun g => { g with sample := v }
    if !gridIdle s grid g then (if g.sample.isSome then put none else s)
    else
      let a := sumOf g.sent
      let b := sumOf g.recv
      match g.sample with
      | none => put (some (s.pkg.us, a, b))
      | some (u, a', b') =>
        if s.pkg.us ≤ u + 1 then s
        else if a = b ∧ a' = a ∧ b' = b then completeGrid grid g s
        else put (some (s.pkg.us, a, b))

/-- QUIESCENCE_SAMPLE (19 R397). -/
def execQuiescenceSample (grid : Nat) (s : State) : Host.Outcome State Fault Refusal := .next (sampleGrid grid s)

/-- A grid is killed: its resident teams by 13 R306, its unplaced and SAVED ones discarded; its entry is freed and a host grid
posts a KILLED record (23 R442, R448). `post` is its STATUS. -/
def killGrid (grid : Nat) (post : Option Nat) (s : State) : State :=
  match s.grid? grid with
  | none => s
  | some g =>
    let mine := s.teams.filter fun e => e.2.grid == grid
    let cancel (s : State) (e : Nat × Team) : State :=
      (teamCmds s e.2.core e.1).foldl (fun s x => cancelCmd e.2.core x.1 s) s
    let s := mine.foldl (fun s e => if e.2.resident then cancel (killTeam e.1 s) e else s) s
    let lost := mine.filter fun e => e.2.state == .saved
    let s : State := { s with teams := s.teams.filter fun (e : Nat × Team) => !(e.2.grid == grid && e.2.state == .saved) }
    let n := (g.teams - g.placed) + (lost.filter fun e => e.2.savedAs != .ended).length
    let s := s.modGrid grid fun g => { g with killed := g.killed + n }
    let g := (s.grid? grid).getD g
    let s := { s with grids := tdel s.grids grid }
    match post with | some st => postGrid 3 st g s | none => s

end Sys2Proof.Machine
end

