-- ==== Sys2Proof/Machine/Queue.lean ====
section
/-! DEFINITION. Host queues, the reading of launch records, the queue watchdog and the recovery of a partition (19 R373 to R377,
R382, R384, 23 R446 to R450). -/

namespace Sys2Proof.Machine

open Sys2Proof

/-- QCTL's fields (19 R374). -/
def Queue.en (q : Queue) : Bool := q.qctl.getLsbD 0
def Queue.qlog (q : Queue) : Nat := bitsAt q.qctl.toNat 1 5
def Queue.prio (q : Queue) : Nat := bitsAt q.qctl.toNat 8 3
def Queue.part (q : Queue) : Nat := bitsAt q.qctl.toNat 16 4

/-- The defined bits of QCTL (19 R374). -/
def qctlMask : Nat := 0x1FF073F

/-- A write of QCTL (19 R373, R374, 23 R446). -/
def writeQctl (q v : Nat) (s : State) : State :=
  let old := s.queue q
  if old.en then
    if bitAt v 0 then s
    else s.modQueue q fun x => { x with qctl := x.qctl &&& 0xFFFFFFFFFFFFFFFE#64 }
  else
    let refused := v % 2 ^ 64 &&& (2 ^ 64 - 1 - qctlMask) != 0 || decide (bitsAt v 1 5 > 16) || decide (bitsAt v 20 5 > 16)
      || !(s.part (bitsAt v 16 4)).exist || old.fired
    let w := v &&& qctlMask
    let w := if refused then w &&& (qctlMask - 1) else w
    s.modQueue q fun x =>
      { x with qctl := BitVec.ofNat 64 w, prev := if bitAt w 0 then none else x.prev, waited := 0 }

/-- A write of DOORBELL (19 R375). -/
def writeDoorbell (q v : Nat) (s : State) : State :=
  let t := v % 2 ^ 32
  let old := s.queue q
  if (t + 2 ^ 32 - old.head) % 2 ^ 32 > 2 ^ old.qlog then s else s.modQueue q fun x => { x with doorbell := t }

/-- A write of QWDOG (23 R446, R447). -/
def writeQwdog (q v : Nat) (s : State) : State :=
  let limit := v % 2 ^ 32
  s.modQueue q fun x =>
    { x with limit := limit, fired := x.fired && !bitAt v 32,
             timer := if limit = 0 then 0 else x.timer, bound := if limit = 0 then 0 else x.bound }

/-- A write of a word of a queue's register block (19 R373). -/
def writeQueueReg (q off v : Nat) (s : State) : State :=
  let en := (s.queue q).en
  match off with
  | 0x00 => writeQctl q v s
  | 0x08 => if en then s else s.modQueue q fun x => { x with qbase := BitVec.ofNat 64 (bitsAt v 8 48 * 256) }
  | 0x10 => writeDoorbell q v s
  | 0x20 => if en then s else s.modQueue q fun x => { x with cqaddr := BitVec.ofNat 64 v }
  | 0x28 => if en then s else s.modQueue q fun x =>
      { x with cqconn := BitVec.ofNat 64 (v % 2 ^ 16 + bitsAt v 32 32 * 2 ^ 32) }
  | 0x38 => writeQwdog q v s
  | _ => s

/-- QCTL_WRITE, DOORBELL_WRITE and QWDOG_WRITE (19 R373 to R375, 23 R446). -/
def execQctlWrite (queue value : Nat) (s : State) : Host.Outcome State Fault Refusal :=
  .next (if queue < 4096 then writeQctl queue value s else s)
def execDoorbellWrite (queue value : Nat) (s : State) : Host.Outcome State Fault Refusal :=
  .next (if queue < 4096 then writeDoorbell queue value s else s)
def execQwdogWrite (queue value : Nat) (s : State) : Host.Outcome State Fault Refusal :=
  .next (if queue < 4096 then writeQwdog queue value s else s)

/-- A queue has a live grid, or a descendant of one (23 R447). -/
def queueLive (s : State) (q : Nat) : Bool := s.grids.any fun e => e.2.queue == q

/-- A partition has a halted thread (24 R466). -/
def anyHalted (s : State) (p : Nat) : Bool :=
  s.threads.any fun e => e.2.halted != .none && (match s.team? e.2.team with | some t => t.part == p | none => false)

/-- The timer of a queue runs (23 R447, R448, 24 R463, R466). -/
def timerRuns (s : State) (q : Nat) : Bool :=
  let v := s.queue q
  let p := v.part
  v.limit != 0 && queueLive s q && !recovering s p && !(s.part p).hold && (s.part p).tiding.isNone && !anyHalted s p

/-- A word of a queue's register block as read (19 R373, 23 R446). -/
def readQueueReg (s : State) (q off : Nat) : Nat :=
  let v := s.queue q
  match off with
  | 0x00 => v.qctl.toNat
  | 0x08 => v.qbase.toNat
  | 0x10 => v.doorbell
  | 0x18 => v.head
  | 0x20 => v.cqaddr.toNat
  | 0x28 => v.cqconn.toNat
  | 0x30 => v.cqidx.toNat
  | 0x38 => v.limit + 2 ^ 32 * b2n v.fired + 2 ^ 33 * b2n (timerRuns s q)
  | _ => 0

/-- The virtual address of the next record of a queue (19 R375). -/
def Queue.recordVa (v : Queue) : Nat := (v.qbase.toNat + 256 * (v.head % 2 ^ v.qlog)) % 2 ^ 56

/-- The order condition holds for the next record of a queue (19 R384). -/
def orderMet (s : State) (v : Queue) : Bool :=
  match (ioRead v.part v.recordVa 256 s).1 with
  | none => true
  | some (bs, _) => match v.prev.bind fun k => (s.grid? k).map fun g => (k, g) with
    | none => true
    | some (k, g) => match bitsAt (leNat (bs.drop 28)) 16 2 with
      | 0 => false
      | 1 => trigMet s k g
      | _ => true

/-- A queue is eligible (19 R382). -/
def eligible (s : State) (e : Nat × Queue) : Bool := e.2.en && e.2.head != e.2.doorbell && orderMet s e.2

/-- AGE of a partition (19 R381). -/
def ageOf (s : State) (p : Nat) : Nat := bitsAt (s.part p).pdisp.toNat 16 8
def weightOf (s : State) (p : Nat) : Nat := bitsAt (s.part p).pdisp.toNat 0 8

/-- The us that a queue counts as eligible: none in deterministic mode (19 R382). -/
def waitedOf (s : State) (v : Queue) : Nat := if (s.part v.part).det then 0 else v.waited

/-- The effective priority of a queue (19 R382). -/
def effPrio (s : State) (v : Queue) : Nat :=
  let a := ageOf s v.part
  min 7 (v.prio + if a = 0 then 0 else waitedOf s v / a)

/-- The queue of a partition that is read next (19 R382). -/
def nextQueue (s : State) (p : Nat) : Option (Nat × Queue) :=
  (s.queues.filter fun e => e.2.part == p && eligible s e).foldl (fun (b : Option (Nat × Queue)) e => match b with
    | none => some e
    | some x =>
      let a := (effPrio s x.2, waitedOf s x.2)
      let c := (effPrio s e.2, waitedOf s e.2)
      if a.1 < c.1 ∨ (a.1 = c.1 ∧ a.2 < c.2) then some e else b) none

/-- A partition may read a host record (19 R378, R382, 23 R448). -/
def mayRead (s : State) (p : Nat) : Bool :=
  (s.part p).exist && decide (weightOf s p > 0) && !gridTableFull s p && !recovering s p && (nextQueue s p).isSome

/-- The partition whose read is next: deficit round robin (19 R382). -/
def nextReader (s : State) : Option Nat :=
  let t := s.pkg.turn
  if mayRead s t && decide ((s.part t).deficit > 0) then some t
  else ((List.range 12).map fun k => (t + 1 + k) % 12).find? (mayRead s)

/-- A read is charged to a partition's round. -/
def chargeRead (p : Nat) (s : State) : State :=
  if s.pkg.turn = p ∧ (s.part p).deficit > 0 then s.modPart p fun v => { v with deficit := v.deficit - 1 }
  else
    let s := s.modPart s.pkg.turn fun v => { v with deficit := 0 }
    let s := s.modPart p fun v => { v with deficit := weightOf s p - 1 }
    { s with pkg := { s.pkg with turn := p } }

/-- A rejected record's completion record (19 R377, R398). -/
def rejectRecord (q i status tag : Nat) (s : State) : State :=
  let g := { bareGrid q 0 0 with tag := BitVec.ofNat 64 tag }
  restartTimer q (postCompletion q (completionWords 2 status 0 q i g) s)

/-- The I/O die reads the next host record of a partition (19 R377, R378, R382). Before a dependant is accepted, the writes of the
teams that met its trigger condition by ending are released (19 R391, 22 R415). -/
def readHost (p : Nat) (s : State) : State :=
  if nextReader s != some p then s
  else match nextQueue s p with
    | none => s
    | some (q, v) =>
      let rank := effPrio s v
      let (r, s) := ioRead p v.recordVa 256 (chargeRead p s)
      let s := s.modQueue q fun x => { x with head := (x.head + 1) % 2 ^ 32, waited := 0 }
      match r with
      | none => rejectRecord q v.head 0x0A 0 s
      | some (bs, bad) =>
        let l := launchRecOf (leNat bs)
        match launchStatus p 1 l bad none s with
        | (0, s) =>
          let s := if l.order = 1 then releaseDies p s else s
          let (k, s) := acceptGrid p l { bareGrid q 1 rank with host := some v.head } s
          s.modQueue q fun x => { x with prev := some k }
        | (st, s) => rejectRecord q v.head st l.tag s

/-- HOST_RECORD_READ (19 R382). -/
def execHostRecordRead (part : Nat) (s : State) : Host.Outcome State Fault Refusal := .next (readHost part s)

/-- A queue's timer has reached its limit (23 R447). -/
def expired (s : State) (e : Nat × Queue) : Bool :=
  e.2.bound != 0 && decide (e.2.timer ≥ e.2.bound) && timerRuns s e.1

/-- One us of a queue: its timer, and the time for which it has been eligible (19 R382, 23 R447). -/
def tickQueue (s : State) (e : Nat × Queue) : Nat × Queue :=
  let v := e.2
  let v := if eligible s e then { v with waited := v.waited + 1 } else { v with waited := 0 }
  if !timerRuns s e.1 then (e.1, { v with timer := 0, bound := 0 })
  else if v.bound = 0 then (e.1, { v with timer := 1, bound := v.limit })
  else (e.1, { v with timer := v.timer + 1 })

/-- Step 2 of a recovery for one queue: its grids are killed; the queue, the grids and the teams killed or discarded (23
R448). -/
def killQueue (q : Nat) (s : State) : (Nat × Nat × Nat) × State :=
  let gs := s.grids.filter fun e => e.2.queue == q
  let teams (n : Nat) (e : Nat × Grid) (s : State) : Nat × State :=
    let left := e.2.teams - e.2.done.length
    (n + left, killGrid e.1 (some 0) s)
  let (n, s) := gs.foldl (fun r e => teams r.1 e r.2) (0, s)
  ((q, gs.length, n), s)

/-- Steps 1 to 3 of a recovery begin: hold, kill, and the saves of the drain are requested (23 R448). -/
def beginRecovery (p : Nat) (s : State) : State :=
  let qs := (s.queues.filter fun e => e.2.part == p && expired s e).map (·.1)
  let s := qs.foldl (fun s q => s.modQueue q fun v =>
    { v with fired := true, qctl := v.qctl &&& 0xFFFFFFFFFFFFFFFE#64 }) s
  let (ws, s) := qs.foldl (fun (r : List (Nat × Nat × Nat) × State) q =>
    let (w, s) := killQueue q r.2
    (r.1 ++ [w], s)) ([], s)
  let s := s.modPart p fun v =>
    { v with recovering := some (s.pkg.us, ws), recovSaved := 0, recovKilled := 0, tiding := none }
  let s : State := { s with queues := s.queues.map fun (e : Nat × Queue) =>
    if e.2.part = p then (e.1, { e.2 with timer := 0, bound := 0 }) else e }
  let due (e : Nat × Team) : Bool :=
    e.2.part == p && saveable e.2 && (s.grid? e.2.grid).isSome && !((cohortMates s e.2).all (teamOver s))
  (s.teams.filter due).foldl
    (fun s e => s.modTeam e.1 fun t => { t with saveReq := true }) s

/-- WATCHDOG_EXPIRY (23 R448). -/
def execWatchdogExpiry (queue : Nat) (s : State) : Host.Outcome State Fault Refusal :=
  .next (if expired s (queue, s.queue queue) then beginRecovery (s.queue queue).part s else s)

/-- A core as step 4 of a recovery leaves it (23 R448): unconfigured, with nothing fetched, queued or accepted. -/
def resetCore (core : Nat) (s : State) : State :=
  (clearCore core s).modCore core fun c =>
    { c with cfg := {}, grid := none, loading := false, icache := [], fetchTlb := [], loopBuf := [], cmds := [], steps := [],
             tileOps := [], accs := [], onArray := none, ended := [], reruns := [] }

/-- The cores of a partition that have a state of their own. -/
def partCores (s : State) (p : Nat) : List Nat := (tkeys s.cores).filter fun c => (s.part p).clusters.getLsbD (clusterOf c)

/-- The reset of a partition: step 4 of a recovery (23 R448, 17 R357, 22 R422, R423). -/
def resetPartition (p : Nat) (s : State) : State :=
  let s := (s.teams.filter fun e => e.2.part == p && e.2.resident).foldl (fun s e => releaseTeam e s) s
  let s := (partCores s p).foldl (fun s c => resetCore c s) s
  let s := (clustersOf s p).foldl (fun s cl => s.modCluster cl fun c => { c with tlb := [] }) s
  let s := resetVisitors p s
  let clear (h : HomeMeta) : HomeMeta := if h.part = p then { h with rv := false, rdie := 0, rsc := 0, rep := 0 } else h
  let s : State := { s with dev := { s.dev with homeMeta := s.dev.homeMeta.map fun e => (e.1, clear e.2) } }
  (tkeys s.dies).foldl (fun s d => s.modDie d fun v =>
    { v with ep := tdel v.ep p, wbe := tdel v.wbe p, walks := v.walks.filter fun e => e.1 / 2 ^ 58 != p }) s

/-- The drain of a recovery is done: every team of the partition is saved, or killed with its steps completed and no save of it
waiting (23 R448). -/
def drained (s : State) (p : Nat) : Bool :=
  (s.part p).promo.isNone
    && (s.teams.all fun e => e.2.part != p || e.2.state == .saved
        || ((e.2.state == .killed || (s.grid? e.2.grid).isNone) && !e.2.saveReq && !((s.core e.2.core).steps.any fun x => x.team == e.1)
            && (teamCmds s e.2.core e.1).isEmpty))

/-- The end of a recovery: its WATCHDOG records, the reset, and the RECOVERED record (23 R444, R448). -/
def endRecovery (p : Nat) (s : State) : State :=
  match (s.part p).recovering with
  | none => s
  | some (start, ws) =>
    if !drained s p then s
    else
      let saved := (s.part p).recovSaved
      let killed := (s.part p).recovKilled
      let s := ws.foldl (fun s w =>
        postFault p [recWord 8 w.1, recWord w.2.1 saved, recWord (w.2.2 + killed) 0, 0, 0, 0, 0, 0] s) s
      let s := resetPartition p s
      let n := ((s.part p).recov + 1) % 2 ^ 32
      let s := s.modPart p fun v => { v with recov := n, recovering := none }
      postFault p [recWord 9 n, recWord (s.pkg.us - start) 0, 0, 0, 0, 0, 0, 0] s

/-- RECOVERY_RESUME (23 R448). -/
def execRecoveryResume (part : Nat) (s : State) : Host.Outcome State Fault Refusal := .next (endRecovery part s)

end Sys2Proof.Machine
end

