-- ==== Sys2Proof/Machine/Shoot.lean ====
section
/-! DEFINITION. Shootdowns, promotions and the answers to faults (18 R363, R367, R370 to R372). -/

namespace Sys2Proof.Machine

open Sys2Proof

/-- A cached translation overlaps a range of pages. -/
def tlbOverlaps (first n k : Nat) (e : TlbEntry) : Bool :=
  let m := 2 ^ (pageBits e.level - 16)
  decide (k / m * m < first + n) && decide (first < k / m * m + m)

/-- A walker's table entry of a partition leads to addresses of a range of pages (18 R367). -/
def walkOverlaps (p first n k : Nat) : Bool :=
  let page := k % 2 ^ 56 / 65536
  k / 2 ^ 58 == p && decide (page < first + n) && decide (first < page + 2 ^ (walkBits (k / 2 ^ 56 % 4) - 16))

/-- Cached translations, table entries and gather-cache blocks of a range of pages are dropped in every cluster of a partition (18
R367). -/
def shootRange (p first n : Nat) (s : State) : State :=
  let keep (t : Table TlbEntry) : Table TlbEntry := t.filter fun e => !tlbOverlaps first n e.1 e.2
  let s := (clustersOf s p).foldl (fun s cl => s.modCluster cl fun c => { c with tlb := keep c.tlb }) s
  let s := (tkeys s.dies).foldl (fun s d => s.modDie d fun v => { v with walks := v.walks.filter fun e => !walkOverlaps p first n e.1 }) s
  (partCores s p).foldl (fun s core =>
    gcDrop core (fun b => decide (first ≤ b.vline / 512) && decide (b.vline / 512 < first + n))
      (s.modCore core fun c => { c with fetchTlb := keep c.fetchTlb })) s

/-- A write of SHOOTLEN: the shootdown starts, or is queued behind the one that runs (18 R363, R367). -/
def writeShootLen (p v : Nat) (s : State) : State :=
  if v = 0 ∨ v > 2 ^ 40 then s
  else
    let first := bitsAt ((s.part p).reg 0x20) 16 40
    let s := if (s.part p).shoots.isEmpty then shootRange p first v s else s
    s.modPart p fun x => { x with shootLen := BitVec.ofNat 64 v, shoots := x.shoots ++ [(first, v)] }

/-- A message of a command or route of the partition that used a translation of a range is out. -/
def rangeBusy (s : State) (p first n : Nat) : Bool :=
  s.conns.any fun e => e.2.queue.any fun m =>
    decide (first ≤ m.va / 65536) && decide (m.va / 65536 < first + n) && match m.what with
    | .command core k _ => (cmdEnv s core k).any fun c => c.part == p
    | .route team _ => (s.team? team).any fun t => t.part == p
    | .record _ _ => false

/-- Held lines of a bracket at other places. -/
def Tx.moved (t : Tx) (dest : Nat → Nat) : Tx :=
  { t with held := t.held.foldl (fun m e => tput m (128 * dest (e.1 / 128) + e.1 % 128) e.2) [],
           lines := t.lines.foldl (fun m e => tput m (dest e.1) e.2) [] }

/-- The held lines of a bracket in a range of pages are walked again: where each of them now lies (18 R367). -/
def heldMoves (cl p first n : Nat) : Table (Nat × Bool) → State → List (Nat × Nat) × State
  | [], s => ([], s)
  | (line, vline, _) :: r, s =>
    if vline / 512 < first ∨ first + n ≤ vline / 512 then heldMoves cl p first n r s
    else
      let (w, s) := translate cl p (128 * vline) s
      let (l, s) := heldMoves cl p first n r s
      match w with
      | .ok e => ((line, leafPa e (128 * vline) / 128) :: l, s)
      | .error _ => (l, s)

/-- Held bytes of a range follow its translations: every access performed after the shootdown uses a new walk (18 R367). -/
def rehold (p first n : Nat) (s : State) : State :=
  (s.teams.filter fun e => e.2.part == p && !e.2.tx.lines.isEmpty).foldl (fun s e =>
    let (moves, s) := heldMoves (clusterOf e.2.core) p first n e.2.tx.lines s
    s.modTeam e.1 fun t => { t with tx := t.tx.moved fun l => ((moves.find? fun m => m.1 == l).map (·.2)).getD l }) s

/-- A shootdown completes: SHOOTSEQ advances, and the next one starts (18 R367). -/
def completeShoot (p : Nat) (s : State) : State :=
  match (s.part p).shoots with
  | [] => s
  | (first, n) :: r =>
    if rangeBusy s p first n then s
    else
      let s := (rehold p first n s).modPart p fun x => { x with shoots := r, shootSeq := x.shootSeq + 1 }
      match r with | (f, k) :: _ => shootRange p f k s | [] => s

/-- SHOOTDOWN_START and SHOOTDOWN_COMPLETE (18 R367). -/
def execShootdownStart (part value : Nat) (s : State) : Host.Outcome State Fault Refusal :=
  .next (if part < 12 then writeShootLen part (value % 2 ^ 64) s else s)
def execShootdownComplete (part : Nat) (s : State) : Host.Outcome State Fault Refusal := .next (completeShoot part s)

/-- A write of PROMOFREE (18 R363). -/
def writePromoFree (p v : Nat) (s : State) : State :=
  s.modPart p fun x =>
    if x.promoFree.length ≥ 64 then x else { x with promoFree := x.promoFree ++ [bitsAt v 21 31 * 2 ^ 21] }

/-- PROMOFREE_WRITE (18 R363). -/
def execPromofreeWrite (part value : Nat) (s : State) : Host.Outcome State Fault Refusal :=
  .next (if part < 12 then writePromoFree part value s else s)

/-- The address of the L2 entry of a region, as a walk finds it (18 R361). -/
def entryPa (p va : Nat) : Nat → Nat → Nat → State → Option Nat × State
  | 0, _, _, s => (none, s)
  | fuel + 1, lvl, t, s =>
    if !tableOk s p t then (none, s)
    else
      let pa := t + 8 * walkIndex lvl va
      let s := homeTouch { part := p, key := 0, nc := false } (pa / 128) s
      if lvl = 2 then (some pa, s)
      else
        let e := mgetN s.dev.home pa 8
        if (homeMetaOf s (pa / 128)).poison || !bitAt e 0 || entryBad lvl e || bitAt e 1 then (none, s)
        else entryPa p va fuel (lvl + 1) (bitsAt e 8 44 * 256) s

/-- What a region that qualifies for a promotion holds: its L2 entry's address, its L3 table, the leaf flags and the pages. -/
structure Region where
  entry : Nat
  table : Nat
  leaf : Nat
  pages : List Nat
  deriving DecidableEq, Repr

/-- The region of 2 MiB at an address, where it has 32 equal leaves in device memory of one die (18 R371). -/
def regionAt (p va : Nat) (s : State) : Option Region × State :=
  if va % 2 ^ 21 != 0 || decide (va ≥ 2 ^ 56) || !bitAt (s.part p).ptroot.toNat 0 then (none, s)
  else match entryPa p va 3 0 (bitsAt (s.part p).ptroot.toNat 20 32 * 2 ^ 20) s with
    | (none, s) => (none, s)
    | (some pa, s) =>
      let e := mgetN s.dev.home pa 8
      let t := bitsAt e 8 44 * 256
      if (homeMetaOf s (pa / 128)).poison || !bitAt e 0 || bitAt e 1 || entryBad 2 e || !tableOk s p t then (none, s)
      else
        let s := (linesIn t 256).foldl (fun s l => homeTouch { part := p, key := 0, nc := false } l s) s
        let es := (List.range 32).map fun i => mgetN s.dev.home (t + 8 * i) 8
        let flags (e : Nat) : Nat := bitsAt e 56 8 * 2 ^ 56 + bitsAt e 0 8
        let page (e : Nat) : Nat := bitsAt e 16 36 * 65536
        let f := es.headD 0
        let ok (e : Nat) : Bool :=
          bitAt e 0 && !entryBad 3 e && flags e == flags f && !bitAt e 57 && devAddrOk (page e) && inGrant s p (page e)
            && homeDie (page e) == homeDie (page f)
        if (linesIn t 256).any (fun l => (homeMetaOf s l).poison) || !es.all ok then (none, s)
        else (some { entry := pa, table := t, leaf := flags f, pages := es.map page }, s)

/-- A free block that can take a region: on its die, with every page in its stack (18 R371). -/
def blockFits (r : Region) (b : Nat) : Bool :=
  bitsAt b 40 12 == 0 && homeDie b == homeDie (r.pages.headD 0)
    && (numbered r.pages).all fun x => (frameOf x.2) % 3 == (frameOf b + x.1) % 3

/-- A promotion starts: it takes its block, and new accesses to the region stall (18 R371, R372). -/
def beginPromotion (p va : Nat) (s : State) : State :=
  let v := s.part p
  if !v.exist || !bitAt v.xlctl.toNat 0 || bitAt v.xlctl.toNat 1 || v.promo.isSome then s
  else match regionAt p va s with
    | (none, s) => s
    | (some r, s) => match v.promoFree.find? (blockFits r) with
      | none => s
      | some b => s.modPart p fun x => { x with promoFree := x.promoFree.erase b, promo := some (va, b, r.pages) }

/-- PROMOTION_START (18 R372). -/
def execPromotionStart (part va : Nat) (s : State) : Host.Outcome State Fault Refusal := .next (beginPromotion part va s)

/-- A line's bytes, poison and KEY copied at the home slices as a full-line write (18 R372, 17 R351). -/
def copyLine (a : Acc) (src dst : Nat) (s : State) : State :=
  let s := homeTouch a src s
  let h := homeMetaOf s src
  let s := homeWrite a dst (BitVec.allOnes 128) true h.poison (mgets s.dev.home (128 * src) 128) s
  putHomeMeta dst { homeMetaOf s dst with key := h.key } s

/-- A page copied line by line. -/
def copyPage (a : Acc) (src dst : Nat) (s : State) : State :=
  (List.range 512).foldl (fun s k => copyLine a (src / 128 + k) (dst / 128 + k) s) s

/-- Held bytes of brackets move with their pages (18 R372). -/
def moveHeld (p : Nat) (moves : List (Nat × Nat)) (s : State) : State :=
  let dest (l : Nat) : Nat := match moves.find? fun m => m.1 / 65536 == l / 512 with
    | some m => m.2 / 128 + l % 512
    | none => l
  { s with teams := s.teams.map fun e =>
      if e.2.part = p ∧ !e.2.tx.lines.isEmpty then (e.1, { e.2 with tx := e.2.tx.moved dest }) else e }

/-- A promotion completes (18 R372, steps 3 to 8). -/
def completePromotion (p : Nat) (s : State) : State :=
  match (s.part p).promo with
  | none => s
  | some (va, b, pages) =>
    if rangeBusy s p (va / 65536) 32 then s
    else match regionAt p va s with
      | (none, s) => s.modPart p fun x => { x with promo := none, promoFree := x.promoFree ++ [b] }
      | (some r, s) =>
        let a : Acc := { part := p, key := bitsAt r.leaf 60 4, nc := !bitAt r.leaf 56 }
        let old (l : Nat) : Bool := pages.any fun f => f / 65536 == l / 512
        let s := (List.range 4).foldl (fun s d =>
          (((s.die d).visMeta.filter fun e => old e.1).map (·.1)).foldl (fun s l => visDrop d l s) s) s
        let moves := ((numbered pages).map fun x => (x.2, b + 65536 * x.1)).filter fun m => m.1 != m.2
        let s := moves.foldl (fun s m => copyPage a m.1 m.2 s) s
        let leaf := r.leaf + b
        let s := homeWriteBytes { part := p, key := 0, nc := false } r.entry (leBytes 8 leaf) false s
        let s := shootRange p (va / 65536) 32 (moveHeld p moves s)
        let s := s.modPart p fun x => { x with promo := none }
        let (id, s) := s.takeFree
        postFault p [recWord 4 0, recWord (id % 2 ^ 32) 0xFFFFFFFF, BitVec.ofNat 64 va, recWord 0 0xFFFFFFFF, 0,
          BitVec.ofNat 64 b, BitVec.ofNat 64 r.table, 0] s

/-- PROMOTION_COMPLETE (18 R372). -/
def execPromotionComplete (part : Nat) (s : State) : Host.Outcome State Fault Refusal := .next (completePromotion part s)

/-- A stopped access of a partition: a command of a core, or a route's own. -/
inductive Stopped where
  | cmd (core key : Nat) (p : Park)
  | route (team handle tile : Nat) (p : Park)
  deriving DecidableEq, Repr

def Stopped.park : Stopped → Park | .cmd _ _ p => p | .route _ _ _ p => p

/-- The stopped accesses of a partition. -/
def stoppedOf (s : State) (p : Nat) : List Stopped :=
  let cmds := s.cores.flatMap fun c => c.2.cmds.filterMap fun e => match e.2.park, s.team? e.2.team with
    | some k, some t => if t.part = p then some (Stopped.cmd c.1 e.1 k) else none
    | _, _ => none
  let routes := s.teams.flatMap fun e =>
    if e.2.part = p ∧ e.2.resident then e.2.routes.filterMap fun r => r.2.park.map fun k => Stopped.route e.1 r.1 k.2 k.1 else []
  cmds ++ routes

/-- The place of a stopped access in the order of a RESUME (18 R370, 24 R461). -/
def resumeRank (s : State) (det : Bool) (x : Stopped) : Nat :=
  match det, x with
  | true, .cmd core k _ => match s.cmd? core k with
    | some c => ((core * 2 ^ 32 + (s.team? c.team).elim 0 (·.idx)) * 2 ^ 16 + c.num) * 2 ^ 32 + c.ticket
    | none => 0
  | _, _ => x.park.id

/-- A command whose writes are contributions: CATOM, CPYS with an operation, DRAIN.H with ADD (18 R365). -/
def contributes (x : Command) : Bool :=
  match x.instr with
  | .catom _ => true
  | .cpys _ => bitsAt x.flds.mod 2 4 != 0
  | .drainH _ => bitAt x.flds.x 25
  | _ => false

/-- A stopped command walks again: it resumes at its count, or sends a new record (18 R370). -/
def retryCmd (core k : Nat) (p : Park) (s : State) : State :=
  match s.cmd? core k with
  | none => s
  | some x => match s.team? x.team with
    | none => s
    | some tm =>
      let kind : AccKind := if !p.write then .read else if contributes x then .rmw else .write
      match Machine.access (clusterOf core) tm.part kind none p.va s with
      | (.ok _, s) => unpark core k s
      | (.error f, s) =>
        let (id, s) := nextFaultId core s
        let code := f.kind + 256 * f.level + 2048 * b2n p.write
        let s := postFault tm.part (cmdRecord 1 code id x tm p.va p.ctx) s
        s.modCmd core k fun x => { x with park := some { p with kind := f.kind, level := f.level, id := id } }

/-- A route's stopped access is tried again (18 R370, 27 R507). -/
def retryRoute (team h tile : Nat) (s : State) : State :=
  match routeAt s team h with
  | none => s
  | some (_, r) =>
    let s := s.modTeam team fun v => { v with routes := tput v.routes h { r with park := none } }
    if (r.tile tile).fired then advanceTile team h tile s else fireTile team h tile s

/-- RESUME and FAIL of FAULTRESP (18 R370). -/
def writeFaultResp (p v : Nat) (s : State) : State :=
  let op := bitsAt v 60 4
  if op = 1 then
    if bitsAt v 56 4 != 0 || bitsAt v 0 16 != 0 then s
    else
      let page := bitsAt v 16 40
      let xs := (stoppedOf s p).filter fun x => x.park.va / 65536 == page
      (sortOn (resumeRank s (s.part p).det) xs).foldl (fun s x => match x with
        | .cmd core k q => retryCmd core k q s
        | .route team h tile _ => retryRoute team h tile s) s
  else if op = 2 then
    if bitsAt v 32 28 != 0 then s
    else match (stoppedOf s p).find? fun x => x.park.id == v % 2 ^ 32 with
      | some (.cmd core k _) => failCmd core k 1 s
      | some (.route team h _ _) =>
        failRoute team h (match routeAt s team h with
          | some (_, r) => s.modTeam team fun v => { v with routes := tput v.routes h { r with park := none } }
          | none => s)
      | none => s
  else s

/-- FAULTRESP_RESUME and FAULTRESP_FAIL (18 R370): a write of FAULTRESP with that OP. -/
def execFaultrespResume (part value : Nat) (s : State) : Host.Outcome State Fault Refusal :=
  .next (if part < 12 ∧ bitsAt value 60 4 = 1 then writeFaultResp part (value % 2 ^ 64) s else s)
def execFaultrespFail (part value : Nat) (s : State) : Host.Outcome State Fault Refusal :=
  .next (if part < 12 ∧ bitsAt value 60 4 = 2 then writeFaultResp part (value % 2 ^ 64) s else s)

end Sys2Proof.Machine
end

