-- ==== Sys2Proof/Machine/Debug.lean ====
section
/-! DEFINITION. Tidemarks, placement, and the debug registers' commands (19 R383, 24 R459 to R469). -/

namespace Sys2Proof.Machine

open Sys2Proof

/-- The first grid of a partition whose tidemark is still to be taken (24 R463). -/
def untided (s : State) (p : Nat) : Option Nat := ((gridsOf s p).find? fun e => !e.2.tided).map (·.1)

/-- A tidemark begins: the saves of every resident team are requested (24 R463). -/
def beginTide (p : Nat) (s : State) : State :=
  let v := s.part p
  if v.tiding.isSome || v.hold || v.recovering.isSome then s
  else match untided s p with
    | none => s
    | some k =>
      let s := s.modPart p fun v => { v with tiding := some k, tideSaved := 0 }
      let want (e : Nat × Team) : Bool :=
        e.2.part == p && saveable e.2 && (e.2.state == .live || e.2.state == .turning || !teamOver s e || e.2.cohort != 1)
      let es := s.teams.filter want
      es.foldl (fun s e => s.modTeam e.1 fun t => { t with saveReq := true }) s

/-- The dispatcher's copy of its state at a tidemark (24 R463). -/
def tideCopy (s : State) (p : Nat) : TideCopy :=
  { grids := gridsOf s p,
    teams := s.teams.filter fun e => e.2.part == p && e.2.state == .saved,
    queues := (s.queues.filter fun e => e.2.part == p).map fun e => (e.1, e.2.head, e.2.timer, e.2.prev),
    gridSeq := (s.part p).gridSeq }

/-- The armed stop of a partition is missed (24 R465). -/
def missStop (p : Nat) (s : State) : State :=
  match (s.part p).stop with
  | none => s
  | some (_, num, cnt) =>
    let v := s.part p
    let s := s.modPart p fun v => { v with stop := none }
    postDebug p (dbgWords 20 (2 ^ 31 + v.tide % 2 ^ 31) 0 (dbgThread num (decide (num ≥ 1024))) 0 0 0 0 (s.die 0).clk cnt 0) s

/-- A tidemark ends once no team of the partition is resident: write-back, the copy, the hold and the record (24 R463). -/
def endTide (p : Nat) (s : State) : State :=
  match (s.part p).tiding with
  | none => s
  | some k =>
    if s.teams.any fun e => e.2.part == p && e.2.resident then s
    else
      let s := (List.range 4).foldl (fun s d => (visLinesOf s d p).foldl (fun s l => visWriteBack d l s) s) s
      let v := s.part p
      let n := (v.tide + 1) % 2 ^ 31
      let s := s.modGrid k fun g => { g with tided := true }
      let gid := match s.grid? k with | some g => g.gridId.toNat | none => 0
      let s := s.modPart p fun v => { v with tiding := none, tide := n, hold := true, perturb := false }
      let s := (partCores s p).foldl (fun s c => s.modCore c fun c => { c with sample := [] }) s
      let s : State := { s with tides := tput s.tides p (tideCopy s p) }
      missStop p (postDebug p (dbgWords 21 n 0 0xFFFFFFFF 0 0 0 0 (s.die 0).clk gid v.tideSaved) s)

/-- A tidemark begins or ends, whichever it can. -/
def stepTide (p : Nat) (s : State) : State := endTide p (beginTide p s)

/-- A tidemark can begin or end. -/
def tideDue (s : State) (p : Nat) : Bool :=
  let v := s.part p
  (v.tiding.isNone && !v.hold && v.recovering.isNone && (untided s p).isSome)
    || (v.tiding.isSome && !(s.teams.any fun e => e.2.part == p && e.2.resident))

/-- TEAM_PLACEMENT (19 R383): the dispatcher's next act for the grid, its tidemark first (24 R463). -/
def execTeamPlacement (grid : Nat) (s : State) : Host.Outcome State Fault Refusal :=
  .next (match s.grid? grid with
  | none => s
  | some g =>
    if tideDue s g.part then stepTide g.part s
    else match nextAct s g.part with
      | some (_, _, .resume _ _) | none => s
      | some (k, h, a) => if k = grid then placeAct k h a s else s)

/-- A write that sets a reserved bit of a debug register (24 R459). -/
def dbgReserved (off v : Nat) : Bool :=
  if off = 0x180 then bitsAt v 5 3 != 0 || bitsAt v 13 51 != 0
  else if off = 0x190 then bitsAt v 5 11 != 0
  else if off = 0x1A8 then bitsAt v 48 8 != 0 || bitsAt v 11 5 != 0
  else if 0x1C0 ≤ off ∧ off < 0x1E0 then bitsAt v 1 1 != 0 || bitsAt v 56 8 != 0
  else if 0x1E0 ≤ off ∧ off < 0x220 then
    (if off % 16 = 0 then bitsAt v 1 6 != 0 || bitsAt v 56 8 != 0 else bitsAt v 32 32 != 0)
  else false

/-- A partition has a live grid, or a record that a queue has still to read (24 R459). -/
def partBusy (s : State) (p : Nat) : Bool :=
  !(gridsOf s p).isEmpty || s.queues.any fun e => e.2.en && e.2.part == p && e.2.head != e.2.doorbell

/-- A write of DBGCTL (24 R459). -/
def writeDbgctl (p v : Nat) (s : State) : State :=
  let x := s.part p
  let det := bitAt v 0
  let tide := bitAt v 1
  let moves := det != x.det || tide != bitAt x.dbgctl.toNat 1
  let per := bitsAt v 8 5
  if dbgReserved 0x180 v || (tide && !det) || (moves && partBusy s p) || (bitAt v 3 && (decide (per < 4) || decide (per > 20))) then s
  else s.modPart p fun x => { x with det := det, dbgctl := BitVec.ofNat 64 v }

/-- DBGCTL_WRITE (24 R459). -/
def execDbgctlWrite (part value : Nat) (s : State) : Host.Outcome State Fault Refusal :=
  .next (if part < 12 then writeDbgctl part (value % 2 ^ 64) s else s)

/-- The resident team that DBGTGT names (24 R459). -/
def targetTeam (s : State) (p : Nat) : Option (Nat × Team) :=
  let v := (s.part p).reg 0x1A0
  s.teams.find? fun e => e.2.part == p && e.2.resident && e.2.gridId.toNat == v % 2 ^ 32 && e.2.idx == v / 2 ^ 32

/-- The live thread of the target team that a DBGCMD names. -/
def targetThread (s : State) (p v : Nat) : Option ((Nat × Team) × Nat × Thread) :=
  (targetTeam s p).bind fun e => ((s.threadsOf e.1).find? fun x => x.2.num == v % 2048).map fun x => (e, x)

/-- STATUS of the last DBGCMD. -/
def dbgDone (p st : Nat) (s : State) : State := s.modPart p fun v => { v with dbgStatus := st }

/-- HALT (24 R468). -/
def dbgHalt (p : Nat) (s : State) : State :=
  match targetTeam s p with
  | none => dbgDone p 1 s
  | some (k, _) =>
    let s : State := { s with threads := s.threads.map fun (e : Nat × Thread) =>
      if e.2.team = k ∧ e.2.halted = .none then (e.1, { e.2 with haltNext := true }) else e }
    dbgDone p 0 (s.modTeam k fun t => { t with haltAsked := true })

/-- RESUME (24 R467, R468). -/
def dbgResume (p : Nat) (s : State) : State :=
  match targetTeam s p with
  | none => dbgDone p 1 s
  | some (k, _) =>
    let go (t : Thread) : Thread := { t with pastBreak := t.pastBreak || t.halted == .atBreak, halted := .none }
    dbgDone p 0 { s with threads := s.threads.map fun e =>
      if e.2.team = k ∧ e.2.halted ≠ .none ∧ !e.2.stepping then (e.1, go e.2) else e }

/-- The halted threads of a team at an address that a STEP selects: in each lane the one that R151 orders first (24 R469). -/
def stepSelect (s : State) (team core : Nat) (pc : VAddr) : StepSet :=
  let det := detMode s core
  let ts := (s.threadsOf team).filter fun e => e.2.halted != .none && !e.2.stepping && e.2.conv == .run && e.2.pc == pc
  let ms := (List.range 32).filterMap fun l =>
    (sortOn (fun (x : Nat × Thread) => x.2.rank det) (ts.filter fun x => x.2.lane.toNat == l)).head?
  { team := team, pc := pc, members := ms.map (·.1), mask := ms.foldl (fun m x => m + 2 ^ x.2.lane.toNat) 0 }

/-- A selection put in line on its core. -/
def addStep (core : Nat) (x : StepSet) (s : State) : State :=
  let s := x.members.foldl (fun s k => s.modThread k fun t => { t with stepping := true }) s
  s.modCore core fun c => { c with stepSets := c.stepSets ++ [x] }

/-- STEP (24 R469). -/
def dbgStep (p v : Nat) (s : State) : State :=
  match targetThread s p v with
  | none => dbgDone p 1 s
  | some ((k, tm), _, t) =>
    let mode := bitsAt v 56 4
    if mode > 1 then s
    else if t.halted == .none || t.stepping then dbgDone p 2 s
    else if mode = 0 then dbgDone p 0 (addStep tm.core (stepSelect s k tm.core t.pc) s)
    else
      let ts := (s.threadsOf k).filter fun e => e.2.halted != .none && !e.2.stepping && e.2.conv == .run
      let pcs := ts.foldl (fun l e => nadd l e.2.pc.toNat) []
      dbgDone p 0 (pcs.foldl (fun s a => addStep tm.core (stepSelect s k tm.core (BitVec.ofNat 56 a)) s) s)

/-- GO (24 R463, R465, R468). -/
def dbgGo (p : Nat) (s : State) : State :=
  let v := s.part p
  if !v.hold then dbgDone p 2 s
  else
    let s := s.modPart p fun v => { v with hold := false }
    dbgDone p 0 s

/-- A partition's grids are killed without records, it is reset, and the dispatcher's state is as at the tidemark (24 R464). -/
def rollBack (p : Nat) (c : TideCopy) (s : State) : State :=
  let s := (gridsOf s p).foldl (fun s e => killGrid e.1 none s) s
  let s := resetPartition p s
  let s : State := { s with grids := c.grids.foldl (fun m e => tput m e.1 e.2) s.grids,
                            teams := c.teams.foldl (fun m e => tput m e.1 e.2) (s.teams.filter fun (e : Nat × Team) => e.2.part != p) }
  let s := c.queues.foldl (fun s q => s.modQueue q.1 fun v => { v with head := q.2.1, timer := q.2.2.1, prev := q.2.2.2 }) s
  s.modPart p fun v => { v with gridSeq := c.gridSeq, hold := true, tiding := none }

/-- ROLLBACK (24 R464). -/
def dbgRollback (p v : Nat) (s : State) : State :=
  let x := s.part p
  match tideMode s p && bitsAt v 16 32 == x.tide, tfind s.tides p with
  | true, some c => dbgDone p 0 (rollBack p c s)
  | _, _ => dbgDone p 2 s

/-- ARMSTOP (24 R465). -/
def dbgArm (p v : Nat) (s : State) : State :=
  match targetThread s p v with
  | none => dbgDone p 1 s
  | some (_, k, t) => dbgDone p 0 (s.modPart p fun x => { x with stop := some (k, t.num, x.reg 0x1B8) })

/-- A write of DBGCMD (24 R459, R468). -/
def writeDbgcmd (p v : Nat) (s : State) : State :=
  let op := bitsAt v 60 4
  if dbgReserved 0x1A8 v || op = 0 || op > 6 then s
  else if recovering s p then dbgDone p 3 s
  else match op with
    | 1 => dbgHalt p s
    | 2 => dbgResume p s
    | 3 => dbgStep p v s
    | 4 => dbgGo p s
    | 5 => dbgRollback p v s
    | _ => dbgArm p v s

/-- A write of DBGCMD with a given OP. -/
def dbgEvent (op part value : Nat) (s : State) : State :=
  if part < 12 ∧ bitsAt value 60 4 = op then writeDbgcmd part (value % 2 ^ 64) s else s

/-- DBGCMD with OP 1 to 6 (24 R465, R468, R469). -/
def execDbgcmdHalt (part value : Nat) (s : State) : Host.Outcome State Fault Refusal := .next (dbgEvent 1 part value s)
def execDbgcmdResume (part value : Nat) (s : State) : Host.Outcome State Fault Refusal := .next (dbgEvent 2 part value s)
def execDbgcmdStep (part value : Nat) (s : State) : Host.Outcome State Fault Refusal := .next (dbgEvent 3 part value s)
def execDbgcmdGo (part value : Nat) (s : State) : Host.Outcome State Fault Refusal := .next (dbgEvent 4 part value s)
def execDbgcmdRollback (part value : Nat) (s : State) : Host.Outcome State Fault Refusal := .next (dbgEvent 5 part value s)
def execDbgcmdArmstop (part value : Nat) (s : State) : Host.Outcome State Fault Refusal := .next (dbgEvent 6 part value s)

end Sys2Proof.Machine
end

