-- ==== Sys2Proof/Machine/Errors.lean ====
section
/-! DEFINITION. Detected hardware errors of storage and of shared structures, and what a lasting one withdraws (00 R5, 13 R307
to R311, 15 R334, 23 R442 to R444). -/

namespace Sys2Proof.Machine

open Sys2Proof

/-- A lasting error of a core's storage: its record, and the core is withdrawn once its teams have ended (13 R307, 23 R443). -/
def storageError (core source addr : Nat) (s : State) : State := coreError core source 512 addr (withdrawCore core s)

/-- A word of a team's register storage is poisoned (13 R309). -/
def poisonRegister (thread reg : Nat) (s : State) : State :=
  match s.thread? thread with
  | none => s
  | some t =>
    if reg ≥ t.nregs ∨ reg ≥ 255 then s
    else storageError t.core 5 (4 * reg) (s.putThread thread { t with poison := nadd t.poison reg })

/-- A handle entry's valid bit is cleared (13 R311). -/
def loseHandle (core entry : Nat) (s : State) : State :=
  let c := s.core core
  let h := handlesPer c
  let s := match s.teams.find? fun e => e.2.core == core && e.2.slot == entry / h && e.2.resident with
    | some (k, _) => dropRoute k (entry % h) s
    | none => s
  storageError core 8 entry (s.modCore core fun c =>
    { c with handles := tput c.handles entry { tget c.handles entry {} with valid := false } })

/-- A task entry that is not FREE becomes POISONED, and the chain of its NOTIFY with it (19 R396). -/
def poisonChain (tm : Team) : Nat → Nat → State → State
  | 0, _, s => s
  | n + 1, i, s =>
    let e := taskEntry s tm i
    if e.state = 0 ∨ e.state = 4 then s
    else
      let s := putTask tm i { e with state := 4 } s
      match validTask s tm e.notify with
      | some (j, _) => poisonChain tm n j s
      | none => s

/-- An error of a task entry: the chain is poisoned and reported (13 R311, 19 R396). -/
def loseTask (core entry : Nat) (s : State) : State :=
  let e := tasksPer (s.core core)
  let s := storageError core 9 entry s
  match s.teams.find? fun x => x.2.core == core && x.2.slot == entry / e && x.2.resident with
  | none => s
  | some (_, tm) =>
    let i := entry % e
    let x := taskEntry s tm i
    if x.state = 0 then s
    else
      let s := poisonChain tm 512 i s
      let (id, s) := nextFaultId core s
      postFault tm.part [recWord 5 0, recWord id 0xFFFFFFFF, BitVec.ofNat 64 (taskId x.gen i), recWord 0 0xFFFFFFFF,
        recWord tm.gridId.toNat tm.idx, 0, 0, 0] s

/-- An error of a line held in a slice of die `d`: counted, and a lasting one reported, its way disabled (23 R442, R444, R445). -/
def slicePosted (d line : Nat) (lasting : Bool) (s : State) : State :=
  let s := perturb (partOfPa s (128 * line)) (s.bumpDie d 0xB0 1)
  if !lasting then s
  else
    let s := s.bumpDie d 0xC0 1
    match partOfPa s (128 * line) with
    | some p => postFault p (hwErrorWords 2 256 (d * 2 ^ 30) (128 * line) 0 0) s
    | none => s

/-- A line of a home slice whose error persists is dropped and read again, or poisoned where it was modified (23 R442). -/
def sliceError (line : Nat) (lasting : Bool) (s : State) : State :=
  match tfind s.dev.homeMeta line with
  | none => s
  | some h =>
    let s := slicePosted (homeDie (128 * line)) line lasting s
    if !lasting then s else if h.mod then putHomeMeta line { h with poison := true } s else homeEvict line s

/-- The same of a visitor line: its DIRTY bytes stand nowhere else, so that DIRTY is its MOD (17 R344, 23 R442; log 124). -/
def visitorError (d line : Nat) (lasting : Bool) (s : State) : State :=
  match visMetaOf s d line with
  | none => s
  | some v =>
    let s := slicePosted d line lasting s
    if !lasting then s
    else if v.dirty = 0 then visDrop d line s
    else s.modDie d fun x => { x with visMeta := tput x.visMeta line { v with poison := true } }

/-- A lasting error of a cluster's barrier unit: cohorts that wait at a BARC are killed and the cluster is withdrawn (15 R334). -/
def barrierError (cl : Nat) (s : State) : State :=
  let waits (e : Nat × Team) : Bool :=
    clusterOf e.2.core == cl && e.2.resident && (s.threadsOf e.1).any fun t => t.2.conv == .heldBarc
  let ts := s.teams.filter waits
  let mates := s.teams.filter fun e => e.2.resident && ts.any fun t => t.2.grid == e.2.grid && t.2.idx / t.2.cohort == e.2.idx / e.2.cohort
  let s := mates.foldl (fun s e => killTeam e.1 s) s
  let s := match partOfCluster s cl with
    | some p => postFault p (hwErrorWords 12 (256 + 512 + 1024) (faultLoc (64 * cl)) 0 0 0) s
    | none => s
  withdrawCluster cl s

/-- A lasting error of a grid-table entry: the grid is killed (23 R442). -/
def gridError (grid : Nat) (s : State) : State :=
  match s.grid? grid with
  | some g => killGrid grid (some 9) (postFault g.part (hwErrorWords 14 256 0 g.entryNo g.gridId.toNat 0) s)
  | none => s

/-- The partition whose timing the retry of an error changes (24 R461). -/
def HwErr.part (e : HwErr) (s : State) : Option Nat :=
  match e with
  | .register t _ => (s.thread? t).bind fun t => partOfCore s t.core
  | .pool c _ | .bank c _ | .handle c _ | .task c _ | .gather c _ | .tileWord c _ _ => partOfCore s c
  | .tlb c _ | .reverseMap c | .peer c | .barrier c => partOfCluster s c
  | .gridEntry g => (s.grid? g).map (·.part)
  | .slice _ | .visitor _ _ | .sector _ _ => none

/-- A detected error takes effect (00 R5). -/
def meetError (e : HwErr) (lasting : Bool) (s : State) : State :=
  let s := perturb (e.part s) s
  match e with
  | .register t r => if lasting then poisonRegister t r s else s
  | .pool c w => if lasting then storageError c 6 (8 * w) (poolPoison c (8 * w) 8 s) else s
  | .bank c w =>
    if lasting then storageError c 7 (4 * w) (s.modCore c fun v => { v with bankPoison := nadd v.bankPoison w }) else s
  | .handle c i => if lasting then loseHandle c i s else s
  | .task c i => if lasting then loseTask c i s else s
  | .slice l => sliceError l lasting s
  | .visitor d l => visitorError d l lasting s
  | .gather c v => if lasting then gcForget c (fun b => b.vline == v) s else s
  | .tlb c p => if lasting then s.modCluster c fun v => { v with tlb := tdel v.tlb p } else s
  | .reverseMap c => if lasting then (coresOfCluster s c).foldl (fun s k => gcForget k (fun _ => true) s) s else s
  | .peer c => s.modCluster c fun v => { v with netErr := if lasting then 2 else 1 }
  | .barrier c => if lasting then barrierError c s else s
  | .gridEntry g => if lasting then gridError g s else s
  | .sector n k => { s with dev := { s.dev with sectorErr := if k = 0 then tdel s.dev.sectorErr n else tput s.dev.sectorErr n k } }
  | .tileWord c w k => s.modCore c fun v => { v with tileErr := if k = 0 then tdel v.tileErr w else tput v.tileErr w k }

/-- A withdrawn core whose teams have ended is scrubbed and unconfigured (23 R443). -/
def gateWithdrawn (die : Nat) (s : State) : State :=
  ((tkeys s.cores).filter fun c => dieOf c == die && (s.core c).withdrawn && (s.core c).cfg.slots != 0 && coreEmpty s c).foldl
    (fun s c => (clearCore c s).modCore c fun v => { v with cfg := {}, grid := none, loading := false }) s

/-- The die links: 0 to 3 around the ring, 4 to 7 to the I/O die (23 R433). A die has a route while one of its links is up. -/
def isolated (s : State) (d : Nat) : Bool :=
  let down (k : Nat) : Bool := s.pkg.linksDown.contains k
  down d && down ((d + 3) % 4) && down (4 + d)

/-- The partitions that own a cluster of an isolated die lose their grids, and the clusters are withdrawn (23 R434). -/
def cutDie (d : Nat) (s : State) : State :=
  let mine (p : Nat) : Bool := (s.part p).exist && (List.range 3).any fun c => (s.part p).clusters.getLsbD (3 * d + c)
  let ps := (List.range 12).filter mine
  let s := ps.foldl (fun s p => (gridsOf s p).foldl (fun s e => killGrid e.1 (some 0) s) s) s
  (List.range 3).foldl (fun s c => if (partOfCluster s (3 * d + c)).isSome then withdrawCluster (3 * d + c) s else s) s

/-- A link goes down until package reset (23 R434, R442, R444). -/
def downLink (k : Nat) (s : State) : State :=
  let was := (List.range 4).map (isolated s)
  let s : State := { s with pkg := { s.pkg with linksDown := nadd s.pkg.linksDown k } }
  (List.range 4).foldl (fun s d => if isolated s d && !was.getD d true then cutDie d s else s) s

/-- LINK_CRC_FAILURE (23 R434): the flit is sent again once; a second failure takes the link down. -/
def execLinkCrcFailure (link toDie : Nat) (resendFails : Bool) (s : State) : Host.Outcome State Fault Refusal :=
  .next (
    if link ≥ 8 || s.pkg.linksDown.contains link then s
    else
      let parts := (List.range 12).filter fun p => (s.part p).exist
      let s := if toDie < 4 then s.bumpDie toDie 0xB8 1 else s
      let s := parts.foldl (fun s p => perturb (some p) s) s
      if !resendFails then s
      else
        let s := parts.foldl (fun s p => postFault p (hwErrorWords 13 (256 + 2048) (toDie % 4 * 2 ^ 30) link 0 0) s) s
        downLink link s)

end Sys2Proof.Machine
end

