-- ==== Sys2Proof/Machine/Keccak.lean ====
section
/-! DEFINITION. The hash functions that the manual names: SHA3-256, SHAKE128, SHAKE256 (FIPS 202) and KMAC256 (NIST SP 800-185)
(23 R435, R451 to R454; log 10). -/

namespace Sys2Proof.Machine

open Sys2Proof

/-- The round constants of Keccak-f[1600]. -/
def keccakConsts : List DWord :=
  [0x0000000000000001, 0x0000000000008082, 0x800000000000808A, 0x8000000080008000, 0x000000000000808B, 0x0000000080000001]
  ++ [0x8000000080008081, 0x8000000000008009, 0x000000000000008A, 0x0000000000000088, 0x0000000080008009, 0x000000008000000A]
  ++ [0x000000008000808B, 0x800000000000008B, 0x8000000000008089, 0x8000000000008003, 0x8000000000008002, 0x8000000000000080]
  ++ [0x000000000000800A, 0x800000008000000A, 0x8000000080008081, 0x8000000000008080, 0x0000000080000001, 0x8000000080008008]

/-- The rotation of lane `x + 5 y`. -/
def keccakTurns : List Nat :=
  [0, 1, 62, 28, 27] ++ [36, 44, 6, 55, 20] ++ [3, 10, 43, 25, 39] ++ [41, 45, 15, 21, 8] ++ [18, 2, 61, 56, 14]

/-- One round: theta, rho, pi, chi and iota on the lanes `x + 5 y`. -/
def keccakRound (a : List DWord) (rc : DWord) : List DWord :=
  let at' (l : List DWord) (i : Nat) : DWord := l.getD i 0
  let c := (List.range 5).map fun x => at' a x ^^^ at' a (x + 5) ^^^ at' a (x + 10) ^^^ at' a (x + 15) ^^^ at' a (x + 20)
  let d := (List.range 5).map fun x => at' c ((x + 4) % 5) ^^^ (at' c ((x + 1) % 5)).rotateLeft 1
  let turned := (List.range 25).map fun i => (at' a i ^^^ at' d (i % 5)).rotateLeft (keccakTurns.getD i 0)
  let b := (List.range 25).map fun i => at' turned ((i % 5 + 3 * (i / 5)) % 5 + 5 * (i % 5))
  (List.range 25).map fun i =>
    let row := 5 * (i / 5)
    let v := at' b i ^^^ (~~~(at' b (row + (i + 1) % 5)) &&& at' b (row + (i + 2) % 5))
    if i = 0 then v ^^^ rc else v

/-- The permutation of 25 lanes. -/
def keccakF (a : List DWord) : List DWord := keccakConsts.foldl keccakRound a

/-- The lanes of a string of bytes, the first byte lowest. -/
def lanesOf : Nat → List Byte → List DWord
  | 0, _ => []
  | n + 1, bs => BitVec.ofNat 64 (leNat (bs.take 8)) :: lanesOf n (bs.drop 8)

/-- Blocks of `rate` bytes are absorbed. -/
def absorb (rate : Nat) : Nat → List Byte → List DWord → List DWord
  | 0, _, a => a
  | n + 1, bs, a => absorb rate n (bs.drop rate) (keccakF ((a.zip (lanesOf 25 (bs.take rate))).map fun e => e.1 ^^^ e.2))

/-- Blocks of `rate` bytes are squeezed. -/
def squeeze (rate : Nat) : Nat → List DWord → List Byte
  | 0, _ => []
  | n + 1, a => (a.flatMap fun w => leBytes 8 w.toNat).take rate ++ squeeze rate n (keccakF a)

/-- The sponge: a message, its domain's bits with the first bit of the padding, and the last bit (FIPS 202). -/
def sponge (rate domain : Nat) (text : List Byte) (out : Nat) : List Byte :=
  let n := text.length / rate + 1
  let last := text.length + 1
  let padded :=
    if n * rate = last then text ++ [BitVec.ofNat 8 (domain + 128)]
    else text ++ [BitVec.ofNat 8 domain] ++ List.replicate (n * rate - last - 1) 0 ++ [128]
  (squeeze rate (out / rate + 1) (absorb rate n padded (List.replicate 25 0))).take out

/-- SHA3-256, the number of its 32 bytes. -/
def sha3 (text : List Byte) : BitVec 256 := BitVec.ofNat 256 (leNat (sponge 136 0x06 text 32))
/-- SHAKE128 and SHAKE256. -/
def shake128 (text : List Byte) (out : Nat) : List Byte := sponge 168 0x1F text out
def shake256 (text : List Byte) (out : Nat) : List Byte := sponge 136 0x1F text out

/-- The bytes of a number, the highest first, at least one (NIST SP 800-185). -/
def lengthBytes (n : Nat) : List Byte :=
  let k := max 1 ((Nat.log2 n + 8) / 8)
  (leBytes k n).reverse
/-- left_encode, right_encode and encode_string. -/
def leftEncode (n : Nat) : List Byte := BitVec.ofNat 8 (lengthBytes n).length :: lengthBytes n
def rightEncode (n : Nat) : List Byte := lengthBytes n ++ [BitVec.ofNat 8 (lengthBytes n).length]
def encodeString (bs : List Byte) : List Byte := leftEncode (8 * bs.length) ++ bs
/-- bytepad. -/
def bytePad (bs : List Byte) (w : Nat) : List Byte :=
  let l := leftEncode w ++ bs
  l ++ List.replicate ((w - l.length % w) % w) 0

/-- The bytes of a name in ASCII. -/
def ascii (t : String) : List Byte := t.toList.map fun c => BitVec.ofNat 8 c.toNat

/-- KMAC256 of 256 output bits with customization RA960-MGMT, keyed by a 256-bit key (23 R435). -/
def kmac (key : BitVec 256) (text : List Byte) : BitVec 256 :=
  let body := bytePad (encodeString (leBytes 32 key.toNat)) 136 ++ text ++ rightEncode 256
  BitVec.ofNat 256
    (leNat (sponge 136 0x04 (bytePad (encodeString (ascii "KMAC") ++ encodeString (ascii "RA960-MGMT")) 136 ++ body) 32))

end Sys2Proof.Machine
end

