-- ==== Sys2Proof/Machine/Mldsa.lean ====
section
/-! DEFINITION. ML-DSA-44 (FIPS 204): key generation, signatures and their verification (23 R451 to R454; log 10). A polynomial is
the list of its 256 coefficients modulo q. -/

namespace Sys2Proof.Machine

open Sys2Proof

/-- A polynomial of degree below 256, its coefficients modulo q. -/
abbrev Poly := List Nat

/-- The modulus q, and γ_2. -/
def dsaQ : Nat := 8380417
def dsaGamma2 : Nat := 95232

/-- Sums and differences modulo q, coefficient by coefficient, and the product of two transforms. -/
def polyAdd (x y : Poly) : Poly := (x.zip y).map fun e => (e.1 + e.2) % dsaQ
def polySub (x y : Poly) : Poly := (x.zip y).map fun e => (e.1 + dsaQ - e.2) % dsaQ
def polyMul (x y : Poly) : Poly := (x.zip y).map fun e => e.1 * e.2 % dsaQ
/-- A polynomial times a number. -/
def polyScale (c : Nat) (x : Poly) : Poly := x.map fun v => c * v % dsaQ

/-- The low 8 bits of a number in reverse order. -/
def brv8 (m : Nat) : Nat := (List.range 8).foldl (fun n i => n + 2 ^ (7 - i) * bitsAt m i 1) 0

/-- Powers modulo q, by the bits of the exponent. -/
def powQ (b : Nat) : Nat → Nat → Nat
  | 0, _ => 1
  | n + 1, e => let h := powQ (b * b % dsaQ) n (e / 2); if e % 2 = 1 then h * b % dsaQ else h

/-- The root of unity of node `m` of the transform's tree, and its inverse. -/
def zetaOf (m : Nat) : Nat := powQ 1753 10 (brv8 m)
def unzetaOf (m : Nat) : Nat := powQ 1753 10 (512 - brv8 m)

/-- The number-theoretic transform of the `2^n` coefficients below node `m`, and its inverse but for the factor of `2^n`. -/
def nttAt : Nat → Nat → Poly → Poly
  | 0, _, w => w
  | n + 1, m, w =>
    let lo := w.take (2 ^ n)
    let t := polyScale (zetaOf m) (w.drop (2 ^ n))
    nttAt n (2 * m) (polyAdd lo t) ++ nttAt n (2 * m + 1) (polySub lo t)
def unnttAt : Nat → Nat → Poly → Poly
  | 0, _, w => w
  | n + 1, m, w =>
    let a := unnttAt n (2 * m) (w.take (2 ^ n))
    let b := unnttAt n (2 * m + 1) (w.drop (2 ^ n))
    polyAdd a b ++ polyScale (unzetaOf m) (polySub a b)
/-- The transform of a polynomial, and its inverse. -/
def ntt (w : Poly) : Poly := nttAt 8 1 w
def unntt (w : Poly) : Poly := polyScale 8347681 (unnttAt 8 1 w)

/-- A matrix times a vector, both transformed. -/
def matMul (a : List (List Poly)) (v : List Poly) : List Poly :=
  a.map fun row => (row.zip v).foldl (fun t e => polyAdd t (polyMul e.1 e.2)) (List.replicate 256 0)

/-- The residue of a number modulo `m` nearest to 0. -/
def centred (m x : Nat) : Int := if x % m > m / 2 then (x % m : Int) - m else (x % m : Int)
/-- The greatest absolute value of a coefficient. -/
def polyNorm (x : Poly) : Nat := x.foldl (fun n v => max n (centred dsaQ v).natAbs) 0

/-- Coefficients of `n` bits each packed into bytes, and unpacked. -/
def packBits (n : Nat) (x : Poly) : List Byte := leBytes (32 * n) (x.foldr (fun v r => v + 2 ^ n * r) 0)
def unpackBits (n : Nat) (bs : List Byte) : Poly :=
  let v := leNat bs
  (List.range 256).map fun i => bitsAt v (n * i) n

/-- The rejection sampling of a polynomial below q (RejNTTPoly): a string of 1,344 bytes holds 448 candidates. -/
def rejNtt (seed : List Byte) : Poly :=
  let bs := shake128 seed 1344
  let cs := (List.range 448).map fun i =>
    let g (k : Nat) : Nat := (bs.getD (3 * i + k) 0).toNat
    g 0 + 2 ^ 8 * g 1 + 2 ^ 16 * (g 2 % 128)
  (cs.filter fun c => decide (c < dsaQ)).take 256

/-- The rejection sampling of a polynomial of coefficients -2 to 2 (RejBoundedPoly): 544 bytes hold 1,088 candidates. -/
def rejBounded (seed : List Byte) : Poly :=
  let cs := (shake256 seed 544).flatMap fun b => [b.toNat % 16, b.toNat / 16]
  ((cs.filter (· < 15)).take 256).map fun b => (dsaQ + 2 - b % 5) % dsaQ

/-- ExpandA: the matrix, transformed. -/
def expandA (rho : List Byte) : List (List Poly) :=
  (List.range 4).map fun r => (List.range 4).map fun s => rejNtt (rho ++ [BitVec.ofNat 8 s, BitVec.ofNat 8 r])

/-- A secret key: rho, K, tr, and the vectors s1, s2 and t0. -/
structure DsaKey where
  rho : List Byte
  k : List Byte
  tr : List Byte
  s1 : List Poly
  s2 : List Poly
  t0 : List Poly

/-- ML-DSA.KeyGen_internal: the public key of 1,312 bytes and the secret key. -/
def dsaKeyGen (xi : List Byte) : List Byte × DsaKey :=
  let h := shake256 (xi ++ [4, 4]) 128
  let rho := h.take 32
  let small (i : Nat) : Poly := rejBounded ((h.drop 32).take 64 ++ leBytes 2 i)
  let s1 := (List.range 4).map small
  let s2 := (List.range 4).map fun i => small (i + 4)
  let t := ((matMul (expandA rho) (s1.map ntt)).zip s2).map fun e => polyAdd (unntt e.1) e.2
  let t0 := t.map fun p => p.map fun (v : Nat) => (centred (2 ^ 13) v % (dsaQ : Int)).toNat
  let t1 := t.map fun p => p.map fun (v : Nat) => ((v : Int) - centred (2 ^ 13) v).toNat / 2 ^ 13
  let pk := rho ++ t1.flatMap (packBits 10)
  (pk, { rho := rho, k := h.drop 96, tr := shake256 pk 64, s1 := s1, s2 := s2, t0 := t0 })

/-- Decompose: the high part and the low part of a coefficient. -/
def decompose (r : Nat) : Nat × Int :=
  let r0 := centred (2 * dsaGamma2) (r % dsaQ)
  let hi := ((r % dsaQ : Nat) : Int) - r0
  if hi = (dsaQ : Int) - 1 then (0, r0 - 1) else (hi.toNat / (2 * dsaGamma2), r0)

/-- w1Encode of the high parts of a vector. -/
def encodeHigh (w : List Poly) : List Byte := w.flatMap (packBits 6)

/-- SampleInBall: 39 coefficients of 1 or -1, from a string of 272 bytes; `i` is the next place to fill. -/
def ballFrom (signs : Nat) : Nat → Nat → List Byte → Poly → Poly
  | 0, _, _, c => c
  | _ + 1, _, [], c => c
  | n + 1, i, b :: r, c =>
    if i ≥ 256 then c
    else if b.toNat > i then ballFrom signs n i r c
    else
      let sign := if bitAt signs (i - 217) then dsaQ - 1 else 1
      ballFrom signs n (i + 1) r ((c.set i (c.getD b.toNat 0)).set b.toNat sign)
def sampleInBall (seed : List Byte) : Poly :=
  let bs := shake256 seed 272
  ballFrom (leNat (bs.take 8)) 264 217 (bs.drop 8) (List.replicate 256 0)

/-- The message representative of a message signed with an empty context. -/
def dsaMu (tr text : List Byte) : List Byte := shake256 (tr ++ [0, 0] ++ text) 64

/-- HintBitPack of a vector of hints. -/
def packHints (h : List (List Bool)) : List Byte :=
  let at' (p : List Bool) : List Nat := (List.range 256).filter fun j => p.getD j false
  let ps := (h.map at').flatMap id
  let ends := (List.range 4).map fun i => (((h.take (i + 1)).map at').flatMap id).length
  (ps ++ List.replicate (80 - ps.length) 0 ++ ends).map (BitVec.ofNat 8)

/-- Numbers rise strictly. -/
def risesStrictly : List Nat → Bool
  | a :: b :: r => decide (a < b) && risesStrictly (b :: r)
  | _ => true

/-- HintBitUnpack: none where the string is no packing. -/
def unpackHints (bs : List Byte) : Option (List (List Bool)) :=
  let v := bs.map (·.toNat)
  let ends := v.drop 80
  let start (i : Nat) : Nat := if i = 0 then 0 else ends.getD (i - 1) 0
  let part (i : Nat) : List Nat := (v.drop (start i)).take (ends.getD i 0 - start i)
  let ok := (List.range 4).all fun i =>
    decide (start i ≤ ends.getD i 0) && decide (ends.getD i 0 ≤ 80) && risesStrictly (part i)
  if ok && ((v.take 80).drop (ends.getD 3 0)).all (· == 0) then
    some ((List.range 4).map fun i => (List.range 256).map fun j => (part i).contains j)
  else none

/-- A vector of coefficients 1 - γ_1 to γ_1 packed (BitPack), and unpacked. -/
def packZ (z : List Poly) : List Byte := z.flatMap fun p => packBits 18 (p.map fun v => (2 ^ 17 + dsaQ - v) % dsaQ)
def unpackZ (bs : List Byte) : Poly := (unpackBits 18 bs).map fun v => (2 ^ 17 + dsaQ - v) % dsaQ

/-- One attempt at a signature, with the counter κ: none where it is rejected. -/
def dsaTry (sk : DsaKey) (a : List (List Poly)) (mu rr : List Byte) (kappa : Nat) : Option (List Byte) :=
  let y := (List.range 4).map fun r => unpackZ (shake256 (rr ++ leBytes 2 (kappa + r)) 576)
  let w := (matMul a (y.map ntt)).map unntt
  let ct := shake256 (mu ++ encodeHigh (w.map fun p => p.map fun v => (decompose v).1)) 32
  let c := ntt (sampleInBall ct)
  let by' (v : List Poly) : List Poly := v.map fun p => unntt (polyMul c (ntt p))
  let z := (y.zip (by' sk.s1)).map fun e => polyAdd e.1 e.2
  let r := (w.zip (by' sk.s2)).map fun e => polySub e.1 e.2
  let c0 := by' sk.t0
  let hints := (r.zip c0).map fun e =>
    (e.1.zip e.2).map fun x => (decompose (x.1 + x.2)).1 != (decompose x.1).1
  let count : Nat := (hints.map fun p => (p.filter id).length).foldl (· + ·) 0
  let low := r.foldl (fun n p => p.foldl (fun n v => max n (decompose v).2.natAbs) n) 0
  let bad := z.any (fun p => decide (polyNorm p ≥ 2 ^ 17 - 78)) || decide (low ≥ dsaGamma2 - 78)
    || c0.any (fun p => decide (polyNorm p ≥ dsaGamma2)) || decide (count > 80)
  if bad then none else some (ct ++ packZ z ++ packHints hints)

/-- Attempts until one is accepted; 814 of them fail with a probability below 2^-256. -/
def dsaTries (sk : DsaKey) (a : List (List Poly)) (mu rr : List Byte) : Nat → Nat → List Byte
  | 0, _ => List.replicate 2420 0
  | n + 1, kappa => match dsaTry sk a mu rr kappa with
    | some s => s
    | none => dsaTries sk a mu rr n (kappa + 4)

/-- ML-DSA.Sign with an empty context, on 32 bytes of randomness: 2,420 bytes. -/
def dsaSign (sk : DsaKey) (text rnd : List Byte) : List Byte :=
  let mu := dsaMu sk.tr text
  dsaTries sk (expandA sk.rho) mu (shake256 (sk.k ++ rnd ++ mu) 64) 814 0

/-- UseHint: the high part of a coefficient, corrected. -/
def useHint (h : Bool) (r : Nat) : Nat :=
  let (r1, r0) := decompose r
  if !h then r1 else if r0 > 0 then (r1 + 1) % 44 else (r1 + 43) % 44

/-- ML-DSA.Verify with an empty context. -/
def dsaVerify (pk text sig : List Byte) : Bool :=
  let t1 := (List.range 4).map fun i => unpackBits 10 (((pk.drop 32).drop (320 * i)).take 320)
  let ct := sig.take 32
  let z := (List.range 4).map fun i => unpackZ (((sig.drop 32).drop (576 * i)).take 576)
  match unpackHints (sig.drop 2336) with
  | none => false
  | some h =>
    let c := ntt (sampleInBall ct)
    let w := ((matMul (expandA (pk.take 32)) (z.map ntt)).zip t1).map fun e =>
      unntt (polySub e.1 (polyMul c (ntt (polyScale (2 ^ 13) e.2))))
    let w1 := (w.zip h).map fun e => (e.1.zip e.2).map fun x => useHint x.2 x.1
    sig.length == 2420 && z.all (fun p => decide (polyNorm p < 2 ^ 17 - 78))
      && ct == shake256 (dsaMu (shake256 pk 64) text ++ encodeHigh w1) 32

end Sys2Proof.Machine
end

