-- ==== Sys2Proof/Machine/Pkg.lean ====
section
/-! DEFINITION. Partitions, their memory and keys, the package's reset and boot, firmware banks and attestation reports (23 R437
to R441, R451 to R454), and what becomes of a connection in error (26 R486, R492). -/

namespace Sys2Proof.Machine

open Sys2Proof

/-- The package registers changed. -/
def State.modPkg (s : State) (f : Pkg → Pkg) : State := { s with pkg := f s.pkg }

/-- What a command's message was for ends with its connection or its NAK: the command stops at its count with kind WINDOW, or
fails at once where the message was an atomic or a LAND write; a route fails (26 R492, 27 R507). -/
def loseMsg (m : Msg) (s : State) : State :=
  let level (p : Nat) (s : State) : Nat × State := match walk 0 p m.va s with | (.ok e, s) => (e.level, s) | (.error f, s) => (f.level, s)
  let count (core : Nat) (s : State) : State := match m.grid with | some g => countRecv g (dieOf core) s | none => s
  match m.what with
  | .record _ _ => s
  | .command core k _ => match cmdEnv s core k with
    | none => count core s
    | some e =>
      let (l, s) := level e.part (count core s)
      if m.op = 0 ∨ m.op = 2 then
        parkCmd core k m.va 7 l (m.op == 0) (s.modCmd core k fun x => { x with waiting := false, got := [] })
      else failAtOnce core k 7 m.va l true 1 (s.modCmd core k fun x => { x with waiting := false })
  | .route team h => match routeAt s team h with
    | none => s
    | some (tm, _) =>
      let (l, s) := level tm.part (count tm.core s)
      let (id, s) := nextFaultId tm.core s
      let x := (routeEnv s team tm).x
      failRoute team h (postFault tm.part (cmdRecord 1 (7 + 256 * l + 2048) id x tm m.va 17) s)

/-- The messages of one owner lost together: the first stands for the command's or route's others. -/
def loseMsgs : List Msg → List MsgFor → State → State
  | [], _, s => s
  | m :: r, seen, s => if seen.contains m.what then loseMsgs r seen (match m.what, m.grid with
      | .command core _ _, some g => countRecv g (dieOf core) s
      | .route team _, some g => (match s.team? team with | some tm => countRecv g (dieOf tm.core) s | none => s)
      | _, _ => s)
    else loseMsgs r (m.what :: seen) (loseMsg m s)

/-- A message that carries a record. -/
def Msg.isRecord (m : Msg) : Bool := match m.what with | .record _ _ => true | _ => false

/-- A connection stops: its records wait, and what its other requests were for ends (26 R486, R492). -/
def stopConn (k : Nat) (s : State) : State :=
  let c := s.conn k
  let lost := c.queue.filter fun m => !m.isRecord
  loseMsgs lost [] (s.putConn k { c with queue := c.queue.filter Msg.isRecord, retries := 0, since := s.pkg.us })

/-- A connection enters error (26 R486). -/
def errorConn (k : Nat) (s : State) : State :=
  if !(s.conn k).up then s else stopConn k (s.modConn k fun c => { c with ctx := c.ctx ||| 2 ^ 62 })

/-- Lines of a block of device memory written whole with zero and stored with their TAG: the scrub of a released block (23
R439). -/
def scrubBlock (p k : Nat) (s : State) : State :=
  let base := k / 192 * 2 ^ 38 + k % 192 * 2 ^ 30
  let first := base / 128
  let n := 2 ^ 23
  let out {α : Type} (t : Table α) : Table α := tclear t first n
  let s := (tkeys s.dies).foldl (fun s d => s.modDie d fun v =>
    { v with vis := mzero v.vis base (2 ^ 30), visMeta := out v.visMeta }) s
  let raw := (s.part p).noCmp
  let new : Table HbmMeta := if raw then (List.range n).map fun i => (first + i, { tag := 0 }) else []
  let cleared := mzero s.dev.hbm base (2 ^ 30)
  let image := if raw then (List.range n).foldl (fun m i =>
    mputs m (base + 128 * i) (sectorBytes (keyValue s p 0) (first + i) 0 (List.replicate 128 0))) cleared else cleared
  let t := s.dev.hbmMeta
  let dev := { s.dev with
    home := mzero s.dev.home base (2 ^ 30), homeMeta := out s.dev.homeMeta, hbm := image,
    hbmMeta := (t.filter fun e => decide (e.1 < first)) ++ new ++ t.filter fun e => decide (first + n ≤ e.1) }
  ({ s with dev := dev }).bumpDie (k / 192) (if raw then 0 else 8) n

/-- A word of PGRANT (23 R439, R440). -/
def grantWord (s : State) (p w : Nat) : Nat :=
  (s.part p).grant.foldl (fun n k => if k / 192 = w / 3 ∧ k % 192 / 64 = w % 3 then n + 2 ^ (k % 64) else n) 0

/-- A write of a word of PGRANT; none where it is refused (23 R439, R440). -/
def writePgrant (p w v : Nat) (s : State) : Option State :=
  let want := ((List.range 64).filter fun i => bitAt v i).map fun i => 192 * (w / 3) + 64 * (w % 3) + i
  let old := (s.part p).grant.filter fun k => k / 192 == w / 3 && k % 192 / 64 == w % 3
  let lost := old.filter fun k => !want.contains k
  let held (k : Nat) : Bool := (List.range 12).any fun q => q != p && nmem (s.part q).grant k
  let parked := (stoppedOf s p).any fun x => match x with | .cmd _ _ _ => true | .route _ _ _ _ => false
  if want.any (fun k => decide (k % 192 ≥ 135) || held k) || (!lost.isEmpty && (!(gridsOf s p).isEmpty || parked)) then none
  else
    let s := lost.foldl (fun s k => scrubBlock p k s) s
    some (s.modPart p fun x => { x with grant := want.foldl nadd (lost.foldl ndel x.grant) })

/-- PGRANT_WRITE (23 R439). -/
def execPgrantWrite (part word value : Nat) (s : State) : Host.Outcome State Fault Refusal :=
  .next (if part < 12 ∧ word < 12 then (writePgrant part word (value % 2 ^ 64) s).getD s else s)

/-- Step 2 of a CLEAR: the lines of a key slot leave every slice (23 R441). -/
def flushKey (p slot : Nat) (s : State) : State :=
  let s := (List.range 4).foldl (fun s d =>
    (((s.die d).visMeta.filter fun e => e.2.part == p && e.2.key == slot).map (·.1)).foldl (fun s l => visDrop d l s) s) s
  ((s.dev.homeMeta.filter fun e => e.2.part == p && e.2.key == slot).map (·.1)).foldl (fun s l => homeEvict l s) s

/-- A write of KEYCTL; one is ignored while an operation runs (23 R440, R441). -/
def writeKeyctl (p v : Nat) (s : State) : State :=
  let x := s.part p
  let op := bitsAt v 60 4
  let slot := v % 16
  if x.keyOp != 0 then s
  else
    let s := s.modPart p fun x => { x with keySlot := slot }
    if op != 1 && op != 2 then s
    else
      let full := (tfind x.keys slot).isSome
      let st := if recovering s p then 3 else if op = 2 ∧ slot = 0 then 2 else if full == (op == 1) then 1 else 0
      if st != 0 then s.modPart p fun x => { x with keyStatus := st }
      else
        let s := s.modPart p fun x => { x with keyOp := op }
        if op = 2 then flushKey p slot s else s

/-- KEYCTL_GEN and KEYCTL_CLEAR (23 R441). -/
def execKeyctlGen (part value : Nat) (s : State) : Host.Outcome State Fault Refusal :=
  .next (if part < 12 ∧ bitsAt value 60 4 = 1 then writeKeyctl part (value % 2 ^ 64) s else s)
def execKeyctlClear (part value : Nat) (s : State) : Host.Outcome State Fault Refusal :=
  .next (if part < 12 ∧ bitsAt value 60 4 = 2 then writeKeyctl part (value % 2 ^ 64) s else s)

/-- A key drawn from the security processor's generator (23 R441; log 10). -/
def drawKey (p slot : Nat) (s : State) : State :=
  let k := Config.drbg s.count
  { s.modPart p fun x => { x with keys := tput x.keys slot k } with count := s.count + 1 }

/-- A key operation ends: the key is drawn or erased (23 R441). -/
def endKeyOp (p : Nat) (s : State) : State :=
  let x := s.part p
  if x.keyOp = 0 then s
  else
    let s := if x.keyOp = 1 then drawKey p x.keySlot s else s.modPart p fun x => { x with keys := tdel x.keys x.keySlot }
    s.modPart p fun x => { x with keyOp := 0, keyStatus := 0 }

/-- KEY_OPERATION_DONE (23 R441). -/
def execKeyOperationDone (part : Nat) (s : State) : Host.Outcome State Fault Refusal := .next (endKeyOp part s)

/-- A write of SAVEREQ (23 R440). -/
def writeSaveReq (p v : Nat) (s : State) : State :=
  match s.teams.find? fun e => e.2.part == p && e.2.resident && e.2.gridId.toNat == v % 2 ^ 32 && e.2.idx == v / 2 ^ 32 with
  | some (_, tm) => if recovering s p || !saveFits s tm then s else requestSave tm s
  | none => s

/-- SAVEREQ_WRITE (23 R440). -/
def execSavereqWrite (part value : Nat) (s : State) : Host.Outcome State Fault Refusal :=
  .next (if part < 12 then writeSaveReq part (value % 2 ^ 64) s else s)

/-- PARTMAP (23 R437). -/
def partMap (s : State) : Nat :=
  (List.range 12).foldl (fun n i => n + 2 ^ (4 * i) * (match partOfCluster s i with | some p => p + 1 | none => 0)) 0

/-- A partition can be torn down: no enabled queue, no live grid, no recovery (23 R438). -/
def partIdle (s : State) (p : Nat) : Bool :=
  !(s.queues.any fun e => e.2.en && e.2.part == p) && (gridsOf s p).isEmpty && !recovering s p

/-- The STATUS with which an operation of PARTCTL ends at once, 0 where it runs (23 R438). -/
def partctlStatus (s : State) (op p mask : Nat) : Nat :=
  if s.pkg.recovery then 4
  else if (s.part p).exist == (op == 1) then 1
  else if op = 1 then
    (if p > 11 || mask == 0 || (List.range 12).any (fun c => bitAt mask c && (partOfCluster s c).isSome) then 2 else 0)
  else if partIdle s p then 0 else 3

/-- A write of PARTCTL (23 R438). -/
def writePartctl (v : Nat) (s : State) : State :=
  let op := bitsAt v 60 4
  if (op != 1 && op != 2) || s.pkg.partOp != 0 then s
  else
    let st := partctlStatus s op (bitsAt v 12 4) (bitsAt v 0 12)
    s.modPkg fun k => { k with partBits := bitsAt v 0 17, partStatus := if st = 0 then k.partStatus else st,
                               partOp := if st = 0 then op else 0 }

/-- PARTCTL_CREATE and PARTCTL_TEARDOWN (23 R438). -/
def execPartctlCreate (value : Nat) (s : State) : Host.Outcome State Fault Refusal :=
  .next (if bitsAt value 60 4 = 1 then writePartctl (value % 2 ^ 64) s else s)
def execPartctlTeardown (value : Nat) (s : State) : Host.Outcome State Fault Refusal :=
  .next (if bitsAt value 60 4 = 2 then writePartctl (value % 2 ^ 64) s else s)

/-- A cluster is power-gated: it keeps nothing but its counters (23 R455). -/
def gateCluster (cl : Nat) (s : State) : State :=
  let s := (coresOfCluster s cl).foldl (fun s c => (clearCore c s).modCore c fun v =>
    { v with cfg := {}, grid := none, loading := false, tiles := [], sideBand := [], banks := [], bankPoison := [], icache := [],
             fetchTlb := [], loopBuf := [] }) s
  s.modCluster cl fun v => { v with tlb := [], power := 2 }

/-- A partition is created (23 R438). -/
def createPart (p bits : Nat) (s : State) : State :=
  drawKey p 0 (s.modPart p fun v => { v with exist := true, noCmp := bitAt bits 16, clusters := BitVec.ofNat 12 bits })

/-- A partition is torn down (23 R438, 26 R486). -/
def teardownPart (p : Nat) (s : State) : State :=
  let s := resetPartition p s
  let s := (s.part p).grant.foldl (fun s k => scrubBlock p k s) s
  let cls := clustersOf s p
  let s := cls.foldl (fun s c => gateCluster c s) s
  let s := ((s.conns.filter fun e => e.2.part == p).map (·.1)).foldl (fun s k => errorConn k s) s
  { s.putPart p {} with tides := tdel s.tides p }

/-- PARTITION_OPERATION_DONE (23 R438). -/
def execPartitionOperationDone (s : State) : Host.Outcome State Fault Refusal :=
  .next (
    let k := s.pkg
    let p := bitsAt k.partBits 12 4
    let fin (st : Nat) (s : State) : State := s.modPkg fun k => { k with partOp := 0, partStatus := st }
    if k.partOp = 0 then s
    else if k.partOp = 1 then fin 0 (createPart p k.partBits s)
    else if partIdle s p then fin 0 (teardownPart p s) else fin 3 s)

/-- A write of a word of OWNERKEY: the last one burns the key (23 R437). -/
def writeOwnerKey (w v : Nat) (s : State) : State :=
  if s.pkg.owner.isSome then s
  else
    let t := tput s.pkg.ownerWords w (BitVec.ofNat 64 v)
    let key : BitVec 256 := BitVec.ofNat 256 ((List.range 4).foldl (fun n i => n + 2 ^ (64 * i) * (tget t i 0).toNat) 0)
    s.modPkg fun k => { k with ownerWords := t, owner := if w = 3 then some key else none }

/-- OWNERKEY_WRITE (23 R437). -/
def execOwnerkeyWrite (word value : Nat) (s : State) : Host.Outcome State Fault Refusal :=
  .next (if word < 4 then writeOwnerKey word (value % 2 ^ 64) s else s)

/-- What a package reset leaves: fuses, flash and the HBM4 sectors, which no key reads any more (23 R437). The model's own
agenda, answers and counts go on (log 1, 2). -/
def resetPackage (s : State) : State :=
  let k := s.pkg
  { State.reset with
    agenda := s.agenda, count := s.count, fresh := s.fresh, replies := s.replies,
    dev := { hbm := s.dev.hbm, hbmMeta := s.dev.hbmMeta, sectorErr := s.dev.sectorErr },
    pkg := { owner := k.owner, bank0 := k.bank0, bank1 := k.bank1, bank := k.bank, commit := k.commit, minVer := k.minVer } }

/-- A write of PKGRESET (23 R437). -/
def writePkgreset (v : Nat) (s : State) : State := if v = 0x0000096000000001 then resetPackage s else s
/-- PKGRESET (23 R437). -/
def execPkgreset (value : Nat) (s : State) : Host.Outcome State Fault Refusal := .next (writePkgreset (value % 2 ^ 64) s)

/-- A write of FWCTL: COMMIT makes the next boot try the inactive bank first (23 R437, R451). -/
def writeFwctl (v : Nat) (s : State) : State := if bitAt v 1 then s.modPkg fun k => { k with commit := true } else s
/-- FWCTL_COMMIT (23 R451). -/
def execFwctlCommit (value : Nat) (s : State) : Host.Outcome State Fault Refusal := .next (writeFwctl value s)

/-- A byte of a firmware bank (23 R451; log 8). -/
def Pkg.flash (k : Pkg) (bank a : Nat) : Byte := tget (if bank = 0 then k.bank0 else k.bank1) a (Config.flashByte bank a)
/-- Bytes of a firmware bank. -/
def Pkg.flashes (k : Pkg) (bank a n : Nat) : List Byte := (List.range n).map fun i => k.flash bank (a + i)
/-- Bytes of the inactive bank written (23 R451). -/
def Pkg.putFlash (k : Pkg) (a : Nat) (bs : List Byte) : Pkg :=
  let put (t : Table Byte) : Table Byte := ((List.range bs.length).zip bs).foldl (fun t b => tput t (a + b.1) b.2) t
  if k.bank = 0 then { k with bank1 := put k.bank1 } else { k with bank0 := put k.bank0 }

/-- LEN and SECVER of a bank's image (23 R451). -/
def Pkg.imageLen (k : Pkg) (b : Nat) : Nat := leNat (k.flashes b 8 4)
def Pkg.imageVer (k : Pkg) (b : Nat) : Nat := leNat (k.flashes b 4 4)

/-- The boot ROM accepts a bank's image (23 R451, R452). -/
def Pkg.accepts (k : Pkg) (b : Nat) : Bool :=
  let len := k.imageLen b
  let pub := k.flashes b 0xA00 1312
  leNat (k.flashes b 0 4) == 0x09600001 && decide (len ≤ 2 ^ 23 - 4096) && sha3 pub == Config.romDigest
    && dsaVerify pub (leBytes 32 (sha3 (k.flashes b 0 32 ++ k.flashes b 0x1000 len)).toNat) (k.flashes b 0x20 2420)
    && decide (k.imageVer b ≥ k.minVer)

/-- The bank from which the package boots, if any (23 R452). -/
def Pkg.bootBank (k : Pkg) : Option Nat :=
  let a := if k.commit then 1 - k.bank else k.bank
  if k.accepts a then some a else if k.accepts (1 - a) then some (1 - a) else none

/-- Boot: the firmware is verified, links that fail training are down and cores that fail self-test are withdrawn; without an
image the package is in RECOVERY (23 R452). -/
def boot (badCores badLinks : List Nat) (s : State) : State :=
  if s.pkg.booted || s.pkg.recovery then s
  else match s.pkg.bootBank with
    | none => s.modPkg fun k => { k with recovery := true, commit := false }
    | some b =>
      let s := s.modPkg fun k =>
        { k with booted := true, bank := b, commit := false, secver := k.imageVer b, minVer := max k.minVer (k.imageVer b),
                 image := sha3 (k.flashes b 0 (4096 + k.imageLen b)) }
      let s := (badLinks.filter (· < 8)).foldl (fun s l => downLink l s) s
      (badCores.filter (· < 768)).foldl (fun s c => withdrawCore c s) s

/-- BOOT (23 R452). -/
def execBoot (badCores badLinks : List Nat) (s : State) : Host.Outcome State Fault Refusal := .next (boot badCores badLinks s)

/-- The bytes of a word of WITHDRAWN (23 R437). -/
def withdrawnWord (s : State) (w : Nat) : Nat :=
  (List.range 64).foldl (fun n i => n + 2 ^ i * b2n (s.core (64 * w + i)).withdrawn) 0

/-- VALID of KEYCTL (23 R440). -/
def keyValid (s : State) (p : Nat) : Nat := (List.range 16).foldl (fun n i => n + 2 ^ i * b2n (tfind (s.part p).keys i).isSome) 0

/-- The identity key pair: IDPUB and the secret key, from the fused device secret (23 R453). -/
def identity : List Byte × DsaKey := dsaKeyGen (shake256 (leBytes 32 Config.uds.toNat ++ ascii "RA960-IDENTITY") 32)

/-- An attestation report: of a partition, or of the package (23 R454). The randomness of its signature is free (log 125). -/
def reportOf (s : State) (p : Option Nat) (nonce : List Byte) : List Byte :=
  let grants := match p with
    | some p => leBytes 32 (sha3 ((List.range 12).flatMap fun w => leBytes 8 (grantWord s p w))).toNat
    | none => leBytes 32 0
  let flags := 2 * b2n s.pkg.recovery + match p with | some p => b2n (s.part p).noCmp + 2 ^ 16 * keyValid s p | none => 0
  let body := leBytes 4 0x09600002 ++ leBytes 4 1 ++ nonce ++ leBytes 32 s.pkg.image.toNat ++ leBytes 4 s.pkg.secver
    ++ leBytes 4 (p.getD 0xFFFFFFFF) ++ leBytes 8 (match p with | some p => (s.part p).clusters.toNat | none => partMap s)
    ++ leBytes 8 flags ++ grants ++ ((List.range 12).flatMap fun w => leBytes 8 (withdrawnWord s w)) ++ leBytes 32 0
  body ++ dsaSign identity.2 (leBytes 32 (sha3 body).toNat) (leBytes 32 (Config.drbg s.count).toNat)

/-- The 32 bytes of a nonce from four registers. -/
def nonceOf (t : Table DWord) (off : Nat) : List Byte := (List.range 4).flatMap fun i => leBytes 8 (tget t (off + 8 * i) 0).toNat

/-- A write of the package's ATTCTL (23 R437, R454). -/
def writeAttctl (v : Nat) (s : State) : State :=
  if !bitAt v 0 || s.pkg.attBusy then s
  else
    let u := s.modPkg fun k => { k with attBusy := true, attReport := reportOf s none (nonceOf k.regs 0x80) }
    { u with count := s.count + 1 }
/-- PACKAGE_REPORT_START (23 R454). -/
def execPackageReportStart (value : Nat) (s : State) : Host.Outcome State Fault Refusal := .next (writeAttctl value s)

/-- A write of a partition's ATTCTL (23 R440, R454). -/
def writePartAttctl (p v : Nat) (s : State) : State :=
  let x := s.part p
  if x.attBusy then s
  else
    let u := s.modPart p fun x => { x with attPage := bitsAt v 12 44 * 4096, attBusy := true, attErr := false,
                                           attReport := reportOf s (some p) (nonceOf x.regs 0x100) }
    { u with count := s.count + 1 }
/-- PARTITION_REPORT_START (23 R454). -/
def execPartitionReportStart (part value : Nat) (s : State) : Host.Outcome State Fault Refusal :=
  .next (if part < 12 then writePartAttctl part (value % 2 ^ 64) s else s)

/-- Bytes written by the I/O die through a partition's translation, at the home copies, with the checks of an access: the pieces
of each page are checked before any is written. -/
def ioTargets (p : Nat) (kind : AccKind) (path : Option Nat) : List (Nat × Nat) → State → Option (List (Nat × Acc × Nat)) × State
  | [], s => (some [], s)
  | (va, n) :: r, s => match walk 0 p va s with
    | (.error _, s) => (none, s)
    | (.ok e, s) => match checkLeaf s p kind path e va with
      | .ok (.dev pa a) => match ioTargets p kind path r s with
        | (some l, s) => (some ((pa, a, n) :: l), s)
        | (none, s) => (none, s)
      | _ => (none, s)

/-- The pieces of a write performed at the home copies. -/
def ioWrite : List (Nat × Acc × Nat) → List Byte → State → State
  | [], _, s => s
  | (pa, a, n) :: r, bs, s => ioWrite r (bs.drop n) (homeWriteBytes a pa (bs.take n) false s)

/-- A report is written: the package's to its buffer, a partition's to its page unless the write faults (23 R454). A number
above 11 names the package. -/
def endReport (p : Nat) (s : State) : State :=
  if p ≥ 12 then
    if !s.pkg.attBusy then s
    else s.modPkg fun k => { k with attBusy := false, attReport := [], report := mputs [] 0 k.attReport }
  else
    let x := s.part p
    if !x.attBusy then s
    else match ioTargets p .write none [(x.attPage, x.attReport.length)] s with
      | (none, s) => s.modPart p fun x => { x with attBusy := false, attErr := true, attReport := [] }
      | (some l, s) => (ioWrite l x.attReport s).modPart p fun x => { x with attBusy := false, attReport := [] }

/-- REPORT_WRITTEN (23 R454). -/
def execReportWritten (part : Nat) (s : State) : Host.Outcome State Fault Refusal := .next (endReport part s)

/-- The writable bits of a connection context (26 R485). -/
def ctxMask : Nat :=
  (2 ^ 16 - 1) * 2 ^ 288 + (2 ^ 24 - 1) * 2 ^ 256 + (2 ^ 128 - 1) * 2 ^ 128 + 7 * 2 ^ 120 + (2 ^ 54 - 1) * 2 ^ 66 + 2 ^ 63
    + (2 ^ 42 - 1) * 2 ^ 20

/-- CONNCMD 1: the context is stored (26 R484 to R486). -/
def storeConn (s : State) : State :=
  let k := (tget s.pkg.regs 0x800 0).toNat
  let w := s.pkg.connCtx.toNat
  let old := s.conn k
  let en := bitAt w 63
  let status (n : Nat) (s : State) : State := s.modPkg fun x => { x with connStatus := n }
  if en && old.en then status 1 s
  else if en && !(s.part (bitsAt w 55 4)).exist then status 2 s
  else
    let pmtu := bitsAt w 52 3
    let up := en && decide (3 ≤ pmtu) && decide (pmtu ≤ 5)
    let w := w &&& ctxMask
    let w := if up then w else (w ||| 2 ^ 63) ^^^ 2 ^ 63
    let w := if old.err && !up then w ||| 2 ^ 62 else w
    let s := if old.up then stopConn k s else s
    let s := s.modConn k fun c => { c with ctx := BitVec.ofNat 512 w }
    let psn := bitsAt w 20 24
    status 0 (if up then s.modConn k fun c => { c with sendPsn := psn, recvPsn := psn, retries := 0, since := s.pkg.us, rate := 256 } else s)

/-- A write of CONNCMD (26 R484). -/
def writeConncmd (v : Nat) (s : State) : State :=
  match v with
  | 1 => storeConn s
  | 2 => s.modPkg fun x => { x with connCtx := (s.conn (tget x.regs 0x800 0).toNat).ctx, connStatus := 0 }
  | _ => s

/-- CONNCMD_STORE and CONNCMD_LOAD (26 R484). -/
def execConncmdStore (value : Nat) (s : State) : Host.Outcome State Fault Refusal :=
  .next (if value % 2 ^ 64 = 1 then writeConncmd 1 s else s)
def execConncmdLoad (value : Nat) (s : State) : Host.Outcome State Fault Refusal :=
  .next (if value % 2 ^ 64 = 2 then writeConncmd 2 s else s)

end Sys2Proof.Machine
end

