-- ==== Sys2Proof/Machine/Regs.lean ====
section
/-! DEFINITION. The register windows and the management port (00 R8, 18 R363, 19 R373, R381, 23 R435 to R440, R445, R459, 26 R484,
R487, R489, 27 R504). -/

namespace Sys2Proof.Machine

open Sys2Proof

/-- What a management address leads to (23 R436): the package window, its report, a partition's window, the counters of a die or
cluster, a queue's block, the inactive firmware bank, a core's window; with the offset in it. -/
inductive Site where
  | pkg (off : Nat)
  | report (off : Nat)
  | part (p off : Nat)
  | die (d off : Nat)
  | cluster (c off : Nat)
  | queue (q off : Nat)
  | flash (off : Nat)
  | core (c off : Nat)
  deriving DecidableEq, Repr

/-- The management address map (23 R436). -/
def siteOf (a : Nat) : Option Site :=
  if a < 0x1000 then some (.pkg a)
  else if 0x4000 ≤ a ∧ a < 0x5000 then some (.report (a - 0x4000))
  else if 0x10000 ≤ a ∧ a < 0x1C000 then some (.part ((a - 0x10000) / 0x1000) (a % 0x1000))
  else if 0x100000 ≤ a ∧ a < 0x140000 then some (.die ((a - 0x100000) / 0x10000) (a % 0x10000))
  else if 0x200000 ≤ a ∧ a < 0x20C000 then some (.cluster ((a - 0x200000) / 0x1000) (a % 0x1000))
  else if 0x400000 ≤ a ∧ a < 0x440000 then some (.queue ((a - 0x400000) / 64) (a % 64))
  else if 0x800000 ≤ a ∧ a < 0x1000000 then some (.flash (a - 0x800000))
  else if 0x1000000 ≤ a ∧ a < 0x1300000 then some (.core ((a - 0x1000000) / 0x1000) (a % 0x1000))
  else none

/-- The offsets of the counters of a die (17 R358, 22 R432, 23 R445). -/
def dieCounter (off : Nat) : Bool := off % 8 == 0 && (decide (off ≤ 0x68) || (decide (0x80 ≤ off) && decide (off ≤ 0xA0))
  || (decide (0xB0 ≤ off) && decide (off ≤ 0xC0)))
/-- The offsets of the counters of a cluster (15 R335). -/
def clusterCounter (off : Nat) : Bool := off % 8 == 0 && decide (off ≤ 0x20)
/-- The offsets of the counters of a core (07 R155, 09 R200, 11 R261, 15 R335, 27 R509). -/
def coreCounter (off : Nat) : Bool := off % 8 == 0 && (decide (off ≤ 0x50) || (decide (0x100 ≤ off) && decide (off ≤ 0x138))
  || (decide (0x200 ≤ off) && decide (off ≤ 0x230)) || (decide (0x300 ≤ off) && decide (off ≤ 0x320))
  || (decide (0x400 ≤ off) && decide (off ≤ 0x418)))
/-- The offsets of the counters of the ports (26 R484). -/
def portCounter (off : Nat) : Bool := decide (0x900 ≤ off) && decide (off < 0xA00) && off % 8 == 0

/-- A counter of a table. -/
def counterAt (t : Table DWord) (off : Nat) : Nat := (tget t off 0).toNat

/-- A port's state. -/
def State.port (s : State) (n : Nat) : Port := tget s.ports n {}
def State.modPort (s : State) (n : Nat) (f : Port → Port) : State := { s with ports := tput s.ports n (f (s.port n)) }

/-- The bits of a partition register that hold what was written and do nothing else, by offset (18 R363, 19 R381, 23 R440, 24
R459, 26 R487, R489). -/
def plainMask (off : Nat) : Option Nat :=
  if off % 8 != 0 then none
  else if off = 0x20 then some 0xFFFFFFFFFF0000
  else if off = 0x68 then some 0xFFFFFFFF
  else if 0x100 ≤ off ∧ off < 0x120 then some (2 ^ 64 - 1)
  else if off = 0x188 then some (2 ^ 64 - 1)
  else if off = 0x190 then some 0xFFFFFFFFFFFF001F
  else if off = 0x1A0 ∨ off = 0x1B8 then some (2 ^ 64 - 1)
  else if 0x1C0 ≤ off ∧ off < 0x1E0 then some 0xFFFFFFFFFFFFFD
  else if 0x1E0 ≤ off ∧ off < 0x220 then some (if off % 16 = 0 then 0xFFFFFFFFFFFF81 else 0xFFFFFFFF)
  else if off = 0x220 then some 0xFFFFFFF
  else if 0x400 ≤ off ∧ off < 0xC00 then
    (match off % 32 / 8 with | 0 => some 0xC0003FFFFFFFFFFF | 1 => some (2 ^ 64 - 1) | 2 => some 0xFFFFFFFFFF | _ => none)
  else none

/-- A write of a partition register that has no behaviour of its own (00 R8). -/
def writePlain (p off v : Nat) (s : State) : Option State :=
  match off with
  | 0x00 => some (s.modPart p fun x => { x with ptroot := BitVec.ofNat 64 (v &&& 0xFFFFFFFF00001) })
  | 0x08 => some (s.modPart p fun x => { x with xlctl := BitVec.ofNat 64 (v &&& 3) })
  | 0x40 => some (s.modPart p fun x => { x with pdisp := BitVec.ofNat 64 (v &&& 0xFFFFFFFF00FF00FF) })
  | 0x48 => some (s.modPart p fun x => { x with fqaddr := BitVec.ofNat 64 v })
  | 0x50 => some (s.modPart p fun x => { x with fqctl := BitVec.ofNat 64 (v &&& 0xFFFFFFFFFFFF001F) })
  | _ => match plainMask off with
    | some m => some (if dbgReserved off v then s
        else s.modPart p fun x => { x with regs := tput x.regs off (BitVec.ofNat 64 (v &&& m)) })
    | none => none

/-- A write of a word of a partition's window: whether it is refused, and the state. Over the fabric PGRANT, PCFG and RKTAG are
read-only (23 R440, 26 R487). -/
def writePart (fabric : Bool) (p off v : Nat) (s : State) : Bool × State :=
  if fabric && (off == 0x220 || (decide (0x88 ≤ off) && decide (off < 0xE8))) then (false, s)
  else if 0x88 ≤ off ∧ off < 0xE8 then
    (match writePgrant p ((off - 0x88) / 8) v s with | some s => (false, s) | none => (true, s))
  else
    (false, match off with
      | 0x18 => writePromoFree p v s
      | 0x28 => writeShootLen p v s
      | 0x38 => writeFaultResp p v s
      | 0x70 => writeKeyctl p v s
      | 0x80 => writeSaveReq p v s
      | 0xE8 => writePartAttctl p v s
      | 0x180 => writeDbgctl p v s
      | 0x1A8 => writeDbgcmd p v s
      | _ => (writePlain p off v s).getD s)

/-- A word of a landing window: LANDID and LANDST (27 R504). -/
def landWord (s : State) (p off : Nat) : Nat :=
  let v := s.part p
  let l := (off - 0xC00) / 16
  let held := (tget v.pend l []).length
  match tfind v.lands l with
  | none => 0
  | some (team, _) =>
    if off % 16 = 0 then (match s.team? team with | some t => t.gridId.toNat + 2 ^ 32 * t.idx | none => 0)
    else 2 ^ 63 + held

/-- A word of a partition's window as read. -/
def readPart (s : State) (p off : Nat) : Nat :=
  let v := s.part p
  if 0x88 ≤ off ∧ off < 0xE8 then grantWord s p ((off - 0x88) / 8)
  else if 0xC00 ≤ off ∧ off < 0xD00 then landWord s p off
  else match off with
    | 0x00 => v.ptroot.toNat
    | 0x08 => v.xlctl.toNat
    | 0x10 => (match v.promo with | some (va, _, _) => 2 ^ 63 + va | none => 0) + v.promoFree.length
    | 0x28 => v.shootLen.toNat
    | 0x30 => v.shootSeq.toNat
    | 0x40 => v.pdisp.toNat
    | 0x48 => v.fqaddr.toNat
    | 0x50 => v.fqctl.toNat
    | 0x58 => v.fqidx.toNat
    | 0x60 => 2 ^ 63 * b2n v.exist + 2 ^ 16 * b2n v.noCmp + v.clusters.toNat
    | 0x70 => 2 ^ 59 * b2n (v.keyOp != 0) + 2 ^ 48 * v.keyStatus + 2 ^ 16 * keyValid s p + v.keySlot
    | 0x78 => 2 ^ 63 * b2n v.recovering.isSome + v.recov
    | 0xE8 => 2 ^ 63 * b2n v.attBusy + 2 ^ 62 * b2n v.attErr + v.attPage
    | 0x180 => v.dbgctl.toNat
    | 0x198 => v.dbgqidx.toNat
    | 0x1B0 => 2 ^ 62 * b2n v.hold + 2 ^ 61 * b2n v.perturb + 2 ^ 48 * v.dbgStatus + v.tide
    | _ => if (plainMask off).isSome then v.reg off else 0

/-- A write of a word of the package window (23 R437, R438, 26 R484). The bits of a PWRLIM write above [11:0] are ignored
(DESIGN CHOICE, log 126). -/
def writePkg (off v : Nat) (s : State) : State :=
  if 0x40 ≤ off ∧ off < 0x60 then writeOwnerKey ((off - 0x40) / 8) v s
  else if 0x80 ≤ off ∧ off < 0xA0 then s.modPkg fun k => { k with regs := tput k.regs off (BitVec.ofNat 64 v) }
  else if 0x840 ≤ off ∧ off < 0x880 then
    s.modPkg fun k =>
      let i := off - 0x840
      let x := k.connCtx.toNat
      let low := x % 2 ^ (8 * i)
      let w := low + 2 ^ (8 * i) * v + x / 2 ^ (8 * i + 64) * 2 ^ (8 * i + 64)
      { k with connCtx := BitVec.ofNat 512 ((w &&& ctxMask) + 2 ^ 62 * b2n (bitAt x 62)) }
  else if portCounter off then
    s.modPort ((off - 0x900) / 32) fun x => { x with stat := tput x.stat (off % 32) (BitVec.ofNat 64 v) }
  else match off with
    | 0x010 => writePartctl v s
    | 0x020 => if v % 4096 < 600 ∨ v % 4096 > 2400 then s else s.modPkg fun k => { k with pwrlim := v % 4096 }
    | 0x038 => writeFwctl v s
    | 0x060 => writePkgreset v s
    | 0x068 => writeAttctl v s
    | 0x800 => s.modPkg fun k => { k with regs := tput k.regs 0x800 (BitVec.ofNat 64 (v % 2 ^ 14)) }
    | 0x808 => writeConncmd v s
    | _ => s

/-- A word of the package window as read (23 R437, R438, 26 R484). -/
def readPkg (s : State) (off : Nat) : Nat :=
  let k := s.pkg
  if 0x80 ≤ off ∧ off < 0xA0 then (tget k.regs off 0).toNat
  else if 0x100 ≤ off ∧ off < 0x160 then withdrawnWord s ((off - 0x100) / 8)
  else if 0x200 ≤ off ∧ off < 0x720 then leNat ((identity.1.drop (off - 0x200)).take 8)
  else if 0x840 ≤ off ∧ off < 0x880 then bitsAt k.connCtx.toNat (8 * (off - 0x840)) 64
  else if portCounter off then counterAt (s.port ((off - 0x900) / 32)).stat (off % 32)
  else match off with
    | 0x000 => 0x10960
    | 0x008 => b2n k.recovery + 2 * k.power + k.linksDown.foldl (fun n l => n + 2 ^ (8 + l)) 0 + 2 ^ 16 * b2n k.owner.isSome
    | 0x010 => 2 ^ 59 * b2n (k.partOp != 0) + 2 ^ 48 * k.partStatus + k.partBits
    | 0x018 => partMap s
    | 0x020 => k.pwrlim
    | 0x028 => k.pwrest
    | 0x030 => (List.range 4).foldl (fun n d => n + 2 ^ (4 * d) * (s.die d).step) 0
    | 0x038 => k.bank + 2 ^ 32 * k.secver
    | 0x068 => 2 ^ 63 * b2n k.attBusy
    | 0x800 => (tget k.regs 0x800 0).toNat + 2 ^ 56 * k.connStatus
    | _ => 0

/-- A counter of a window replaced, where the offset holds one (07 R155). -/
def putCounter (ok : Bool) (t : Table DWord) (off v : Nat) : Table DWord := if ok then tput t off (BitVec.ofNat 64 v) else t

/-- A write of a word at a management address: whether it is refused, and the state (23 R436). -/
def writeSite (x : Site) (v : Nat) (s : State) : Bool × State :=
  match x with
  | .pkg off => (false, writePkg off v s)
  | .report _ => (false, s)
  | .part p off => writePart false p off v s
  | .die d off => (false, s.modDie d fun x => { x with counters := putCounter (dieCounter off) x.counters off v })
  | .cluster c off => (false, s.modCluster c fun x => { x with counters := putCounter (clusterCounter off) x.counters off v })
  | .queue q off => (false, writeQueueReg q off v s)
  | .flash off => (false, s.modPkg fun k => k.putFlash off (leBytes 8 v))
  | .core c off => (false, s.modCore c fun x => { x with counters := putCounter (coreCounter off) x.counters off v })

/-- A word at a management address as read (23 R436, 07 R145). -/
def readSite (s : State) (x : Site) : Nat :=
  match x with
  | .pkg off => readPkg s off
  | .report off => mgetN s.pkg.report off 8
  | .part p off => readPart s p off
  | .die d off => if dieCounter off then counterAt (s.die d).counters off else 0
  | .cluster c off => if clusterCounter off then counterAt (s.cluster c).counters off else 0
  | .queue q off => readQueueReg s q off
  | .flash off => leNat (s.pkg.flashes (1 - s.pkg.bank) off 8)
  | .core c off =>
    if off = 0x800 then (s.core c).cfg.word else if coreCounter off then counterAt (s.core c).counters off else 0

/-- The registers that a REGISTER_WRITE may name: those without behaviour of their own (00 R8). -/
def Site.plain (x : Site) (v : Nat) (s : State) : Bool :=
  match x with
  | .pkg off => off == 0x020 || (decide (0x80 ≤ off) && decide (off < 0xA0)) || off == 0x800
      || (decide (0x840 ≤ off) && decide (off < 0x880)) || portCounter off
  | .part p off => (writePlain p off v s).isSome
  | .queue _ off => off == 0x08 || off == 0x20 || off == 0x28
  | .die _ _ | .cluster _ _ | .core _ _ | .flash _ => true
  | .report _ => false

/-- REGISTER_WRITE (00 R8): a word written by system software to a register that has no behaviour of its own. -/
def execRegisterWrite (addr value : Nat) (s : State) : Host.Outcome State Fault Refusal :=
  .next (
    let v := value % 2 ^ 64
    match siteOf addr with
    | some x => if addr % 8 = 0 ∧ x.plain v s then (writeSite x v s).2 else s
    | none => s)

/-- The package is awake: a request has reached it (23 R457). -/
def wake (s : State) : State := if s.pkg.power = 0 then s else s.modPkg fun k => { k with power := 0 }

/-- WAKE (23 R457), whatever the reason. -/
def execWake (reason : Nat) (s : State) : Host.Outcome State Fault Refusal := .next (if reason < 2 ^ 64 then wake s else s)

/-- A management request: SEQ, OP, COUNT, ADDR, its bytes before the MAC, and the MAC (23 R435). -/
structure MgmtReq where
  seq : Nat
  op : Nat
  count : Nat
  addr : Nat
  body : List Byte
  mac : List Byte
  deriving DecidableEq, Repr

/-- A datagram as a request (23 R435); one of another form or length is none. -/
def mgmtReq (d : List Byte) : Option MgmtReq :=
  let n := d.length
  let field (o k : Nat) : Nat := leNat ((d.drop o).take k)
  let op := field 4 1
  let count := field 5 1
  let len := 48 + if op = 2 then 8 * count else 0
  if (op != 1 && op != 2) || count == 0 || decide (count > 128) || n != len then none
  else some { seq := field 0 4, op := op, count := count, addr := field 8 8, body := d.take (n - 32), mac := d.drop (n - 32) }

/-- The MAC of a datagram's bytes: zero until the owner key is set (23 R435). -/
def macOf (s : State) (bs : List Byte) : List Byte :=
  match s.pkg.owner with | some k => leBytes 32 (kmac k bs).toNat | none => leBytes 32 0

/-- A request is taken: its MAC is right, or no owner key is set, and its SEQ is above the highest accepted (23 R435). -/
def mgmtTaken (s : State) (r : MgmtReq) : Bool :=
  (s.pkg.owner.isNone || r.mac == macOf s r.body) && (match s.pkg.seq with | some n => decide (r.seq > n) | none => true)

/-- The address of each word of a request. -/
def MgmtReq.words (r : MgmtReq) : List Nat := (List.range r.count).map fun i => r.addr + 8 * i

/-- A request is served: before the owner key is set, reads of the package window and writes of the key alone; in RECOVERY, the
package and bank windows alone (23 R435, R452). -/
def mgmtServed (s : State) (r : MgmtReq) : Bool :=
  r.words.all fun a =>
    (s.pkg.owner.isSome || (if r.op = 1 then decide (a < 0x1000) else decide (0x40 ≤ a) && decide (a < 0x60)))
      && (!s.pkg.recovery || match siteOf a with | some (.pkg _) | some (.flash _) | none => true | _ => false)

/-- The STATUS with which a request performs nothing, 0 where it is performed (23 R435). -/
def mgmtStatus (s : State) (r : MgmtReq) : Nat :=
  if !mgmtServed s r then 2
  else if r.addr % 8 != 0 || r.words.any fun a => (siteOf a).isNone then 1
  else 0

/-- The words of a write performed in ascending address: whether one was refused (23 R435). -/
def writeWords : List Nat → List Byte → Bool → State → Bool × State
  | [], _, bad, s => (bad, s)
  | a :: r, bs, bad, s => match siteOf a with
    | some x => let (b, s) := writeSite x (leNat (bs.take 8)) s
      writeWords r (bs.drop 8) (bad || b) s
    | none => writeWords r (bs.drop 8) bad s

/-- The response to a request (23 R435). -/
def respond (r : MgmtReq) (status : Nat) (data : List Byte) (s : State) : State :=
  let bs := leBytes 4 r.seq ++ leBytes 1 (r.op + 2) ++ leBytes 1 r.count ++ leBytes 2 status ++ leBytes 8 r.addr ++ data
  { s with replies := s.replies ++ [{ kind := 4, conn := 0, bytes := bs ++ macOf s bs }] }

/-- A management request arrives (23 R435). -/
def serveMgmt (op : Nat) (d : List Byte) (s : State) : State :=
  match mgmtReq d with
  | none => s
  | some r =>
    if r.op != op || !mgmtTaken s r then s
    else
      let s := (wake s).modPkg fun k => { k with seq := some r.seq }
      let st := mgmtStatus s r
      if op = 1 then
        respond r st (r.words.flatMap fun a => leBytes 8 (if st = 0 then (siteOf a).elim 0 (readSite s) else 0)) s
      else if st != 0 then respond r st [] s
      else
        let (bad, s) := writeWords r.words (r.body.drop 16) false s
        respond r (if bad then 2 else 0) [] s

/-- MGMT_READ_REQUEST and MGMT_WRITE_REQUEST (23 R435). -/
def execMgmtReadRequest (datagram : List Byte) (s : State) : Host.Outcome State Fault Refusal := .next (serveMgmt 1 datagram s)
def execMgmtWriteRequest (datagram : List Byte) (s : State) : Host.Outcome State Fault Refusal := .next (serveMgmt 2 datagram s)

end Sys2Proof.Machine
end

