-- ==== Sys2Proof/Machine/Power.lean ====
section
/-! DEFINITION. Power states, clock steps and temperature (23 R455 to R458). -/

namespace Sys2Proof.Machine

open Sys2Proof

/-- The package is idle (23 R456). -/
def packageIdle (s : State) : Bool :=
  s.grids.isEmpty && (s.queues.all fun e => !e.2.en || e.2.head == e.2.doorbell) && (s.conns.all fun e => e.2.queue.isEmpty)
    && s.pkg.partOp == 0 && !s.pkg.attBusy
    && s.parts.all fun e => e.2.keyOp == 0 && !e.2.attBusy && e.2.recovering.isNone

/-- Exit latencies in half us: of a cluster's CG and PG, of the package's PK1 to PK3 (23 R455). -/
def clusterExit : Nat → Nat | 0 => 0 | 1 => 1 | _ => 60
def packageExit : Nat → Nat | 0 => 0 | 1 => 30 | 2 => 300 | _ => 3000

/-- LATTOL of a partition in half us (23 R440). -/
def latTol (s : State) (p : Nat) : Nat := 2 * (s.part p).reg 0x68

/-- Every core of a cluster is empty (23 R455, 07 R148). -/
def clusterEmpty (s : State) (cl : Nat) : Bool := (List.range 64).all fun k => coreEmpty s (64 * cl + k)

/-- A cluster is held in PG: it belongs to no partition, or all of its cores are withdrawn (23 R456). -/
def heldGated (s : State) (cl : Nat) : Bool := (partOfCluster s cl).isNone || (coresUp s cl).isEmpty

/-- The deepest state that a cluster may take beside a package state: 0 ACTIVE, 1 CG, 2 PG (23 R455, R456). -/
def clusterDepth (s : State) (cl big : Nat) : Nat :=
  let quiet := decide ((s.die (cl / 3)).clk ≥ (s.cluster cl).active + 4096) || (s.cluster cl).power != 0
  if heldGated s cl then (if clusterEmpty s cl then 2 else 0)
  else
    let fits (c : Nat) : Bool := match partOfCluster s cl with
      | some p => decide (clusterExit c + packageExit big ≤ latTol s p)
      | none => true
    if quiet && clusterEmpty s cl && fits 2 then 2 else if quiet && fits 1 then 1 else 0

/-- The deepest package state whose condition can hold and that every partition tolerates (23 R456). -/
def packageDepth (s : State) : Nat :=
  if !packageIdle s then 0
  else
    let empty := (List.range 12).all (clusterEmpty s)
    let fits (k : Nat) : Bool := (List.range 12).all fun p =>
      !(s.part p).exist || decide (packageExit k + clusterExit (if k = 1 then 1 else 2) ≤ latTol s p)
    if empty && fits 3 then 3 else if empty && fits 2 then 2 else if fits 1 then 1 else 0

/-- A cluster takes a power state (23 R455). -/
def enterCluster (cl depth : Nat) (s : State) : State :=
  if depth = 2 then gateCluster cl s else if depth = 1 then s.modCluster cl fun c => { c with power := 1 } else s

/-- CLUSTER_IDLE_TIMEOUT (23 R455). -/
def execClusterIdleTimeout (cluster : Nat) (s : State) : Host.Outcome State Fault Refusal :=
  .next (
    let n := clusterDepth s cluster (packageDepth s)
    if cluster < 12 ∧ n > (s.cluster cluster).power then enterCluster cluster n s else s)

/-- Every line leaves the L2, its release record served (23 R455). -/
def emptyL2 (s : State) : State :=
  let s := (List.range 4).foldl (fun s d => (tkeys (s.die d).visMeta).foldl (fun s l => visDrop d l s) s) s
  (tkeys s.dev.homeMeta).foldl (fun s l => homeEvict l s) s

/-- The condition of a package state on its clusters (23 R455). -/
def packageReady (s : State) (k : Nat) : Bool :=
  (List.range 12).all fun c => decide ((s.cluster c).power ≥ if k = 1 then 1 else 2)

/-- POWER_STATE_ENTRY (23 R456): the clusters go to their states and the package to the deepest it may. -/
def execPowerStateEntry (state : Nat) (s : State) : Host.Outcome State Fault Refusal :=
  .next (
    let n := packageDepth s
    if n = 0 ∨ state ≠ n ∨ s.pkg.power ≠ 0 then s
    else
      let t := (List.range 12).foldl (fun t c => enterCluster c (clusterDepth s c n) t) s
      if !packageReady t n then s
      else (if n = 3 then emptyL2 t else t).modPkg fun k => { k with power := n })

/-- CLOCK_STEP (23 R458): the sample of 1 ms, and the step of a die. -/
def execClockStep (die : Nat) (s : State) : Host.Outcome State Fault Refusal :=
  .next (
    let w := Config.packagePower s.count % 4096
    let worst := Config.hungriestDie s.count % 4
    let s := { s.modPkg (fun k => { k with pwrest := w }) with count := s.count + 1 }
    if die ≥ 4 then s
    else
      let d := s.die die
      if w > s.pkg.pwrlim then (if worst = die then s.putDie die { d with step := min 8 (d.step + 1) } else s)
      else if 100 * w < 95 * s.pkg.pwrlim && !d.hot then s.putDie die { d with step := d.step - 1 }
      else s)

/-- THERMAL_EVENT (23 R457, R458): over 105 C a die is held at step 8, over 115 C the package powers off and loses all state but
fuses and flash. -/
def execThermalEvent (die celsius : Nat) (s : State) : Host.Outcome State Fault Refusal :=
  .next (
    let s := wake s
    if die ≥ 4 then s
    else if celsius > 115 then { resetPackage s with dev := {}, off := true }
    else if celsius > 105 then s.modDie die fun d => { d with hot := true, step := 8 }
    else s.modDie die fun d => { d with hot := false })

/-- L2_EVICTION (17 R350): a line leaves a die's slices: its visitor copy, or at home the line itself. -/
def execL2Eviction (die line : Nat) (s : State) : Host.Outcome State Fault Refusal :=
  .next (if homeDie (128 * line) = die then homeEvict line s else if (visMetaOf s die line).isSome then visDrop die line s else s)

/-- EPOCH_SERVE_REQUEST (22 R423): a die serves an epoch of a partition that it has taken. -/
def execEpochServeRequest (die part epoch : Nat) (s : State) : Host.Outcome State Fault Refusal :=
  .next (if die < 4 ∧ epoch < tget (s.die die).ep part 0 then requestEpoch die part epoch s else s)

end Sys2Proof.Machine
end

