-- ==== Sys2Proof/Machine/Fabric.lean ====
section
/-! DEFINITION. The Ethernet ports and connections: inbound requests, answers to the device's own requests, errors, congestion
and flow control (26 R482 to R493, 27 R504), and the reset of a copy engine (11 R258, 12 R281). -/

namespace Sys2Proof.Machine

open Sys2Proof

/-- Packets of a message of `n` bytes on a connection (26 R485). -/
def Conn.packets (c : Conn) (n : Nat) : Nat := max 1 (ceilDiv n (128 * 2 ^ bitsAt c.ctx.toNat 52 3))

/-- A counter of a connection's port raised (26 R484): 0 sent, 8 received, 16 retransmitted, 24 NAKs received. -/
def countPort (k off n : Nat) (s : State) : State :=
  s.modPort (s.conn k).port fun p => { p with stat := bumpAt p.stat off n }

/-- A connection takes what arrives: it is enabled, not in error, its port has a link and its partition exists (26 R486). -/
def connTakes (s : State) (k : Nat) : Bool :=
  let c := s.conn k
  decide (k < 16384) && c.up && (s.port c.port).up && (s.part c.part).exist

/-- An answer sent on a connection. -/
def answer (k kind n : Nat) (bs : List Byte) (s : State) : State :=
  countPort k 0 ((s.conn k).packets n) { s with replies := s.replies ++ [{ kind := kind, conn := k, bytes := bs }] }

/-- A NAK is fatal: it is sent, and the connection enters error (26 R483, R486, R488). 1 is "remote access error", 2 "invalid
request", 3 "remote operational error". -/
def nak (k kind : Nat) (s : State) : State := errorConn k (answer k kind 0 [] s)

/-- An acknowledgement or a response. -/
def ack (k : Nat) (bs : List Byte) (s : State) : State := answer k 0 bs.length bs s

/-- An inbound message of `n` bytes in sequence: it wakes the package (23 R457) and advances the expected PSN (26 R488). -/
def inbound (k n : Nat) (s : State) : State :=
  let m := (s.conn k).packets n
  (countPort k 8 m (wake s)).modConn k fun c => { c with recvPsn := (c.recvPsn + m) % 2 ^ 24 }

/-- KIND of a remote key whose TAG is the partition's (26 R487); 0 for another. -/
def rkeyKind (s : State) (k rkey : Nat) : Nat :=
  if rkey % 2 ^ 28 = (s.part (s.conn k).part).reg 0x220 then bitsAt rkey 28 4 else 0

/-- The words of a register window request and whether it is well formed: 2 misaligned, 1 outside the window (26 R487). -/
def windowFault (kind addr n : Nat) : Nat :=
  if addr % 8 != 0 || n % 8 != 0 then 2 else if addr + n > (if kind = 1 then 2 ^ 18 else 4096) then 1 else 0

/-- A word of a window written, or read, by a partition's connection: another partition's queue ignores writes and reads zero (26
R487). -/
def windowWrite (kind p off v : Nat) (s : State) : State :=
  if kind = 1 then (if (s.queue (off / 64)).part = p then writeQueueReg (off / 64) (off % 64) v s else s)
  else (writePart true p off v s).2
def windowRead (kind p off : Nat) (s : State) : Nat :=
  if kind = 1 then (if (s.queue (off / 64)).part = p then readQueueReg s (off / 64) (off % 64) else 0) else readPart s p off

/-- Words written in ascending address. -/
def windowWrites (kind p : Nat) : List Nat → List Byte → State → State
  | [], _, s => s
  | a :: r, bs, s => windowWrites kind p r (bs.drop 8) (windowWrite kind p a (leNat (bs.take 8)) s)

/-- The device-memory places of an inbound request, or none where a walk or a permission fails (26 R487). -/
def inboundTargets (p : Nat) (kind : AccKind) (path : Option Nat) (addr n : Nat) (s : State) :
    Option (List (Nat × Acc × Nat)) × State :=
  if addr + n > 2 ^ 56 then (none, s) else ioTargets p kind path (pageRuns (n + 1) addr n) s

/-- RDMA_WRITE_IN (26 R487, R488). -/
def execRdmaWriteIn (conn rkey addr : Nat) (data : List Byte) (s : State) : Host.Outcome State Fault Refusal :=
  .next (
    if !connTakes s conn then s
    else
      let s := inbound conn data.length s
      let p := (s.conn conn).part
      let kind := rkeyKind s conn rkey
      if kind = 3 then
        (match inboundTargets p .write none addr data.length s with
        | (some l, s) => ack conn [] (ioWrite l data s)
        | (none, s) => nak conn 1 s)
      else if kind = 1 ∨ kind = 2 then
        (match windowFault kind addr data.length with
        | 0 => ack conn [] (windowWrites kind p ((List.range (data.length / 8)).map fun i => addr + 8 * i) data s)
        | n => nak conn n s)
      else nak conn 1 s)

/-- The bytes of places read at the home copies, and whether a line is poisoned. -/
def ioReads : List (Nat × Acc × Nat) → State → (List Byte × Bool) × State
  | [], s => (([], false), s)
  | (pa, a, n) :: r, s =>
    let s := (linesIn pa n).foldl (fun s l => homeTouch a l s) s
    let bad := (linesIn pa n).any fun l => (homeMetaOf s l).poison
    let bs := mgets s.dev.home pa n
    let ((bs', bad'), s) := ioReads r s
    ((bs ++ bs', bad || bad'), s)

/-- RDMA_READ_IN (26 R487, R488). -/
def execRdmaReadIn (conn rkey addr len : Nat) (s : State) : Host.Outcome State Fault Refusal :=
  .next (
    if !connTakes s conn then s
    else
      let s := inbound conn len s
      let p := (s.conn conn).part
      let kind := rkeyKind s conn rkey
      if kind = 3 then
        (match inboundTargets p .read none addr len s with
        | (some l, s) =>
          let ((bs, bad), s) := ioReads l s
          if bad then nak conn 3 s else ack conn bs s
        | (none, s) => nak conn 1 s)
      else if kind = 1 ∨ kind = 2 then
        (match windowFault kind addr len with
        | 0 => ack conn ((List.range (len / 8)).flatMap fun i => leBytes 8 (windowRead kind p (addr + 8 * i) s)) s
        | n => nak conn n s)
      else nak conn 1 s)

/-- SEND_DOORBELL_BATCH (26 R488). -/
def execSendDoorbellBatch (conn : Nat) (data : List Byte) (s : State) : Host.Outcome State Fault Refusal :=
  .next (
    if !connTakes s conn then s
    else
      let s := inbound conn data.length s
      let p := (s.conn conn).part
      let es := (List.range (data.length / 8)).map fun i => leNat ((data.drop (8 * i)).take 8)
      if data.length % 8 != 0 || data.length == 0 || decide (data.length > 64) || es.any (fun e => bitsAt e 12 20 != 0) then nak conn 2 s
      else ack conn [] (es.foldl (fun s e =>
        if (s.queue (e % 4096)).part = p then writeDoorbell (e % 4096) (e / 2 ^ 32) s else s) s))

/-- An inbound atomic on 64 bits, with the new value as a function of the old (26 R487, R491). -/
def inboundAtomic (conn rkey addr : Nat) (new : Nat → Nat) (s : State) : State :=
  if !connTakes s conn then s
  else
    let s := inbound conn 8 s
    let p := (s.conn conn).part
    let kind := rkeyKind s conn rkey
    if kind = 1 ∨ kind = 2 then nak conn 2 s
    else if kind ≠ 3 then nak conn 1 s
    else if addr % 8 ≠ 0 then nak conn 2 s
    else match inboundTargets p .rmw (some 59) addr 8 s with
      | (some l, s) =>
        let ((bs, bad), s) := ioReads l s
        if bad then nak conn 3 s else ack conn bs (ioWrite l (leBytes 8 (new (leNat bs))) s)
      | (none, s) => nak conn 1 s

/-- FETCH_ADD_IN and CMP_SWAP_IN (26 R491). -/
def execFetchAddIn (conn rkey addr value : Nat) (s : State) : Host.Outcome State Fault Refusal :=
  .next (inboundAtomic conn rkey addr (fun old => (old + value) % 2 ^ 64) s)
def execCmpSwapIn (conn rkey addr compare swap : Nat) (s : State) : Host.Outcome State Fault Refusal :=
  .next (inboundAtomic conn rkey addr (fun old => if old = compare then swap % 2 ^ 64 else old) s)

/-- An arrival in a landing area is counted, or held while the team is saved (27 R504). -/
def landArrival (p l team h off len : Nat) (poi : Bool) (s : State) : State :=
  match s.team? team with
  | some tm =>
    if tm.state == .saved then
      s.modPart p fun v => { v with pend := tput v.pend l (tget v.pend l [] ++ [(off, len, b2n poi)]) }
    else takeArrival team h off len poi s
  | none => s

/-- WRITE_IMM_LANDING (26 R483, R487, 27 R504). -/
def execWriteImmLanding (conn rkey addr imm : Nat) (data : List Byte) (s : State) : Host.Outcome State Fault Refusal :=
  .next (
    if !connTakes s conn then s
    else
      let s := inbound conn data.length s
      let p := (s.conn conn).part
      let l := bitsAt addr 40 4
      let off := bitsAt addr 0 40
      let kind := rkeyKind s conn rkey
      if 1 ≤ kind ∧ kind ≤ 3 then nak conn 2 s
      else if kind ≠ 4 then nak conn 1 s
      else match (tfind (s.part p).lands l).bind fun b => (routeAt s b.1 b.2).map fun r => (b, r) with
        | none => nak conn 1 s
        | some ((team, h), (tm, r)) =>
          let t := rtabOf r.snap
          if addr ≥ 2 ^ 44 ∨ off + data.length > t.landing then nak conn 1 s
          else if tm.state == .saved && decide ((tget (s.part p).pend l []).length ≥ 65535) then nak conn 3 s
          else match inboundTargets p .write none (baseOff t.obase + off) data.length s with
            | (some ts, s) => ack conn [] (landArrival p l team h off data.length (bitAt imm 31) (ioWrite ts data s))
            | (none, s) => nak conn 1 s)

/-- INVALID_REQUEST_IN (26 R483): an opcode that the device takes no part in. -/
def execInvalidRequestIn (conn opcode : Nat) (s : State) : Host.Outcome State Fault Refusal :=
  .next (if connTakes s conn && decide (opcode < 256) then nak conn 2 (inbound conn 0 s) else s)

/-- What an acknowledged message was for (26 R490, R493, 27 R508). -/
def deliver (m : Msg) (data : List Byte) (s : State) : State :=
  let received (core : Nat) (s : State) : State := match m.grid with | some g => countRecv g (dieOf core) s | none => s
  match m.what with
  | .record kind owner =>
    if kind = 0 then s.modPart owner fun v => { v with fqidx := v.fqidx + 1 }
    else if kind = 1 then s.modQueue owner fun v => { v with cqidx := v.cqidx + 1 }
    else s.modPart owner fun v => { v with dbgqidx := v.dbgqidx + 1 }
  | .command core k n =>
    let s := received core s
    if m.op = 2 then gotBytes core k m.va data s
    else if m.op ≥ 3 then gotAtomic core k data s
    else ackPositions core k n s
  | .route team _ => match s.team? team with | some tm => received tm.core s | none => s

/-- The request that a connection waits for: the oldest, sent while its priority is not paused (26 R482, R486). -/
def outstanding (s : State) (k : Nat) : Option Msg :=
  let c := s.conn k
  if connTakes s k && !(s.port c.port).paused.contains (bitsAt c.ctx.toNat 120 3) then c.queue.head? else none

/-- The bytes that an answer to a message carries. -/
def Msg.answerLen (m : Msg) : Nat := if m.op = 2 then m.len else if m.op ≥ 3 then 8 else 0

/-- FABRIC_RESPONSE (26 R490, R493): the oldest request of a connection is acknowledged or answered. -/
def execFabricResponse (conn : Nat) (data : List Byte) (s : State) : Host.Outcome State Fault Refusal :=
  .next (
    match outstanding s conn with
    | none => s
    | some m =>
      if data.length ≠ m.answerLen then s
      else
        let n := (s.conn conn).packets m.len
        let s := countPort conn 8 ((s.conn conn).packets data.length) (countPort conn 0 n s)
        let s := s.modConn conn fun c => { c with queue := c.queue.drop 1, retries := 0, since := s.pkg.us, sendPsn := (c.sendPsn + n) % 2 ^ 24 }
        deliver m data s)

/-- The ack timeout of a connection has passed on the reference clock: 4.096 us x 2^TIMEOUT since its oldest unacknowledged request
was sent, or sent again (26 R485, 00 R4). -/
def ackExpired (s : State) (conn : Nat) : Bool :=
  let c := s.conn conn
  (outstanding s conn).isSome && decide (4096 * 2 ^ bitsAt c.ctx.toNat 44 5 ≤ 1000 * (s.pkg.us - c.since))

/-- An ack timeout: the request is sent again, or retries are exhausted (26 R485, R486). -/
def ackTimeout (conn : Nat) (s : State) : State :=
  match outstanding s conn with
  | none => s
  | some m =>
    let c := s.conn conn
    if !ackExpired s conn then s
    else if c.retries ≥ bitsAt c.ctx.toNat 49 3 then errorConn conn s
    else (countPort conn 16 (c.packets m.len) s).modConn conn fun c => { c with retries := c.retries + 1, since := s.pkg.us }

/-- ACK_TIMEOUT (26 R485, R486). -/
def execAckTimeout (conn : Nat) (s : State) : Host.Outcome State Fault Refusal := .next (ackTimeout conn s)

/-- RDMA_NAK_RECEIVED (26 R486, R492): kinds 1 to 3 are fatal, and any other asks for the request again. -/
def execRdmaNakReceived (conn kind : Nat) (s : State) : Host.Outcome State Fault Refusal :=
  .next (
    match outstanding s conn with
    | none => s
    | some m =>
      let s := countPort conn 24 1 s
      if 1 ≤ kind ∧ kind ≤ 3 then errorConn conn s
      else countPort conn 16 ((s.conn conn).packets m.len) (s.modConn conn fun c => { c with since := s.pkg.us }))

/-- CNP_RECEIVED (26 R482): the connection's rate is halved. -/
def execCnpReceived (conn : Nat) (s : State) : Host.Outcome State Fault Refusal :=
  .next (if connTakes s conn then s.modConn conn fun c => { c with rate := max 1 (c.rate / 2) } else s)

/-- A packet marked for congestion is answered with a congestion notification (26 R482). -/
def marked (conn : Nat) (s : State) : State := if connTakes s conn then answer conn 5 0 [] s else s

/-- PFC_PAUSE_FRAME (26 R482). -/
def execPfcPauseFrame (port priority : Nat) (pause : Bool) (s : State) : Host.Outcome State Fault Refusal :=
  .next (if port < 8 ∧ priority < 8 then s.modPort port fun p =>
      { p with paused := if pause then nadd p.paused priority else ndel p.paused priority }
    else s)

/-- PORT_LINK_STATE_CHANGE (26 R482). -/
def execPortLinkStateChange (port : Nat) (up : Bool) (s : State) : Host.Outcome State Fault Refusal :=
  .next (if port < 8 then s.modPort port fun p => { p with up := up } else s)

/-- ENGINE_RESET (11 R258, 12 R281): open brackets abort with reason RESET, and commands that the engine has begun fail with
reason 0x04. -/
def execEngineReset (core : Nat) (s : State) : Host.Outcome State Fault Refusal :=
  .next (
    let s := (s.teamsOn core).foldl (fun s e => if e.2.resident then abortTx e.1 4 0 s else s) s
    let ks := ((s.core core).cmds.filter fun e => e.2.state != .queued).map (·.1)
    ks.foldl (fun s k => failCmd core k 4 s) s)

/-- One us of the reference clock (00 R4): the queues' and grids' timers, the rates of connections, which recover within 1 ms (26
R482), and the ack timeouts that are due (26 R485). -/
def tickMicro (s : State) : State :=
  let queues := s.queues.map (tickQueue s)
  let grids := s.grids.map (tickProgress s)
  let us := s.pkg.us + 1
  let faster (c : Conn) : Conn := if us % 4 = 0 ∧ c.rate < 256 then { c with rate := c.rate + 1 } else c
  let s := { s with queues := queues, grids := grids, conns := s.conns.map fun e => (e.1, faster e.2), pkg := { s.pkg with us := us } }
  (tkeys s.conns).foldl (fun s k => ackTimeout k s) s

end Sys2Proof.Machine
end

