-- ==== Sys2Proof/Machine/Int.lean ====
section
/-! DEFINITION. The meanings of the integer, address and bit instructions (04 R85 to R103). -/

namespace Sys2Proof.Machine

open Sys2Proof

/-- SAT and U of the A64 additions (04 R87). -/
def Ctx.sat (c : Ctx) : Bool := c.m 8
def Ctx.u (c : Ctx) : Bool := c.m 9

/-- IADD, A64 (04 R90). -/
def execIaddA64 (f : FA64) (s : State) : Host.Outcome State Fault Refusal :=
  issueEach (.iaddA64 f) (put32 fun c => narrow 32 c.sat c.u (intOf c.u c.va + intOf c.u c.vb)) s
/-- IADD, I64 (04 R90). -/
def execIaddI64 (f : FI64) (s : State) : Host.Outcome State Fault Refusal :=
  issueEach (.iaddI64 f) (put32 fun c => c.va + c.k20) s
/-- IADD, C64 (04 R90). -/
def execIaddC64 (f : FC64) (s : State) : Host.Outcome State Fault Refusal :=
  issueEach (.iaddC64 f) (putK fun c k => narrow 32 (c.m 4) (c.m 3) (intOf (c.m 3) c.va + intOf (c.m 3) k)) s
/-- IADD, I96 (04 R90). -/
def execIaddI96 (f : FI96) (s : State) : Host.Outcome State Fault Refusal :=
  issueEach (.iaddI96 f) (put32 fun c => c.va + c.lit) s
/-- ISUB (04 R90). -/
def execIsub (f : FA64) (s : State) : Host.Outcome State Fault Refusal :=
  issueEach (.isub f) (put32 fun c => narrow 32 c.sat c.u (intOf c.u c.va - intOf c.u c.vb)) s
/-- IADDC: the carry out (04 R91). -/
def execIaddc (f : FA64) (s : State) : Host.Outcome State Fault Refusal :=
  issueEach (.iaddc f) (put32 fun c => carryOut c.va c.vb (c.m 0 && c.vd.getLsbD 0)) s

/-- An operand of IADD3 under its negation (04 R90). -/
def negIf (n : Bool) (x : Word) : Word := if n then -x else x
/-- IADD3 (04 R90). -/
def execIadd3 (f : FA96) (s : State) : Host.Outcome State Fault Refusal :=
  issueEach (.iadd3 f) (put32 fun c => negIf (c.m 3) c.va + negIf (c.m 5) c.vb + negIf (c.m 10) c.vc) s
/-- IADD64 (04 R90). -/
def execIadd64 (f : FA64) (s : State) : Host.Outcome State Fault Refusal :=
  issueEach (.iadd64 f) (put64 fun c => narrow 64 c.sat c.u (intOf c.u (c.p c.f.va) + intOf c.u (c.p c.f.vb))) s
/-- ISUB64 (04 R90). -/
def execIsub64 (f : FA64) (s : State) : Host.Outcome State Fault Refusal :=
  issueEach (.isub64 f) (put64 fun c => narrow 64 c.sat c.u (intOf c.u (c.p c.f.va) - intOf c.u (c.p c.f.vb))) s
/-- IABS (04 R90). -/
def execIabs (f : FA64) (s : State) : Host.Outcome State Fault Refusal :=
  issueEach (.iabs f) (put32 fun c => narrow 32 c.sat false (c.va.toInt.natAbs : Int)) s
/-- INEG (04 R90). -/
def execIneg (f : FA64) (s : State) : Host.Outcome State Fault Refusal :=
  issueEach (.ineg f) (put32 fun c => narrow 32 c.sat false (-c.va.toInt)) s

/-- IMUL, A64 (04 R92). -/
def execImulA64 (f : FA64) (s : State) : Host.Outcome State Fault Refusal :=
  issueEach (.imulA64 f) (put32 fun c => c.va * c.vb) s
/-- IMUL, I64 (04 R92). -/
def execImulI64 (f : FI64) (s : State) : Host.Outcome State Fault Refusal :=
  issueEach (.imulI64 f) (put32 fun c => c.va * c.k20) s
/-- IMUL, C64 (04 R92). -/
def execImulC64 (f : FC64) (s : State) : Host.Outcome State Fault Refusal :=
  issueEach (.imulC64 f) (putK fun c k => c.va * k) s
/-- IMUL, I96 (04 R92). -/
def execImulI96 (f : FI96) (s : State) : Host.Outcome State Fault Refusal :=
  issueEach (.imulI96 f) (put32 fun c => c.va * c.lit) s
/-- IMULH (04 R92). -/
def execImulh (f : FA64) (s : State) : Host.Outcome State Fault Refusal :=
  issueEach (.imulh f) (put32 fun c => wrap32 (intOf c.u c.va * intOf c.u c.vb / (2 ^ 32 : Nat))) s
/-- IMULW (04 R92). -/
def execImulw (f : FA64) (s : State) : Host.Outcome State Fault Refusal :=
  issueEach (.imulw f) (put64 fun c => wrap64 (intOf c.u c.va * intOf c.u c.vb)) s
/-- IMAD, A96 (04 R92). -/
def execImadA96 (f : FA96) (s : State) : Host.Outcome State Fault Refusal :=
  issueEach (.imadA96 f) (put32 fun c => c.va * c.vb + c.vc) s
/-- IMAD, I64, tied (04 R88, R92). -/
def execImadI64 (f : FI64) (s : State) : Host.Outcome State Fault Refusal :=
  issueEach (.imadI64 f) (put32 fun c => c.vd * c.va + c.k20) s
/-- IMAD, C64, tied (04 R88, R92). -/
def execImadC64 (f : FC64) (s : State) : Host.Outcome State Fault Refusal :=
  issueEach (.imadC64 f) (putK fun c k => c.vd * c.va + k) s
/-- IMAD, I96 (04 R88, R92). -/
def execImadI96 (f : FI96) (s : State) : Host.Outcome State Fault Refusal :=
  issueEach (.imadI96 f) (put32 fun c => c.va * c.vb + c.lit) s
/-- IMADW (04 R92). -/
def execImadw (f : FA96) (s : State) : Host.Outcome State Fault Refusal :=
  issueEach (.imadw f) (put64 fun c => wrap64 (intOf c.u c.va * intOf c.u c.vb + intOf c.u (c.p c.f.vc))) s

/-- IMIN, A64 (04 R93). -/
def execIminA64 (f : FA64) (s : State) : Host.Outcome State Fault Refusal :=
  issueEach (.iminA64 f) (put32 fun c => wrap32 (min (intOf c.u c.va) (intOf c.u c.vb))) s
/-- IMIN, I64 (04 R93). -/
def execIminI64 (f : FI64) (s : State) : Host.Outcome State Fault Refusal :=
  issueEach (.iminI64 f) (put32 fun c => wrap32 (min (intOf (c.m 0) c.va) (intOf (c.m 0) c.k20))) s
/-- IMAX, A64 (04 R93). -/
def execImaxA64 (f : FA64) (s : State) : Host.Outcome State Fault Refusal :=
  issueEach (.imaxA64 f) (put32 fun c => wrap32 (max (intOf c.u c.va) (intOf c.u c.vb))) s
/-- IMAX, I64 (04 R93). -/
def execImaxI64 (f : FI64) (s : State) : Host.Outcome State Fault Refusal :=
  issueEach (.imaxI64 f) (put32 fun c => wrap32 (max (intOf (c.m 0) c.va) (intOf (c.m 0) c.k20))) s
/-- ICLAMP (04 R93). -/
def execIclamp (f : FA96) (s : State) : Host.Outcome State Fault Refusal :=
  issueEach (.iclamp f) (put32 fun c => wrap32 (min (max (intOf c.u c.va) (intOf c.u c.vb)) (intOf c.u c.vc))) s
/-- ICMP, A64 (04 R93). -/
def execIcmpA64 (f : FA64) (s : State) : Host.Outcome State Fault Refusal :=
  issueEach (.icmpA64 f) (put32 fun c => bool32 (cmpInt (bitsAt c.f.mod 0 3) (intOf c.u c.va) (intOf c.u c.vb))) s
/-- ICMP, C64 (04 R93). -/
def execIcmpC64 (f : FC64) (s : State) : Host.Outcome State Fault Refusal :=
  issueEach (.icmpC64 f) (putK fun c k => bool32 (cmpInt (bitsAt c.f.mod 0 3) (intOf (c.m 3) c.va) (intOf (c.m 3) k))) s
/-- ICMP64 (04 R93). -/
def execIcmp64 (f : FA64) (s : State) : Host.Outcome State Fault Refusal :=
  issueEach (.icmp64 f)
    (put32 fun c => bool32 (cmpInt (bitsAt c.f.mod 0 3) (intOf c.u (c.p c.f.va)) (intOf c.u (c.p c.f.vb)))) s
/-- SEL (04 R93). -/
def execSel (f : FA96) (s : State) : Host.Outcome State Fault Refusal :=
  issueEach (.sel f) (put32 fun c => if c.vc.getLsbD 0 then c.va else c.vb) s

/-- LOP, A64 (04 R94). -/
def execLopA64 (f : FA64) (s : State) : Host.Outcome State Fault Refusal :=
  issueEach (.lopA64 f) (put32 fun c => logic (bitsAt c.f.mod 0 2) c.va c.vb) s
/-- LOP, I64 (04 R94). -/
def execLopI64 (f : FI64) (s : State) : Host.Outcome State Fault Refusal :=
  issueEach (.lopI64 f) (put32 fun c => logic (bitsAt c.f.mod 0 2) c.va c.k20) s
/-- LOP, C64 (04 R94). -/
def execLopC64 (f : FC64) (s : State) : Host.Outcome State Fault Refusal :=
  issueEach (.lopC64 f) (putK fun c k => logic (bitsAt c.f.mod 0 2) c.va k) s
/-- LOP, I96 (04 R94). -/
def execLopI96 (f : FI96) (s : State) : Host.Outcome State Fault Refusal :=
  issueEach (.lopI96 f) (put32 fun c => logic (bitsAt c.f.mod 0 2) c.va c.lit) s
/-- LUT3 (04 R94). -/
def execLut3 (f : FA96) (s : State) : Host.Outcome State Fault Refusal :=
  issueEach (.lut3 f) (put32 fun c => lut3 (bitsAt c.f.mod 10 8) c.va c.vb c.vc) s

/-- SHL, A64 (04 R95). -/
def execShlA64 (f : FA64) (s : State) : Host.Outcome State Fault Refusal :=
  issueEach (.shlA64 f) (put32 fun c => shlW c.va c.vb.toNat) s
/-- SHL, I64 (04 R95). -/
def execShlI64 (f : FI64) (s : State) : Host.Outcome State Fault Refusal :=
  issueEach (.shlI64 f) (put32 fun c => shlW c.va c.f.imm) s
/-- SHR, A64 (04 R95). -/
def execShrA64 (f : FA64) (s : State) : Host.Outcome State Fault Refusal :=
  issueEach (.shrA64 f) (put32 fun c => if c.u then shrU c.va c.vb.toNat else shrS c.va c.vb.toNat) s
/-- SHR, I64 (04 R95). -/
def execShrI64 (f : FI64) (s : State) : Host.Outcome State Fault Refusal :=
  issueEach (.shrI64 f) (put32 fun c => if c.m 0 then shrU c.va c.f.imm else shrS c.va c.f.imm) s
/-- ROL, A64 (04 R95). -/
def execRolA64 (f : FA64) (s : State) : Host.Outcome State Fault Refusal :=
  issueEach (.rolA64 f) (put32 fun c => rolW c.va c.vb.toNat) s
/-- ROL, I64 (04 R95). -/
def execRolI64 (f : FI64) (s : State) : Host.Outcome State Fault Refusal :=
  issueEach (.rolI64 f) (put32 fun c => rolW c.va c.f.imm) s
/-- ROR, A64 (04 R95). -/
def execRorA64 (f : FA64) (s : State) : Host.Outcome State Fault Refusal :=
  issueEach (.rorA64 f) (put32 fun c => rorW c.va c.vb.toNat) s
/-- ROR, I64 (04 R95). -/
def execRorI64 (f : FI64) (s : State) : Host.Outcome State Fault Refusal :=
  issueEach (.rorI64 f) (put32 fun c => rorW c.va c.f.imm) s
/-- FSHL (04 R96). -/
def execFshl (f : FA96) (s : State) : Host.Outcome State Fault Refusal :=
  issueEach (.fshl f) (put32 fun c => fshl c.va c.vb (funnelN (c.m 0) c.vc)) s
/-- FSHR (04 R96). -/
def execFshr (f : FA96) (s : State) : Host.Outcome State Fault Refusal :=
  issueEach (.fshr f) (put32 fun c => fshr c.va c.vb (funnelN (c.m 0) c.vc)) s

/-- BFE (04 R97). -/
def execBfe (f : FA64) (s : State) : Host.Outcome State Fault Refusal :=
  issueEach (.bfe f) (put32 fun c => bfe c.u c.va (c.vb.toNat % 256) (fieldLen (c.vb.toNat / 256))) s
/-- BFI (04 R97). -/
def execBfi (f : FA96) (s : State) : Host.Outcome State Fault Refusal :=
  issueEach (.bfi f) (put32 fun c => bfi c.va c.vb (c.vc.toNat % 256) (fieldLen (c.vc.toNat / 256))) s
/-- BMSK (04 R97). -/
def execBmsk (f : FA64) (s : State) : Host.Outcome State Fault Refusal :=
  issueEach (.bmsk f) (put32 fun c => fieldMask (c.va.toNat % 256) (fieldLen c.vb.toNat)) s
/-- The operand of a bit count: VA or its pair, with its width (04 R98). -/
def Ctx.wide (c : Ctx) : Nat × Nat := if c.m 7 then (64, (c.p c.f.va).toNat) else (32, c.va.toNat)
/-- POPC (04 R98). -/
def execPopc (f : FA64) (s : State) : Host.Outcome State Fault Refusal :=
  issueEach (.popc f) (put32 fun c => BitVec.ofNat 32 (popcount c.wide.1 c.wide.2)) s
/-- CLZ (04 R98). -/
def execClz (f : FA64) (s : State) : Host.Outcome State Fault Refusal :=
  issueEach (.clz f) (put32 fun c => BitVec.ofNat 32 (clz c.wide.1 c.wide.2)) s
/-- CTZ (04 R98). -/
def execCtz (f : FA64) (s : State) : Host.Outcome State Fault Refusal :=
  issueEach (.ctz f) (put32 fun c => BitVec.ofNat 32 (ctz c.wide.1 c.wide.2)) s
/-- BREV (04 R98). -/
def execBrev (f : FA64) (s : State) : Host.Outcome State Fault Refusal :=
  issueEach (.brev f) (fun c s => .ok (if c.m 7 then c.putP (brev (c.p c.f.va)) s else c.put (brev c.va) s)) s
/-- BSEL (04 R99). -/
def execBsel (f : FA96) (s : State) : Host.Outcome State Fault Refusal :=
  issueEach (.bsel f) (put32 fun c => bsel c.va c.vb c.vc) s

/-- LEA (04 R100). -/
def execLea (f : FA64) (s : State) : Host.Outcome State Fault Refusal :=
  issueEach (.lea f) (fun c s =>
    let k : Int := intOf c.u c.vb * (2 ^ bitsAt c.f.mod 0 3 : Nat)
    .ok (if c.m 7 then c.putP (wrap64 ((c.p c.f.va).toNat + k)) s else c.put (wrap32 (c.va.toNat + k)) s)) s
/-- IDOT (04 R101). -/
def execIdot (f : FA96) (s : State) : Host.Outcome State Fault Refusal :=
  issueEach (.idot f) (put32 fun c => narrow 32 c.sat false (idot (bitsAt c.f.mod 0 3) c.u (c.m 6) c.va c.vb c.vc)) s
/-- SAD (04 R101). -/
def execSad (f : FA96) (s : State) : Host.Outcome State Fault Refusal :=
  issueEach (.sad f) (put32 fun c => wrap32 (sad (bitsAt c.f.mod 0 3) c.u c.va c.vb c.vc)) s
/-- MOV, A64 (04 R102). -/
def execMovA64 (f : FA64) (s : State) : Host.Outcome State Fault Refusal :=
  issueEach (.movA64 f) (fun c s => .ok (if c.m 7 then c.putP (c.p c.f.va) s else c.put c.va s)) s
/-- MOV, I64 (04 R102). -/
def execMovI64 (f : FI64) (s : State) : Host.Outcome State Fault Refusal :=
  issueEach (.movI64 f) (put32 fun c => c.k20) s
/-- MOV, C64 (04 R102). -/
def execMovC64 (f : FC64) (s : State) : Host.Outcome State Fault Refusal :=
  issueEach (.movC64 f) (putK fun _ k => k) s
/-- MOV, I96 (04 R102). -/
def execMovI96 (f : FI96) (s : State) : Host.Outcome State Fault Refusal :=
  issueEach (.movI96 f) (put32 fun c => c.lit) s

/-- ICVT (04 R103): decode in the source format, narrow to the destination, extend by its signedness. -/
def execIcvt (f : FA64) (s : State) : Host.Outcome State Fault Refusal :=
  issueEach (.icvt f) (fun c s =>
    let src := bitsAt c.f.mod 4 4
    let dst := bitsAt c.f.mod 0 4
    let x := if 9 ≤ src then intDecode src (c.p c.f.va).toNat else intDecode src c.va.toNat
    let y := intEncode dst (c.m 8) x
    .ok (if 9 ≤ dst then c.putP (wrap64 y) s else c.put (wrap32 y) s)) s

end Sys2Proof.Machine
end

