-- ==== Sys2Proof/Machine/Dispatch.lean ====
section
/-! DEFINITION. The meaning of every row of the opcode table, one arm per constructor of Instr. -/

namespace Sys2Proof.Machine

open Sys2Proof

def exec (i : Instr) (s : State) : Host.Outcome State Fault Refusal :=
  match i with
  | .iaddA64 f => Sys2Proof.Machine.execIaddA64 f s
  | .iaddI64 f => Sys2Proof.Machine.execIaddI64 f s
  | .iaddC64 f => Sys2Proof.Machine.execIaddC64 f s
  | .iaddI96 f => Sys2Proof.Machine.execIaddI96 f s
  | .isub f => Sys2Proof.Machine.execIsub f s
  | .iaddc f => Sys2Proof.Machine.execIaddc f s
  | .iadd3 f => Sys2Proof.Machine.execIadd3 f s
  | .iadd64 f => Sys2Proof.Machine.execIadd64 f s
  | .isub64 f => Sys2Proof.Machine.execIsub64 f s
  | .iabs f => Sys2Proof.Machine.execIabs f s
  | .ineg f => Sys2Proof.Machine.execIneg f s
  | .imulA64 f => Sys2Proof.Machine.execImulA64 f s
  | .imulI64 f => Sys2Proof.Machine.execImulI64 f s
  | .imulC64 f => Sys2Proof.Machine.execImulC64 f s
  | .imulI96 f => Sys2Proof.Machine.execImulI96 f s
  | .imulh f => Sys2Proof.Machine.execImulh f s
  | .imulw f => Sys2Proof.Machine.execImulw f s
  | .imadA96 f => Sys2Proof.Machine.execImadA96 f s
  | .imadI64 f => Sys2Proof.Machine.execImadI64 f s
  | .imadC64 f => Sys2Proof.Machine.execImadC64 f s
  | .imadI96 f => Sys2Proof.Machine.execImadI96 f s
  | .imadw f => Sys2Proof.Machine.execImadw f s
  | .iminA64 f => Sys2Proof.Machine.execIminA64 f s
  | .iminI64 f => Sys2Proof.Machine.execIminI64 f s
  | .imaxA64 f => Sys2Proof.Machine.execImaxA64 f s
  | .imaxI64 f => Sys2Proof.Machine.execImaxI64 f s
  | .iclamp f => Sys2Proof.Machine.execIclamp f s
  | .icmpA64 f => Sys2Proof.Machine.execIcmpA64 f s
  | .icmpC64 f => Sys2Proof.Machine.execIcmpC64 f s
  | .icmp64 f => Sys2Proof.Machine.execIcmp64 f s
  | .sel f => Sys2Proof.Machine.execSel f s
  | .lopA64 f => Sys2Proof.Machine.execLopA64 f s
  | .lopI64 f => Sys2Proof.Machine.execLopI64 f s
  | .lopC64 f => Sys2Proof.Machine.execLopC64 f s
  | .lopI96 f => Sys2Proof.Machine.execLopI96 f s
  | .lut3 f => Sys2Proof.Machine.execLut3 f s
  | .shlA64 f => Sys2Proof.Machine.execShlA64 f s
  | .shlI64 f => Sys2Proof.Machine.execShlI64 f s
  | .shrA64 f => Sys2Proof.Machine.execShrA64 f s
  | .shrI64 f => Sys2Proof.Machine.execShrI64 f s
  | .rolA64 f => Sys2Proof.Machine.execRolA64 f s
  | .rolI64 f => Sys2Proof.Machine.execRolI64 f s
  | .rorA64 f => Sys2Proof.Machine.execRorA64 f s
  | .rorI64 f => Sys2Proof.Machine.execRorI64 f s
  | .fshl f => Sys2Proof.Machine.execFshl f s
  | .fshr f => Sys2Proof.Machine.execFshr f s
  | .bfe f => Sys2Proof.Machine.execBfe f s
  | .bfi f => Sys2Proof.Machine.execBfi f s
  | .bmsk f => Sys2Proof.Machine.execBmsk f s
  | .popc f => Sys2Proof.Machine.execPopc f s
  | .clz f => Sys2Proof.Machine.execClz f s
  | .ctz f => Sys2Proof.Machine.execCtz f s
  | .brev f => Sys2Proof.Machine.execBrev f s
  | .bsel f => Sys2Proof.Machine.execBsel f s
  | .lea f => Sys2Proof.Machine.execLea f s
  | .idot f => Sys2Proof.Machine.execIdot f s
  | .sad f => Sys2Proof.Machine.execSad f s
  | .movA64 f => Sys2Proof.Machine.execMovA64 f s
  | .movI64 f => Sys2Proof.Machine.execMovI64 f s
  | .movC64 f => Sys2Proof.Machine.execMovC64 f s
  | .movI96 f => Sys2Proof.Machine.execMovI96 f s
  | .icvt f => Sys2Proof.Machine.execIcvt f s
  | .faddA64 f => Sys2Proof.Machine.execFaddA64 f s
  | .faddI64 f => Sys2Proof.Machine.execFaddI64 f s
  | .faddC64 f => Sys2Proof.Machine.execFaddC64 f s
  | .faddI96 f => Sys2Proof.Machine.execFaddI96 f s
  | .fsub f => Sys2Proof.Machine.execFsub f s
  | .fmulA64 f => Sys2Proof.Machine.execFmulA64 f s
  | .fmulI64 f => Sys2Proof.Machine.execFmulI64 f s
  | .fmulC64 f => Sys2Proof.Machine.execFmulC64 f s
  | .fmulI96 f => Sys2Proof.Machine.execFmulI96 f s
  | .ffmaA96 f => Sys2Proof.Machine.execFfmaA96 f s
  | .ffmaI64 f => Sys2Proof.Machine.execFfmaI64 f s
  | .ffmaC64 f => Sys2Proof.Machine.execFfmaC64 f s
  | .ffmaI96 f => Sys2Proof.Machine.execFfmaI96 f s
  | .daddA64 f => Sys2Proof.Machine.execDaddA64 f s
  | .daddC64 f => Sys2Proof.Machine.execDaddC64 f s
  | .dsub f => Sys2Proof.Machine.execDsub f s
  | .dmulA64 f => Sys2Proof.Machine.execDmulA64 f s
  | .dmulC64 f => Sys2Proof.Machine.execDmulC64 f s
  | .dfmaA96 f => Sys2Proof.Machine.execDfmaA96 f s
  | .dfmaC64 f => Sys2Proof.Machine.execDfmaC64 f s
  | .fminA64 f => Sys2Proof.Machine.execFminA64 f s
  | .fminI64 f => Sys2Proof.Machine.execFminI64 f s
  | .fminC64 f => Sys2Proof.Machine.execFminC64 f s
  | .fmaxA64 f => Sys2Proof.Machine.execFmaxA64 f s
  | .fmaxI64 f => Sys2Proof.Machine.execFmaxI64 f s
  | .fmaxC64 f => Sys2Proof.Machine.execFmaxC64 f s
  | .dmin f => Sys2Proof.Machine.execDmin f s
  | .dmax f => Sys2Proof.Machine.execDmax f s
  | .fcmpA64 f => Sys2Proof.Machine.execFcmpA64 f s
  | .fcmpC64 f => Sys2Proof.Machine.execFcmpC64 f s
  | .dcmp f => Sys2Proof.Machine.execDcmp f s
  | .fclass f => Sys2Proof.Machine.execFclass f s
  | .dclass f => Sys2Proof.Machine.execDclass f s
  | .frnd f => Sys2Proof.Machine.execFrnd f s
  | .drnd f => Sys2Proof.Machine.execDrnd f s
  | .fscale f => Sys2Proof.Machine.execFscale f s
  | .dscale f => Sys2Proof.Machine.execDscale f s
  | .frcp f => Sys2Proof.Machine.execFrcp f s
  | .frsq f => Sys2Proof.Machine.execFrsq f s
  | .fsqrt f => Sys2Proof.Machine.execFsqrt f s
  | .fdiv f => Sys2Proof.Machine.execFdiv f s
  | .fexp2 f => Sys2Proof.Machine.execFexp2 f s
  | .flog2 f => Sys2Proof.Machine.execFlog2 f s
  | .fsin f => Sys2Proof.Machine.execFsin f s
  | .fcos f => Sys2Proof.Machine.execFcos f s
  | .hadd2 f => Sys2Proof.Machine.execHadd2 f s
  | .hmul2 f => Sys2Proof.Machine.execHmul2 f s
  | .hfma2 f => Sys2Proof.Machine.execHfma2 f s
  | .hmin2 f => Sys2Proof.Machine.execHmin2 f s
  | .hmax2 f => Sys2Proof.Machine.execHmax2 f s
  | .hcmp2 f => Sys2Proof.Machine.execHcmp2 f s
  | .hdot2 f => Sys2Proof.Machine.execHdot2 f s
  | .fcvt f => Sys2Proof.Machine.execFcvt f s
  | .f2i f => Sys2Proof.Machine.execF2i f s
  | .i2f f => Sys2Proof.Machine.execI2f f s
  | .mfpack f => Sys2Proof.Machine.execMfpack f s
  | .mfunpack f => Sys2Proof.Machine.execMfunpack f s
  | .bra f => Sys2Proof.Machine.execBra f s
  | .call f => Sys2Proof.Machine.execCall f s
  | .brx f => Sys2Proof.Machine.execBrx f s
  | .callx f => Sys2Proof.Machine.execCallx f s
  | .ret f => Sys2Proof.Machine.execRet f s
  | .exit f => Sys2Proof.Machine.execExit f s
  | .nop f => Sys2Proof.Machine.execNop f s
  | .gets f => Sys2Proof.Machine.execGets f s
  | .sets f => Sys2Proof.Machine.execSets f s
  | .icinv f => Sys2Proof.Machine.execIcinv f s
  | .eret f => Sys2Proof.Machine.execEret f s
  | .bkpt f => Sys2Proof.Machine.execBkpt f s
  | .trap f => Sys2Proof.Machine.execTrap f s
  | .sleep f => Sys2Proof.Machine.execSleep f s
  | .adr f => Sys2Proof.Machine.execAdr f s
  | .lds f => Sys2Proof.Machine.execLds f s
  | .ldsNarrow f => Sys2Proof.Machine.execLdsNarrow f s
  | .sts f => Sys2Proof.Machine.execSts f s
  | .stsNarrow f => Sys2Proof.Machine.execStsNarrow f s
  | .ldc f => Sys2Proof.Machine.execLdc f s
  | .ldcB64 f => Sys2Proof.Machine.execLdcB64 f s
  | .ldp f => Sys2Proof.Machine.execLdp f s
  | .stp f => Sys2Proof.Machine.execStp f s
  | .binit f => Sys2Proof.Machine.execBinit f s
  | .bexp f => Sys2Proof.Machine.execBexp f s
  | .barr f => Sys2Proof.Machine.execBarr f s
  | .bwait f => Sys2Proof.Machine.execBwait f s
  | .btry f => Sys2Proof.Machine.execBtry f s
  | .shfl f => Sys2Proof.Machine.execShfl f s
  | .vote f => Sys2Proof.Machine.execVote f s
  | .redw f => Sys2Proof.Machine.execRedw f s
  | .scanw f => Sys2Proof.Machine.execScanw f s
  | .matchL f => Sys2Proof.Machine.execMatchL f s
  | .bar f => Sys2Proof.Machine.execBar f s
  | .fences f => Sys2Proof.Machine.execFences f s
  | .atoms f => Sys2Proof.Machine.execAtoms f s
  | .cass f => Sys2Proof.Machine.execCass f s
  | .atomp f => Sys2Proof.Machine.execAtomp f s
  | .barc f => Sys2Proof.Machine.execBarc f s
  | .cfence f => Sys2Proof.Machine.execCfence f s
  | .xbegin f => Sys2Proof.Machine.execXbegin f s
  | .xcommit f => Sys2Proof.Machine.execXcommit f s
  | .xabort f => Sys2Proof.Machine.execXabort f s
  | .xstat f => Sys2Proof.Machine.execXstat f s
  | .tlead f => Sys2Proof.Machine.execTlead f s
  | .targ f => Sys2Proof.Machine.execTarg f s
  | .tdep f => Sys2Proof.Machine.execTdep f s
  | .tqry f => Sys2Proof.Machine.execTqry f s
  | .trace f => Sys2Proof.Machine.execTrace f s
  | .tzero f => Sys2Proof.Machine.execTzero f s
  | .tload f => Sys2Proof.Machine.execTload f s
  | .tstore f => Sys2Proof.Machine.execTstore f s
  | .tmovvRead f => Sys2Proof.Machine.execTmovvRead f s
  | .tmovvWrite f => Sys2Proof.Machine.execTmovvWrite f s
  | .tmov f => Sys2Proof.Machine.execTmov f s
  | .ttag f => Sys2Proof.Machine.execTtag f s
  | .tstat f => Sys2Proof.Machine.execTstat f s
  | .tfmt f => Sys2Proof.Machine.execTfmt f s
  | .tcvt f => Sys2Proof.Machine.execTcvt f s
  | .tscale f => Sys2Proof.Machine.execTscale f s
  | .tchk f => Sys2Proof.Machine.execTchk f s
  | .mma f => Sys2Proof.Machine.execMma f s
  | .mmac f => Sys2Proof.Machine.execMmac f s
  | .mmaG f => Sys2Proof.Machine.execMmaG f s
  | .mmacG f => Sys2Proof.Machine.execMmacG f s
  | .drainS f => Sys2Proof.Machine.execDrainS f s
  | .drainH f => Sys2Proof.Machine.execDrainH f s
  | .drainRoute f => Sys2Proof.Machine.execDrainRoute f s
  | .seal f => Sys2Proof.Machine.execSeal f s
  | .unseal f => Sys2Proof.Machine.execUnseal f s
  | .cpy f => Sys2Proof.Machine.execCpy f s
  | .cpyg f => Sys2Proof.Machine.execCpyg f s
  | .cpys f => Sys2Proof.Machine.execCpys f s
  | .cpyf f => Sys2Proof.Machine.execCpyf f s
  | .cpypf f => Sys2Proof.Machine.execCpypf f s
  | .cpyrc f => Sys2Proof.Machine.execCpyrc f s
  | .catom f => Sys2Proof.Machine.execCatom f s
  | .cpyq f => Sys2Proof.Machine.execCpyq f s
  | .cpycan f => Sys2Proof.Machine.execCpycan f s
  | .cpyst f => Sys2Proof.Machine.execCpyst f s
  | .ringacq f => Sys2Proof.Machine.execRingacq f s
  | .ringrel f => Sys2Proof.Machine.execRingrel f s
  | .turn f => Sys2Proof.Machine.execTurn f s
  | .launch f => Sys2Proof.Machine.execLaunch f s
  | .launchJ f => Sys2Proof.Machine.execLaunchJ f s
  | .trigger f => Sys2Proof.Machine.execTrigger f s
  | .tspawn f => Sys2Proof.Machine.execTspawn f s
  | .fetchBlockArrival thread wordError => Sys2Proof.Machine.execFetchBlockArrival thread wordError s
  | .convergenceArrival thread => Sys2Proof.Machine.execConvergenceArrival thread s
  | .collectiveRelease team wave => Sys2Proof.Machine.execCollectiveRelease team wave s
  | .barRelease team => Sys2Proof.Machine.execBarRelease team s
  | .barcRelease grid cohort => Sys2Proof.Machine.execBarcRelease grid cohort s
  | .instructionCompletion thread entry => Sys2Proof.Machine.execInstructionCompletion thread entry s
  | .exitCompletion thread => Sys2Proof.Machine.execExitCompletion thread s
  | .buoyWaiterSample thread => Sys2Proof.Machine.execBuoyWaiterSample thread s
  | .gangArrival thread => Sys2Proof.Machine.execGangArrival thread s
  | .gangFire team latch => Sys2Proof.Machine.execGangFire team latch s
  | .stepStart core => Sys2Proof.Machine.execStepStart core s
  | .stepRunEnd core => Sys2Proof.Machine.execStepRunEnd core s
  | .checksumCompare core mismatch => Sys2Proof.Machine.execChecksumCompare core mismatch s
  | .stepCompletion core => Sys2Proof.Machine.execStepCompletion core s
  | .commandAcceptance core cmd => Sys2Proof.Machine.execCommandAcceptance core cmd s
  | .commandActivate core => Sys2Proof.Machine.execCommandActivate core s
  | .positionPerformed core cmd => Sys2Proof.Machine.execPositionPerformed core cmd s
  | .ringChunkStart core cmd => Sys2Proof.Machine.execRingChunkStart core cmd s
  | .xcommitComplete team => Sys2Proof.Machine.execXcommitComplete team s
  | .l2Eviction die line => Sys2Proof.Machine.execL2Eviction die line s
  | .epochServeRequest die part epoch => Sys2Proof.Machine.execEpochServeRequest die part epoch s
  | .teamPlacement grid => Sys2Proof.Machine.execTeamPlacement grid s
  | .turnSuccession team => Sys2Proof.Machine.execTurnSuccession team s
  | .teamSave team => Sys2Proof.Machine.execTeamSave team s
  | .teamSaveComplete team => Sys2Proof.Machine.execTeamSaveComplete team s
  | .teamResume team => Sys2Proof.Machine.execTeamResume team s
  | .teamKill team => Sys2Proof.Machine.execTeamKill team s
  | .retentionEnd team => Sys2Proof.Machine.execRetentionEnd team s
  | .hostRecordRead part => Sys2Proof.Machine.execHostRecordRead part s
  | .progressTimerExpiry grid => Sys2Proof.Machine.execProgressTimerExpiry grid s
  | .quiescenceSample grid => Sys2Proof.Machine.execQuiescenceSample grid s
  | .childStart grid => Sys2Proof.Machine.execChildStart grid s
  | .continuationStart grid => Sys2Proof.Machine.execContinuationStart grid s
  | .triggerPoint team => Sys2Proof.Machine.execTriggerPoint team s
  | .taskThreadCreate core => Sys2Proof.Machine.execTaskThreadCreate core s
  | .qctlWrite queue value => Sys2Proof.Machine.execQctlWrite queue value s
  | .doorbellWrite queue value => Sys2Proof.Machine.execDoorbellWrite queue value s
  | .qwdogWrite queue value => Sys2Proof.Machine.execQwdogWrite queue value s
  | .watchdogExpiry queue => Sys2Proof.Machine.execWatchdogExpiry queue s
  | .recoveryResume part => Sys2Proof.Machine.execRecoveryResume part s
  | .registerWrite addr value => Sys2Proof.Machine.execRegisterWrite addr value s
  | .shootdownStart part value => Sys2Proof.Machine.execShootdownStart part value s
  | .shootdownComplete part => Sys2Proof.Machine.execShootdownComplete part s
  | .promofreeWrite part value => Sys2Proof.Machine.execPromofreeWrite part value s
  | .promotionStart part va => Sys2Proof.Machine.execPromotionStart part va s
  | .promotionComplete part => Sys2Proof.Machine.execPromotionComplete part s
  | .faultrespResume part value => Sys2Proof.Machine.execFaultrespResume part value s
  | .faultrespFail part value => Sys2Proof.Machine.execFaultrespFail part value s
  | .mgmtReadRequest datagram => Sys2Proof.Machine.execMgmtReadRequest datagram s
  | .mgmtWriteRequest datagram => Sys2Proof.Machine.execMgmtWriteRequest datagram s
  | .partctlCreate value => Sys2Proof.Machine.execPartctlCreate value s
  | .partctlTeardown value => Sys2Proof.Machine.execPartctlTeardown value s
  | .pgrantWrite part word value => Sys2Proof.Machine.execPgrantWrite part word value s
  | .keyctlGen part value => Sys2Proof.Machine.execKeyctlGen part value s
  | .keyctlClear part value => Sys2Proof.Machine.execKeyctlClear part value s
  | .savereqWrite part value => Sys2Proof.Machine.execSavereqWrite part value s
  | .ownerkeyWrite word value => Sys2Proof.Machine.execOwnerkeyWrite word value s
  | .pkgreset value => Sys2Proof.Machine.execPkgreset value s
  | .fwctlCommit value => Sys2Proof.Machine.execFwctlCommit value s
  | .packageReportStart value => Sys2Proof.Machine.execPackageReportStart value s
  | .partitionReportStart part value => Sys2Proof.Machine.execPartitionReportStart part value s
  | .conncmdStore value => Sys2Proof.Machine.execConncmdStore value s
  | .conncmdLoad value => Sys2Proof.Machine.execConncmdLoad value s
  | .dbgctlWrite part value => Sys2Proof.Machine.execDbgctlWrite part value s
  | .dbgcmdHalt part value => Sys2Proof.Machine.execDbgcmdHalt part value s
  | .dbgcmdResume part value => Sys2Proof.Machine.execDbgcmdResume part value s
  | .dbgcmdStep part value => Sys2Proof.Machine.execDbgcmdStep part value s
  | .dbgcmdGo part value => Sys2Proof.Machine.execDbgcmdGo part value s
  | .dbgcmdRollback part value => Sys2Proof.Machine.execDbgcmdRollback part value s
  | .dbgcmdArmstop part value => Sys2Proof.Machine.execDbgcmdArmstop part value s
  | .boot badCores badLinks => Sys2Proof.Machine.execBoot badCores badLinks s
  | .clusterIdleTimeout cluster => Sys2Proof.Machine.execClusterIdleTimeout cluster s
  | .powerStateEntry state => Sys2Proof.Machine.execPowerStateEntry state s
  | .wake reason => Sys2Proof.Machine.execWake reason s
  | .clockStep die => Sys2Proof.Machine.execClockStep die s
  | .thermalEvent die celsius => Sys2Proof.Machine.execThermalEvent die celsius s
  | .linkCrcFailure link toDie resendFails => Sys2Proof.Machine.execLinkCrcFailure link toDie resendFails s
  | .rdmaWriteIn conn rkey addr data => Sys2Proof.Machine.execRdmaWriteIn conn rkey addr data s
  | .rdmaReadIn conn rkey addr len => Sys2Proof.Machine.execRdmaReadIn conn rkey addr len s
  | .sendDoorbellBatch conn data => Sys2Proof.Machine.execSendDoorbellBatch conn data s
  | .fetchAddIn conn rkey addr value => Sys2Proof.Machine.execFetchAddIn conn rkey addr value s
  | .cmpSwapIn conn rkey addr compare swap => Sys2Proof.Machine.execCmpSwapIn conn rkey addr compare swap s
  | .writeImmLanding conn rkey addr imm data => Sys2Proof.Machine.execWriteImmLanding conn rkey addr imm data s
  | .invalidRequestIn conn opcode => Sys2Proof.Machine.execInvalidRequestIn conn opcode s
  | .fabricResponse conn data => Sys2Proof.Machine.execFabricResponse conn data s
  | .ackTimeout conn => Sys2Proof.Machine.execAckTimeout conn s
  | .cnpReceived conn => Sys2Proof.Machine.execCnpReceived conn s
  | .tileFire team handle tile => Sys2Proof.Machine.execTileFire team handle tile s
  | .slotCompleteReduce team handle tile => Sys2Proof.Machine.execSlotCompleteReduce team handle tile s
  | .engineReset core => Sys2Proof.Machine.execEngineReset core s
  | .rdmaNakReceived conn kind => Sys2Proof.Machine.execRdmaNakReceived conn kind s
  | .pfcPauseFrame port priority pause => Sys2Proof.Machine.execPfcPauseFrame port priority pause s
  | .portLinkStateChange port up => Sys2Proof.Machine.execPortLinkStateChange port up s
  | .reconfigurationDone core => Sys2Proof.Machine.execReconfigurationDone core s
  | .partitionOperationDone => Sys2Proof.Machine.execPartitionOperationDone s
  | .keyOperationDone part => Sys2Proof.Machine.execKeyOperationDone part s
  | .reportWritten part => Sys2Proof.Machine.execReportWritten part s

end Sys2Proof.Machine
end

