-- ==== Sys2Proof/Machine/Policy.lean ====
section
/-! DEFINITION. Which move happens next when the agenda names none (log 1), and placing one instruction where the next
step fetches it. -/

namespace Sys2Proof.Machine

open Sys2Proof

/-- The least die clk among dies. -/
def slowestDie (s : State) : Nat :=
  (List.range 4).foldl (fun b d => if (s.die d).clk < (s.die b).clk then d else b) 0

/-- The first core that can issue. -/
def issuingCore (s : State) : Option Nat := (tkeys s.cores).find? fun c => canIssue s c

/-- The first thread that waits for its fetch block. -/
def fetchingThread (s : State) : Option Nat :=
  (s.threads.find? fun e => e.2.fetches s && (heldBlock s e.2.core (blockNo e.2.pc)).isNone).map (·.1)

/-- An event does something: it changes the state, apart from what a fruitless attempt leaves (translations, counters of the
clusters, free values taken). -/
def works (s : State) (i : Instr) : Bool :=
  match exec i s with
  | .next t => { t with clusters := s.clusters, count := s.count } != s
  | _ => false

/-- The tile engine's next event on a core. A comparison is due at the end of its cycle at the latest and happens there
(09 R201). -/
def engineEvents (s : State) (core : Nat) : List Instr :=
  match engineEvent s core with
  | some .runEnd => [.stepRunEnd core]
  | some .start => [.stepStart core]
  | some .complete => [.stepCompletion core]
  | some .compare | none => []

/-- What may happen on a core. -/
def coreEvents (s : State) (core : Nat) : List Instr :=
  engineEvents s core ++ ((dueCmd s core).map fun k => Instr.commandAcceptance core k).toList
    ++ (copyEvent s core).toList ++ [.taskThreadCreate core, .reconfigurationDone core]

/-- What may happen to a thread. -/
def threadEvents (s : State) (e : Nat × Thread) : List Instr :=
  match landable s e.2, e.2.conv with
  | some k, _ => [.instructionCompletion e.1 k]
  | none, .exiting => [.exitCompletion e.1]
  | none, _ => []

/-- The threads to which something may happen, in the order in which it is tried: within a core by key (07 R150, 08 R180). -/
def threadsInTurn (s : State) : List (Nat × Thread) :=
  sortOn (fun e => e.2.core * 2 ^ 64 + e.2.key (detMode s e.2.core))
    (s.threads.filter fun e => !e.2.flight.isEmpty || e.2.conv == .exiting)

/-- What may happen to a team. -/
def teamEvents (e : Nat × Team) : List Instr :=
  let tiles := e.2.routes.flatMap fun r =>
    (List.range (rtabOf r.2.snap).n).flatMap fun k => [Instr.tileFire e.1 r.1 k, .slotCompleteReduce e.1 r.1 k]
  ((List.range e.2.latches.length).map fun k => Instr.gangFire e.1 k)
    ++ (if e.2.cohort ≥ 1 then [Instr.barcRelease e.2.grid (e.2.idx / e.2.cohort)] else [])
    ++ [.xcommitComplete e.1, .teamKill e.1] ++ tiles ++ [.turnSuccession e.1]
    ++ (if e.2.saveReq then [.teamSave e.1] else []) ++ [.teamSaveComplete e.1, .retentionEnd e.1, .triggerPoint e.1, .teamResume e.1]

/-- What may happen to a grid. -/
def gridEvents (e : Nat × Grid) : List Instr :=
  [.childStart e.1, .continuationStart e.1, .teamPlacement e.1, .progressTimerExpiry e.1, .quiescenceSample e.1]

/-- What may happen to a partition. -/
def partEvents (p : Nat) : List Instr :=
  [.recoveryResume p, .shootdownComplete p, .promotionComplete p, .keyOperationDone p, .reportWritten p, .hostRecordRead p]

/-- Everything that may happen without an input, in the order in which it is tried (log 1). -/
def events (s : State) : List Instr :=
  (if s.pkg.booted || s.pkg.recovery then [] else [.boot [] []])
    ++ (tkeys s.cores).flatMap (coreEvents s) ++ (threadsInTurn s).flatMap (threadEvents s) ++ s.teams.flatMap teamEvents
    ++ s.grids.flatMap gridEvents ++ ((tkeys s.queues).map fun q => Instr.watchdogExpiry q)
    ++ (tkeys s.parts).flatMap partEvents ++ [.partitionOperationDone, .reportWritten 12]

/-- The dies have run ahead of the reference clock: 2,250 clk to a us (00 R4). -/
def microDue (s : State) : Bool := s.pkg.power != 0 || decide ((s.pkg.us + 1) * 2250 ≤ (s.die (slowestDie s)).clk)

/-- The move that happens when the agenda is empty (log 1): an event that does something, a fetch, an issue, or time. -/
def policyMove (s : State) : Move :=
  match (events s).find? (works s) with
  | some i => .event i
  | none => match fetchingThread s with
    | some t => .event (.fetchBlockArrival t false)
    | none => match issuingCore s with
      | some c => .issue c
      | none => if microDue s then .micro else .tick (slowestDie s)

/-- One clk of a die, whose clock stops in PK1 to PK3 (23 R443, R455). -/
def dieClk (die : Nat) (s : State) : State := if s.pkg.power = 0 then tickDie die (gateWithdrawn die s) else s

/-- The move of the next step and the state it starts from. -/
def nextMove (s : State) : Move × State :=
  match s.agenda with
  | m :: r => (m, { s with agenda := r })
  | [] => (policyMove s, s)

/-- A fetch block whose first words are those of an instruction. -/
def blockOf (nbits w : Nat) : List Word := wordsOfNat (w % 2 ^ nbits) ++ [0, 0, 0, 0]

/-- A package in which one thread of a one-thread team on core 0 stands at address 0, whose fetch block the core holds
(log 18). -/
def placeBlock (s : State) (ws : List Word) : State :=
  let k := s.fresh
  let tm : Team := { grid := k, part := 0, core := 0, slot := 0, idx := 0, threads := 1, waves := 1, regs := 256 }
  let t := newThread k tm 1 0 0 1 0
  let c := s.core 0
  let s := { s with fresh := k + 1, threads := (s.threads.filter fun e => e.2.core != 0), teams := (s.teams.filter fun e => e.2.core != 0) }
  let s := s.putCore 0 { c with cfg := { slots := 1, waves := 1, regs := 256, regG := 16 }, grid := some k, ports := [],
                                icache := tput c.icache 0 ws, loopBuf := [], stepSets := [], begun := false, accs := [],
                                aluUsed := 0, mulUsed := 0, lsuUsed := 0, engUsed := 0, dfpFree := 0, sfuFree := 0 }
  let s := s.putPart 0 { s.part 0 with exist := true, clusters := (s.part 0).clusters ||| 1 }
  { (s.putTeam k tm).putThread k t with agenda := [.issue 0], issue := [], off := false }

end Sys2Proof.Machine
end

