-- ==== Sys2Proof/Machine/Step.lean ====
section
/-! DEFINITION. One step of the package: the next move, and the meaning of the instruction or event it names. -/

namespace Sys2Proof.Machine

open Sys2Proof

/-- One move. -/
def runMove (m : Move) (s : State) : Host.Outcome State Fault Refusal :=
  match m with
  | .event i => exec i s
  | .issue c => match prepare c s with
    | .run i s => exec i s
    | .done s => .next s
  | .tick d => .next (dieClk d s)
  | .micro => .next (tickMicro s)
  | .error e l => .next (meetError e l s)
  | .marked k => .next (marked k s)

/-- One step (log 1). A package that is off has none (23 R458). -/
def step (s : State) : Host.Outcome State Fault Refusal :=
  if s.off then .fault .poweredOff else runMove (nextMove s).1 (nextMove s).2

/-- The state with an instruction, numbered as spec/opcode_table.json numbers bits, placed where the next step fetches
and runs it (log 18). -/
def State.withFetchWord (s : State) (nbits w : Nat) : State := placeBlock s (blockOf nbits w)

end Sys2Proof.Machine
end

