-- ==== Sys2Proof/Safety.lean ====
section
/-! DEFINITION. What counts as a safe run, and the terms in which claims speak of an issue: a set of one thread whose
instruction passes its checks, and the state in which its result is on the way. -/

namespace Sys2Proof

/-- A run of `n` steps that never stops, from one state to another. -/
inductive Runs : Nat → Machine.State → Machine.State → Prop
  | here (s : Machine.State) : Runs 0 s s
  | more (n : Nat) (s t u : Machine.State) : Machine.step s = .next t → Runs n t u → Runs (n + 1) s u

/-- A state from which the next step answers a next state. -/
def Live (s : Machine.State) : Prop := ∃ t, Machine.step s = .next t

end Sys2Proof

namespace Sys2Proof.Machine

open Sys2Proof

/-- A set of one thread issues an instruction and comes to its operation: the thread is there, the instruction is encoded
as the spec allows, its registers are in range, its guard is true and none of its sources is poisoned (03 R77, R78). `c`
holds what it reads: the thread before the issue, its fields, its address and the next one. -/
structure Issues (s : State) (tid : Nat) (i : Instr) (c : Ctx) : Prop where
  alone : s.issue = [tid]
  there : s.thread? tid = some c.t
  /-- The encoding and the checks. -/
  passes : ∃ sh, shapeOf c.t.tm i = some sh ∧ c = ctxOf i (fldsOf i) sh.cls tid c.t s
    ∧ checkIssue i sh (fldsOf i) c.t s.count tid = .ok true ∧ poisonTrap sh (fldsOf i) c.t s.count tid = none

/-- A set of one thread issues an instruction whose guard is false (03 R78). -/
structure Skips (s : State) (tid : Nat) (i : Instr) (c : Ctx) : Prop where
  alone : s.issue = [tid]
  there : s.thread? tid = some c.t
  /-- The encoding and the checks. -/
  guard : ∃ sh, shapeOf c.t.tm i = some sh ∧ c = ctxOf i (fldsOf i) sh.cls tid c.t s
    ∧ checkIssue i sh (fldsOf i) c.t s.count tid = .ok false

/-- The set flag that an issue raises: that of an instruction of class V (01 R25, 03 R66). -/
def Ctx.raised (c : Ctx) : Option Nat := if c.cls == .v then c.flag else none

/-- The issuing thread after its issue: at the next instruction, one more retired, the set flag one higher, and with
results on the way (01 R20 to R28). -/
def Ctx.after (c : Ctx) (flag : Option Nat) (results : List InFlight) : Thread :=
  { c.t with pc := c.next, retired := c.t.retired + 1, lastIssue := some c.clk, starve := 0, pastBreak := false,
             released := false,
             flags := (match flag with | some k => tput c.t.flags k ((tget c.t.flags k 0 + 1) % 8) | none => c.t.flags),
             flight := c.t.flight ++ results }

/-- The state after an issue that changes nothing but its thread, the core's count of issued instructions and the model's
own count. -/
def issued (s : State) (c : Ctx) (t : Thread) : State :=
  { s with
    threads := tput s.threads c.tid t,
    cores := tput s.cores c.t.core
      { s.core c.t.core with counters := tput (s.core c.t.core).counters 0 (tget (s.core c.t.core).counters 0 0 + 1) },
    count := s.count + 1,
    issue := [] }

/-- The state in which the operation of an instruction acts: its thread has moved on and the counters have counted it. -/
def moved (s : State) (c : Ctx) : State := { issued s c (c.after c.raised []) with issue := s.issue }

/-- A result on the way: registers with their values, of which V255 takes none, visible after the latency of the class, or
at the completion for class V (01 R13, R25). -/
def Ctx.result (c : Ctx) (ws : List (Nat × Word)) : InFlight :=
  { cls := c.cls, ready := c.clk + (match c.cls with | .s => 2 | .m => 4 | .l => 6 | .v => 0), flag := c.flag,
    regs := ws.filter fun w => decide (w.1 < 255), poison := [], sreg := none }

/-- The state after the issue of an instruction whose only effect is to write registers. -/
def wrote (s : State) (c : Ctx) (ws : List (Nat × Word)) : State := issued s c (c.after c.raised [c.result ws])

/-- A 32-bit result in VD, and a 64-bit result in the VD pair (00 R7). -/
def Ctx.to32 (c : Ctx) (v : Word) : List (Nat × Word) := [(c.f.vd, v)]
def Ctx.to64 (c : Ctx) (v : DWord) : List (Nat × Word) := [(c.f.vd, lo32 v), (c.f.vd + 1, hi32 v)]

end Sys2Proof.Machine
end

