-- ==== Sys2Proof/WellFormed.lean ====
section
/-! DEFINITION. Well-formed instructions: those that raise no ILLEGAL-INSTRUCTION by R77 outside or inside trap mode, and
event rows, which have no encoding. -/

namespace Sys2Proof

/-- Where two rows of the table share an opcode, the modifier bit that tells them apart is that of this row (03 R76, 10
R218, R222, R226, 19 R388). -/
def spelled : Instr → Bool
  | .tmovvRead f => !f.mod.getLsbD 0
  | .tmovvWrite f => f.mod.getLsbD 0
  | .mma f | .mmac f => !f.mod.getLsbD 1
  | .mmaG f | .mmacG f => f.mod.getLsbD 1
  | .drainS f => f.x.extractLsb' 23 2 != 1#2 && f.x.extractLsb' 23 2 != 2#2
  | .drainH f => f.x.extractLsb' 23 2 == 1#2
  | .drainRoute f => f.x.extractLsb' 23 2 == 2#2
  | .launch f => !f.mod.getLsbD 0
  | .launchJ f => f.mod.getLsbD 0
  | _ => true

/-- An instruction that passes R77 in a mode of trap handling (03 R77). -/
def wellFormedIn (tm : Bool) (i : Instr) : Bool :=
  match Machine.shapeOf tm i with
  | some sh => spelled i && (sh.detail (Machine.fldsOf i)).isNone
  | none => true

/-- An instruction that passes R77 in some mode. -/
def wellFormed (i : Instr) : Bool := wellFormedIn false i || wellFormedIn true i

end Sys2Proof
end

