-- ==== Sys2Proof/Certificates/Slice0/Obligations.lean ====
section
/-! DEFINITION. The statements for the provers. A table of results gives, for each instruction it names, what the rules of
spec/ say it writes; `none` says nothing about an instruction. -/

namespace Sys2Proof.Machine

open Sys2Proof

/-- An exact integer as a result of a width: modulo 2^w, or clamped to the signed or unsigned range under SAT (04 R86). -/
def fits (w : Nat) (sat u : Bool) (x : Int) : BitVec w :=
  BitVec.ofInt w
    (if sat then (if u then max 0 (min (2 ^ w - 1) x) else max (-2 ^ (w - 1)) (min (2 ^ (w - 1) - 1) x)) else x)

/-- A truth value in a register. -/
def one32 (p : Prop) [Decidable p] : Word := if p then 1 else 0

/-- The bank word of a C64 form, unless it is poisoned (03 R72, 13 R308). -/
def konst (s : State) (c : Ctx) : Option Word :=
  if (bankWord s c.t.core c.f.bank (4 * c.f.imm)).2 then none else some (bankWord s c.t.core c.f.bank (4 * c.f.imm)).1
/-- The 64-bit bank value of a C64 form, unless a word of it is poisoned. -/
def konst64 (s : State) (c : Ctx) : Option DWord :=
  let lo := bankWord s c.t.core c.f.bank (4 * c.f.imm)
  let hi := bankWord s c.t.core c.f.bank (4 * c.f.imm + 4)
  if lo.2 || hi.2 then none else some (hi.1 ++ lo.1)

/-- Two operands under U. -/
def Ctx.xa (c : Ctx) : Int := intOf (c.m 9) c.va
def Ctx.xb (c : Ctx) : Int := intOf (c.m 9) c.vb
def Ctx.xpa (c : Ctx) : Int := intOf (c.m 9) (c.p c.f.va)
def Ctx.xpb (c : Ctx) : Int := intOf (c.m 9) (c.p c.f.vb)

/-- Additions and subtractions (04 R86 to R91). -/
def sums (s : State) (c : Ctx) : Instr → Option (List (Nat × Word))
  | .iaddA64 _ => some (c.to32 (fits 32 (c.m 8) (c.m 9) (c.xa + c.xb)))
  | .iaddI64 _ => some (c.to32 (c.va + BitVec.signExtend 32 (BitVec.ofNat 20 c.f.imm)))
  | .iaddC64 _ => (konst s c).map fun k => c.to32 (fits 32 (c.m 4) (c.m 3) (intOf (c.m 3) c.va + intOf (c.m 3) k))
  | .iaddI96 _ => some (c.to32 (c.va + BitVec.ofNat 32 c.f.imm))
  | .isub _ => some (c.to32 (fits 32 (c.m 8) (c.m 9) (c.xa - c.xb)))
  | .iaddc _ => some (c.to32 (one32 (c.va.toNat + c.vb.toNat + (if c.m 0 then c.vd.toNat % 2 else 0) ≥ 2 ^ 32)))
  | .iadd3 _ => some (c.to32 ((if c.m 3 then 0 - c.va else c.va) + (if c.m 5 then 0 - c.vb else c.vb)
      + (if c.m 10 then 0 - c.vc else c.vc)))
  | .iadd64 _ => some (c.to64 (fits 64 (c.m 8) (c.m 9) (c.xpa + c.xpb)))
  | .isub64 _ => some (c.to64 (fits 64 (c.m 8) (c.m 9) (c.xpa - c.xpb)))
  | .iabs _ => some (c.to32 (if c.va = 0x80000000#32 then (if c.m 8 then 0x7FFFFFFF#32 else 0x80000000#32)
      else if c.va.msb then 0 - c.va else c.va))
  | .ineg _ => some (c.to32 (if c.va = 0x80000000#32 then (if c.m 8 then 0x7FFFFFFF#32 else 0x80000000#32) else 0 - c.va))
  | _ => none

/-- Products (04 R88, R92). -/
def products (s : State) (c : Ctx) : Instr → Option (List (Nat × Word))
  | .imulA64 _ => some (c.to32 (c.va * c.vb))
  | .imulI64 _ => some (c.to32 (c.va * BitVec.signExtend 32 (BitVec.ofNat 20 c.f.imm)))
  | .imulC64 _ => (konst s c).map fun k => c.to32 (c.va * k)
  | .imulI96 _ => some (c.to32 (c.va * BitVec.ofNat 32 c.f.imm))
  | .imulh _ => some (c.to32 (hi32 (BitVec.ofInt 64 (c.xa * c.xb))))
  | .imulw _ => some (c.to64 (BitVec.ofInt 64 (c.xa * c.xb)))
  | .imadA96 _ => some (c.to32 (c.va * c.vb + c.vc))
  | .imadI64 _ => some (c.to32 (c.vd * c.va + BitVec.signExtend 32 (BitVec.ofNat 20 c.f.imm)))
  | .imadC64 _ => (konst s c).map fun k => c.to32 (c.vd * c.va + k)
  | .imadI96 _ => some (c.to32 (c.va * c.vb + BitVec.ofNat 32 c.f.imm))
  | .imadw _ => some (c.to64 (BitVec.ofInt 64 (c.xa * c.xb) + c.p c.f.vc))
  | _ => none

/-- The condition of ICMP (04 R93). -/
def holdsCc (fn : Nat) (a b : Int) : Bool :=
  (fn == 0 && a == b) || (fn == 1 && a != b) || (fn == 2 && decide (a < b)) || (fn == 3 && decide (a ≤ b))
    || (fn == 4 && decide (b < a)) || (fn == 5 && decide (b ≤ a))

/-- Choices between operands (04 R93). -/
def choices (s : State) (c : Ctx) : Instr → Option (List (Nat × Word))
  | .iminA64 _ => some (c.to32 (if c.xa ≤ c.xb then c.va else c.vb))
  | .iminI64 _ => some (c.to32 (let k := BitVec.signExtend 32 (BitVec.ofNat 20 c.f.imm)
      if intOf (c.m 0) c.va ≤ intOf (c.m 0) k then c.va else k))
  | .imaxA64 _ => some (c.to32 (if c.xa ≤ c.xb then c.vb else c.va))
  | .imaxI64 _ => some (c.to32 (let k := BitVec.signExtend 32 (BitVec.ofNat 20 c.f.imm)
      if intOf (c.m 0) c.va ≤ intOf (c.m 0) k then k else c.va))
  | .iclamp _ => some (c.to32 (let top := if c.xa ≤ c.xb then c.vb else c.va
      if intOf (c.m 9) top ≤ intOf (c.m 9) c.vc then top else c.vc))
  | .icmpA64 _ => some (c.to32 (one32 (holdsCc (c.f.mod % 8) c.xa c.xb)))
  | .icmpC64 _ => (konst s c).map fun k => c.to32 (one32 (holdsCc (c.f.mod % 8) (intOf (c.m 3) c.va) (intOf (c.m 3) k)))
  | .icmp64 _ => some (c.to32 (one32 (holdsCc (c.f.mod % 8) c.xpa c.xpb)))
  | .sel _ => some (c.to32 (if c.vc.getLsbD 0 then c.va else c.vb))
  | _ => none

/-- LOP's operation (04 R94). -/
def lop (fn : Nat) (a b : Word) : Word :=
  if fn = 0 then a &&& b else if fn = 1 then a ||| b else if fn = 2 then a ^^^ b else a &&& (0xFFFFFFFF#32 ^^^ b)

/-- The shifts by `n` (04 R95). -/
def shl (a : Word) (n : Nat) : Word := BitVec.ofNat 32 (a.toNat * 2 ^ n)
def shr (a : Word) (n : Nat) : Word := BitVec.ofNat 32 (a.toNat / 2 ^ n)
def sar (a : Word) (n : Nat) : Word := BitVec.ofInt 32 (a.toInt / 2 ^ min n 32)
def rol (a : Word) (n : Nat) : Word := BitVec.ofNat 32 (a.toNat * 2 ^ (n % 32) + a.toNat / 2 ^ (32 - n % 32))
def ror (a : Word) (n : Nat) : Word := BitVec.ofNat 32 (a.toNat / 2 ^ (n % 32) + a.toNat * 2 ^ (32 - n % 32))

/-- Logic and shifts (04 R94 to R96). LUT3 is stated bit by bit below. -/
def shifts (s : State) (c : Ctx) : Instr → Option (List (Nat × Word))
  | .lopA64 _ => some (c.to32 (lop (c.f.mod % 4) c.va c.vb))
  | .lopI64 _ => some (c.to32 (lop (c.f.mod % 4) c.va (BitVec.signExtend 32 (BitVec.ofNat 20 c.f.imm))))
  | .lopC64 _ => (konst s c).map fun k => c.to32 (lop (c.f.mod % 4) c.va k)
  | .lopI96 _ => some (c.to32 (lop (c.f.mod % 4) c.va (BitVec.ofNat 32 c.f.imm)))
  | .shlA64 _ => some (c.to32 (shl c.va c.vb.toNat))
  | .shlI64 _ => some (c.to32 (shl c.va c.f.imm))
  | .shrA64 _ => some (c.to32 (if c.m 9 then shr c.va c.vb.toNat else sar c.va c.vb.toNat))
  | .shrI64 _ => some (c.to32 (if c.m 0 then shr c.va c.f.imm else sar c.va c.f.imm))
  | .rolA64 _ => some (c.to32 (rol c.va c.vb.toNat))
  | .rolI64 _ => some (c.to32 (rol c.va c.f.imm))
  | .rorA64 _ => some (c.to32 (ror c.va c.vb.toNat))
  | .rorI64 _ => some (c.to32 (ror c.va c.f.imm))
  | .fshl _ => some (c.to32 (let n := if c.m 0 then min c.vc.toNat 32 else c.vc.toNat % 32
      (((c.va ++ c.vb : DWord) <<< n) >>> 32).setWidth 32))
  | .fshr _ => some (c.to32 (let n := if c.m 0 then min c.vc.toNat 32 else c.vc.toNat % 32
      ((c.va ++ c.vb : DWord) >>> n).setWidth 32))
  | _ => none

/-- Ones, leading zeros and trailing zeros of a bit list, most significant first. -/
def bitsDown {w : Nat} (x : BitVec w) : List Bool := (List.range w).map fun k => x.getLsbD (w - 1 - k)

/-- Bit fields, counts and moves (04 R97, R98, R100, R102). -/
def fields (s : State) (c : Ctx) : Instr → Option (List (Nat × Word))
  | .bfe _ => some (c.to32 (
      let p := c.vb.toNat % 256
      let l := min (c.vb.toNat / 256 % 256) 32
      let f := c.xa / 2 ^ p % 2 ^ l
      if l = 0 then 0 else BitVec.ofInt 32 (if !c.m 9 && decide (f ≥ 2 ^ (l - 1)) then f - 2 ^ l else f)))
  | .bfi _ => some (c.to32 (
      let p := c.vc.toNat % 256
      let m := BitVec.ofNat 32 ((2 ^ min (c.vc.toNat / 256 % 256) 32 - 1) * 2 ^ p)
      (c.va &&& (0xFFFFFFFF#32 ^^^ m)) ||| (shl c.vb p &&& m)))
  | .bmsk _ => some (c.to32 (shl (BitVec.ofNat 32 (2 ^ min (c.vb.toNat % 256) 32 - 1)) (c.va.toNat % 256)))
  | .popc _ => some (c.to32 (BitVec.ofNat 32 ((if c.m 7 then bitsDown (c.p c.f.va) else bitsDown c.va).count true)))
  | .clz _ => some (c.to32 (BitVec.ofNat 32
      ((if c.m 7 then bitsDown (c.p c.f.va) else bitsDown c.va).takeWhile (! ·)).length))
  | .ctz _ => some (c.to32 (BitVec.ofNat 32
      ((if c.m 7 then bitsDown (c.p c.f.va) else bitsDown c.va).reverse.takeWhile (! ·)).length))
  | .lea _ =>
      let k : Int := intOf (c.m 9) c.vb * 2 ^ (c.f.mod % 8)
      some (if c.m 7 then c.to64 (c.p c.f.va + BitVec.ofInt 64 k) else c.to32 (c.va + BitVec.ofInt 32 k))
  | .movA64 _ => some (if c.m 7 then c.to64 (c.p c.f.va) else c.to32 c.va)
  | .movI64 _ => some (c.to32 (BitVec.signExtend 32 (BitVec.ofNat 20 c.f.imm)))
  | .movC64 _ => (konst s c).map c.to32
  | .movI96 _ => some (c.to32 (BitVec.ofNat 32 c.f.imm))
  | .icvt _ => some (
      let src := c.f.mod / 16 % 16
      let dst := c.f.mod % 16
      let x := intDecode src (if src ≥ 9 then (c.p c.f.va).toNat else c.va.toNat)
      let y := intEncode dst (c.m 8) x
      if dst ≥ 9 then c.to64 (BitVec.ofInt 64 y) else c.to32 (BitVec.ofInt 32 y))
  | .idot _ => some (c.to32 (
      let n := if c.f.mod % 8 = 0 then 4 else if c.f.mod % 8 = 1 then 2 else 8
      let el (u : Bool) (x : Word) (i : Nat) : Int := intOf u (x.extractLsb' (32 / n * i) (32 / n))
      fits 32 (c.m 8) false (c.vc.toInt + ((List.range n).map fun i => el (c.m 9) c.va i * el (c.m 6) c.vb i).sum)))
  | .sad _ => some (c.to32 (
      let n := if c.f.mod % 8 = 0 then 4 else 2
      let el (x : Word) (i : Nat) : Int := intOf (c.m 9) (x.extractLsb' (32 / n * i) (32 / n))
      BitVec.ofInt 32 (c.vc.toNat + ((List.range n).map fun i => ((el c.va i - el c.vb i).natAbs : Int)).sum)))
  | _ => none

/-- A thread after results have become visible: registers, their poison, flag, and the special register of a SETS (01 R24, 06 R134). -/
def Landed (t v : Thread) (e : InFlight) : Prop :=
  (∀ r, tget v.regs r 0 = match e.regs.reverse.find? (fun w => w.1 == r) with | some w => w.2 | none => tget t.regs r 0) ∧
  v.poison = e.regs.foldl (fun l (w : Nat × Word) => if e.poison.contains w.1 then nadd l w.1 else ndel l w.1) t.poison ∧
  v.flags = (match e.flag with | some k => tput t.flags k (tget t.flags k 0 - 1) | none => t.flags) ∧
  v.gang = (match e.sreg with | some (0x0A, x) => lo32 x | _ => t.gang) ∧
  v.epc = (match e.sreg with | some (0x14, x) => x | _ => t.epc) ∧
  v.terms = (match e.sreg with | some (0x28, x) => x | _ => t.terms) ∧
  v.termCyc = (match e.sreg with | some (0x29, x) => x | _ => t.termCyc) ∧
  v.termSkew = (match e.sreg with | some (0x2A, x) => x | _ => t.termSkew) ∧
  v.pc = t.pc ∧ v.retired = t.retired ∧ v.conv = t.conv ∧ v.trapCause = t.trapCause

/-- The result at a place of a thread's flight comes in its turn: it is of class V, no earlier SETS of the thread is on its way, and
the cycle's arrivals and issues have not begun (01 R24, 06 R134, 07 R159). -/
structure Due (s : State) (tid k : Nat) (t : Thread) (e : InFlight) : Prop where
  there : s.thread? tid = some t
  place : t.flight[k]? = some e
  cls : e.cls = .v
  turn : e.sreg = none ∨ ∀ o ∈ t.flight.take k, o.sreg = none
  early : (s.core t.core).begun = false

/-- What a table of results says of every set of one thread that comes to its operation: the results are on the way, and
nothing else has changed but the thread's and the counters' own bookkeeping. -/
def Gives (table : State → Ctx → Instr → Option (List (Nat × Word))) : Prop :=
  ∀ (i : Instr) (s : State) (tid : Nat) (c : Ctx) (ws : List (Nat × Word)),
    Issues s tid i c → table s c i = some ws → exec i s = .next (wrote s c ws)

end Sys2Proof.Machine

open Sys2Proof Sys2Proof.Machine

namespace Sys2Proof.Machine

/-- The instructions of one thread alone: neither collectives nor instructions that a team or an instance issues once. -/
def plain : Instr → Bool
  | .bwait _ | .shfl _ | .vote _ | .redw _ | .scanw _ | .matchL _ | .bar _ | .barc _ | .cfence _
  | .xbegin _ | .xcommit _ | .xabort _ | .xstat _ | .tlead _ | .targ _ | .tdep _ | .tqry _ | .trace _
  | .tzero _ | .tload _ | .tstore _ | .tmovvRead _ | .tmovvWrite _ | .tmov _ | .ttag _ | .tstat _ | .tfmt _
  | .tcvt _ | .tscale _ | .tchk _ | .mma _ | .mmac _ | .mmaG _ | .mmacG _ | .drainS _ | .drainH _
  | .drainRoute _ | .seal _ | .unseal _ | .cpy _ | .cpyg _ | .cpys _ | .cpyf _ | .cpypf _ | .cpyrc _
  | .catom _ | .cpyq _ | .cpycan _ | .cpyst _ | .ringacq _ | .ringrel _ | .turn _ | .launch _ | .launchJ _
  | .trigger _ | .tspawn _ => false
  | i => (formOf i).isSome

/-- The unassigned opcodes (03 R76). -/
def unassigned (o : Nat) : Bool :=
  (decide (0x053 ≤ o) && decide (o ≤ 0x07F)) || (decide (0x08F ≤ o) && decide (o ≤ 0x0BF)) || (decide (0x0CD ≤ o) && decide (o ≤ 0x0FF))
    || (decide (0x102 ≤ o) && decide (o ≤ 0x13F)) || (decide (0x16F ≤ o) && decide (o ≤ 0x17F))
    || (decide (0x188 ≤ o) && decide (o ≤ 0x1BF)) || (decide (0x1E0 ≤ o) && decide (o ≤ 0x1FF))

/-- The length code that a format class requires (03 R68). -/
def lenOf (o : Nat) : Nat := if o < 0x140 then 0 else if o < 0x1C0 then 1 else 2

end Sys2Proof.Machine

/-- DECODING UNDOES ENCODING. Every well-formed instruction that has an encoding, every operand and modifier at every value,
is what the decoder reads from its words, whatever words follow, and its length is the number of its words. -/
def Obligations.DecodeEncode : Prop :=
  ∀ (i : Instr) (tail : List Word), wellFormed i = true → encode i ≠ [] →
    decodeWords 8 (encode i ++ tail) = .instr i (encode i).length

/-- ENCODING UNDOES DECODING. Words that the decoder reads as an instruction of n words are that instruction's words: no bit of
them is dropped, and no two instructions share words. -/
def Obligations.EncodeDecode : Prop :=
  ∀ (room : Nat) (ws : List Word) (i : Instr) (n : Nat), decodeWords room ws = .instr i n → n ≤ ws.length →
    encode i = ws.take n ∧ spelled i = true ∧ n ≤ room

/-- THE FATE OF EVERY WORD. A word with low bits 11 is a pad word. Any other is an instruction or, in this order, carries
DETAIL 1 when its length passes the end of its fetch block, DETAIL 2 when its opcode is unassigned, and DETAIL 3 when its
length code contradicts the opcode's format class. -/
def Sys2Proof.Machine.FateOfWords : Prop :=
  ∀ (room : Nat) (ws : List Word),
    let w := (wordAt ws 0).toNat
    let o := w / 4 % 512
    (w % 4 = 3 → decodeWords room ws = .pad) ∧
    (w % 4 ≠ 3 → room < w % 4 + 2 → decodeWords room ws = .illegal 1) ∧
    (w % 4 ≠ 3 → w % 4 + 2 ≤ room → unassigned o = true → decodeWords room ws = .illegal 2) ∧
    (w % 4 ≠ 3 → w % 4 + 2 ≤ room → unassigned o = false → w % 4 ≠ lenOf o → decodeWords room ws = .illegal 3) ∧
    (w % 4 ≠ 3 → w % 4 + 2 ≤ room → unassigned o = false → w % 4 = lenOf o →
      ∃ i, decodeWords room ws = .instr i (w % 4 + 2) ∧ opcodeOf i = some o)

/-- WORDS OF THE MANUAL. The encodings that the manual writes out in full decode to the instructions they stand for. -/
def Sys2Proof.Machine.ManualWords : Prop :=
  decodeWords 8 [0x0C001934, 0xFC000203] =
    .instr (.ffmaI64 { wait := 0, dist := 3, m := 0, imm := 0x3FC00, va := 2, vd := 3 }) 2 ∧
  decodeWords 8 [0x00000400, 0xFFFFF287] = .instr (.bra { wait := 0, dist := 0, link := 0, off := 0xFFFFF2, pol := 1, guard := 7 }) 2 ∧
  decodeWords 8 [0x3C000008, 0x0105010C] =
    .instr (.iaddc { wait := 0, dist := 0, set := 15, mod := 1, vb := 5, va := 1, vd := 12 }) 2 ∧
  decodeWords 8 [0x3C000D01, 0x0006020A, 0x00007F0C] =
    .instr (.iadd3 { wait := 0, dist := 1, set := 15, mod := 0, vb := 6, va := 2, vd := 10, pol := 0, guard := 127, vc := 12 }) 3 ∧
  decodeWords 8 [0x08000094, 0x00000506] =
    .instr (.frsq { wait := 0, dist := 0, set := 2, mod := 0, vb := 0, va := 5, vd := 6 }) 2 ∧
  decodeWords 8 [0x7C000555, 0x65080304, 0x00037F09] =
    .instr (.fcvt { wait := 0, dist := 0, set := 15, mod := 0xD65, vb := 8, va := 3, vd := 4, pol := 0, guard := 127, vc := 9 }) 3 ∧
  decodeWords 8 [0x04000404, 0x00003A7F] = .instr (.call { wait := 0, dist := 0, link := 1, off := 0x3A, pol := 0, guard := 127 }) 2

/-- WORDS DECODED: what becomes of any words, and what a few words are. -/
def Obligations.WordsDecoded : Prop :=
  FateOfWords ∧ ManualWords

/-- THE CHECKS OF AN ISSUE. An issue comes to its guard exactly when its encoding is legal and every register it names lies
below the thread's N or is V255; the guard is then true when there is none, or when it is not poisoned and its bit 0 is
1 - POL. -/
def Sys2Proof.Machine.IssueChecks : Prop :=
  ∀ (i : Instr) (sh : Shape) (f : Flds) (t : Thread) (n tid : Nat) (g : Bool),
    checkIssue i sh f t n tid = .ok g ↔
      sh.detail f = none ∧ (∀ r ∈ sh.named f, r < t.nregs ∨ 255 ≤ r) ∧
      ((f.guard = 127 ∧ g = true) ∨
        (f.guard ≠ 127 ∧ (t.readAny n tid f.guard).2 = false ∧ g = ((t.readAny n tid f.guard).1.getLsbD 0 == (f.pol == 0))))

/-- A CHECK THAT FAILS IS THE TRAP. An instruction of one thread that fails a check takes that check's trap and has no effect: a
reserved encoding ILLEGAL-INSTRUCTION with its DETAIL and the words in TRAPADDR, a register out of range REGISTER-RANGE with
its number, a poisoned source DATA-POISON with DETAIL 1 and its number. -/
def Sys2Proof.Machine.ChecksTrap : Prop :=
  ∀ (i : Instr) (s : State) (tid : Nat) (t : Thread) (sh : Shape), plain i = true →
    s.issue = [tid] → s.thread? tid = some t → shapeOf t.tm i = some sh →
    let f := fldsOf i
    let next := nextStart s t.core t.pc f.words
    (∀ d, sh.detail f = some d →
      exec i s = .next { enterTrap tid t.pc next { cause := 1, detail := d, addr := words01 i } s with issue := [] }) ∧
    (sh.detail f = none → ∀ r, (sh.named f).find? (fun r => decide (t.nregs ≤ r) && decide (r < 255)) = some r →
      exec i s = .next { enterTrap tid t.pc next { cause := 2, detail := r, addr := words01 i } s with issue := [] }) ∧
    (checkIssue i sh f t s.count tid = .ok true → ∀ r, (sh.sources f).find? (fun r => (t.readAny s.count tid r).2) = some r →
      exec i s = .next { enterTrap tid t.pc next { cause := 0x10, detail := 1, addr := BitVec.ofNat 64 r } s with issue := [] })

/-- A FALSE GUARD. An instruction of one thread whose guard is false issues and retires, writes nothing, leaves its set flag
alone and raises no trap of its operation. -/
def Sys2Proof.Machine.GuardFalse : Prop :=
  ∀ (i : Instr) (s : State) (tid : Nat) (c : Ctx), plain i = true → Skips s tid i c →
    exec i s = .next (issued s c (c.after none []))

/-- THE ISSUE OF AN INSTRUCTION: its checks, their traps, and a false guard. -/
def Obligations.IssueRules : Prop :=
  IssueChecks ∧ ChecksTrap ∧ GuardFalse

/-- A STEP RUNS THE DECODED INSTRUCTION. A core that is to issue, with no STEP and no arrival before it, takes the first set of its
order, and the step is exec of the instruction that the set's members stand at, the set's port and unit being taken and its sample
counted first. A member that no wait holds stands at the set's address, and the instruction is what the decoder reads from the
fetch block's words from that address on. Words that are no instruction make every member take ILLEGAL-INSTRUCTION. -/
def Obligations.StepRunsDecoded : Prop :=
  (∀ (s : State) (core : Nat) (rest : List Move) (set : IssueSet), s.off = false → s.agenda = .issue core :: rest →
    let r := settleCore core { s with agenda := rest }
    let u := r.modCore core fun c => { c with begun := true }
    readyStep r core = none → nextArrivals r core = none → nextSet r core = some set →
    (∀ i n, set.what = .instr i n → step s = exec i (sampleSet core i set.members (openSet core set u))) ∧
    (∀ d, set.what = .illegal d → step s = .next { illegalSet d set.members (openSet core set u) with issue := [] })) ∧
  (∀ (s : State) (core : Nat) (set : IssueSet), nextSet s core = some set →
    ∀ tid ∈ set.members, ∃ t, (tid, t) ∈ s.threads ∧ t.core = core ∧ t.pc = set.pc ∧
      (t.released = false → ∃ ws, heldBlock s core (set.pc.toNat / 32) = some ws ∧
        set.what = decodeWords (8 - set.pc.toNat % 32 / 4) (ws.drop (set.pc.toNat % 32 / 4))))

/-- ADDITIONS AND SUBTRACTIONS. IADD in its four forms, ISUB, IADDC, IADD3, IADD64, ISUB64, IABS and INEG write the exact
result modulo 2^32 (2^64 for a pair), clamped under SAT, and IADDC writes the carry out; nothing else changes. -/
def Sys2Proof.Machine.AddSubtractResults : Prop := Gives sums

/-- PRODUCTS. IMUL, IMULH, IMULW, IMAD in its forms and IMADW write the product, its high word or the sum with the addend,
modulo 2^32 or 2^64; the tied forms read VD. -/
def Sys2Proof.Machine.ProductResults : Prop := Gives products

/-- INTEGER SUMS AND PRODUCTS: both tables of results hold. -/
def Obligations.SumsAndProducts : Prop :=
  AddSubtractResults ∧ ProductResults

/-- CHOICES. IMIN, IMAX, ICLAMP, ICMP, ICMP64 and SEL write the operand, or the truth value, that 04 R93 names. -/
def Sys2Proof.Machine.ChoiceResults : Prop := Gives choices

/-- LOGIC AND SHIFTS. LOP, SHL, SHR, ROL, ROR, FSHL and FSHR in every form write what 04 R94 to R96 compute, for every
shift count a register can hold. -/
def Sys2Proof.Machine.LogicShiftResults : Prop := Gives shifts

/-- FIELDS, COUNTS, MOVES, DOT PRODUCTS AND CONVERSIONS. BFE, BFI, BMSK, POPC, CLZ, CTZ, LEA, MOV in every form, ICVT, IDOT
and SAD write what 04 R97 to R103 compute. -/
def Sys2Proof.Machine.FieldResults : Prop := Gives fields

/-- BITWISE INSTRUCTIONS. LUT3 writes at each bit the table's bit at the index the three sources form; BREV writes the bits
in reverse order, of a register or of a pair; BSEL writes in each byte the selected byte after its sign, reversal and
complement steps. -/
def Sys2Proof.Machine.BitwiseResults : Prop :=
  ∀ (i : Instr) (s : State) (tid : Nat) (c : Ctx), Issues s tid i c →
    (∀ f, i = .lut3 f → ∃ v : Word, exec i s = .next (wrote s c (c.to32 v)) ∧
      ∀ k < 32, v.getLsbD k = bitAt (c.f.mod / 1024 % 256)
        ((c.va.toNat / 2 ^ k) % 2 + 2 * ((c.vb.toNat / 2 ^ k) % 2) + 4 * ((c.vc.toNat / 2 ^ k) % 2))) ∧
    (∀ f, i = .brev f → c.m 7 = false → ∃ v : Word, exec i s = .next (wrote s c (c.to32 v)) ∧
      ∀ k < 32, v.getLsbD k = c.va.getLsbD (31 - k)) ∧
    (∀ f, i = .brev f → c.m 7 = true → ∃ v : DWord, exec i s = .next (wrote s c (c.to64 v)) ∧
      ∀ k < 64, v.getLsbD k = (c.p c.f.va).getLsbD (63 - k)) ∧
    (∀ f, i = .bsel f → ∃ v : Word, exec i s = .next (wrote s c (c.to32 v)) ∧
      ∀ k < 4, ∀ j < 8,
        let ctl := c.vc.toNat / 2 ^ (8 * k) % 256
        let src := (c.vb ++ c.va : DWord)
        let bit := fun n => src.getLsbD (8 * (ctl % 8) + n)
        v.getLsbD (8 * k + j) = (bitAt ctl 4 ^^
          (if bitAt ctl 3 then false else if bitAt ctl 5 then bit 7 else if bitAt ctl 6 then bit (7 - j) else bit j)))

/-- COMPARISONS, LOGIC, SHIFTS, FIELDS AND CONVERSIONS OF INTEGERS: the tables of results hold, and LUT3, BREV and PRMT bit by bit. -/
def Obligations.ChoicesLogicAndFields : Prop :=
  ChoiceResults ∧ LogicShiftResults ∧ FieldResults ∧ BitwiseResults

/-- THE CONSTANT OF A C64 FORM. A form whose bank word is poisoned takes DATA-POISON with DETAIL 4 and the bank and offset of
that word in TRAPADDR, and writes no result (03 R72, 13 R308). -/
def Sys2Proof.Machine.BankPoisonTraps : Prop :=
  ∀ (i : Instr) (s : State) (tid : Nat) (c : Ctx), Issues s tid i c →
    (bankWord s c.t.core c.f.bank (4 * c.f.imm)).2 = true →
    (∃ g, formOf i = some (.c64 g)) →
    exec i s = .next { enterTrap tid c.pc c.next
      { cause := 0x10, detail := 4, addr := BitVec.ofNat 64 (65536 * c.f.bank + 4 * c.f.imm) } s with issue := [] }

namespace Sys2Proof.Machine

/-- A source under absolute value and negation of its sign bit (03 R75, 05 R106). -/
def signed32 (abs neg : Bool) (x : Word) : Word :=
  let y := if abs then x &&& 0x7FFFFFFF#32 else x
  if neg then y ^^^ 0x80000000#32 else y
def signed64 (abs neg : Bool) (x : DWord) : DWord :=
  let y := if abs then x &&& 0x7FFFFFFFFFFFFFFF#64 else x
  if neg then y ^^^ 0x8000000000000000#64 else y

/-- The FP32 and FP64 sources of an instruction under its modifiers. -/
def Ctx.sa (c : Ctx) : Word := signed32 (c.m 4) (c.m 3) c.va
def Ctx.sb (c : Ctx) : Word := signed32 (c.m 6) (c.m 5) c.vb
def Ctx.sc (c : Ctx) : Word := signed32 (c.m 11) (c.m 10) c.vc
def Ctx.sk (c : Ctx) (k : Word) : Word := signed32 false (c.m 5) k
def Ctx.ta (c : Ctx) : DWord := signed64 (c.m 4) (c.m 3) (c.p c.f.va)
def Ctx.tb (c : Ctx) : DWord := signed64 (c.m 6) (c.m 5) (c.p c.f.vb)
def Ctx.tc (c : Ctx) : DWord := signed64 (c.m 11) (c.m 10) (c.p c.f.vc)
def Ctx.tk (c : Ctx) (k : DWord) : DWord := signed64 false (c.m 5) k

/-- The exact values of FP32 and FP64 bits, and the bits of a value rounded in a mode (02 R37, R49). -/
def f32 (x : Word) : Val := fp32.decode x.toNat
def f64 (x : DWord) : Val := fp64.decode x.toNat
def r32 (rm : Rm) (v : Val) : Word := BitVec.ofNat 32 (fp32.round rm v)
def r64 (rm : Rm) (v : Val) : DWord := BitVec.ofNat 64 (fp64.round rm v)

/-- The sum, the product and the product plus an addend, exact, an exact zero signed for the mode (02 R40, 05 R110). -/
def plus (rm : Rm) (a b : Val) : Val := Val.add (rm == .rd) a b
def fma (rm : Rm) (a b k : Val) : Val := plus rm (Val.mul a b) k

/-- The rounding mode of RM (02 R48). -/
def Ctx.mode (c : Ctx) : Rm :=
  if c.f.mod % 8 = 1 then .rz else if c.f.mod % 8 = 2 then .ru else if c.f.mod % 8 = 3 then .rd
  else if c.f.mod % 8 = 4 then .ra else .rn

/-- The literals of the I64 and I96 forms as FP32 bits (05 R107). -/
def Ctx.top20 (c : Ctx) : Word := BitVec.ofNat 20 c.f.imm ++ (0 : BitVec 12)
def Ctx.all32 (c : Ctx) : Word := BitVec.ofNat 32 c.f.imm

/-- FP32 and FP64 arithmetic (05 R107, R109, R110). -/
def floats (s : State) (c : Ctx) : Instr → Option (List (Nat × Word))
  | .faddA64 _ => some (c.to32 (r32 c.mode (plus c.mode (f32 c.sa) (f32 c.sb))))
  | .faddI64 _ => some (c.to32 (r32 .rn (plus .rn (f32 c.va) (f32 c.top20))))
  | .faddC64 _ => (konst s c).map fun k => c.to32 (r32 c.mode (plus c.mode (f32 c.sa) (f32 (c.sk k))))
  | .faddI96 _ => some (c.to32 (r32 .rn (plus .rn (f32 c.va) (f32 c.all32))))
  | .fsub _ => some (c.to32 (r32 c.mode (plus c.mode (f32 c.sa) (f32 c.sb).neg)))
  | .fmulA64 _ => some (c.to32 (r32 c.mode (Val.mul (f32 c.sa) (f32 c.sb))))
  | .fmulI64 _ => some (c.to32 (r32 .rn (Val.mul (f32 c.va) (f32 c.top20))))
  | .fmulC64 _ => (konst s c).map fun k => c.to32 (r32 c.mode (Val.mul (f32 c.sa) (f32 (c.sk k))))
  | .fmulI96 _ => some (c.to32 (r32 .rn (Val.mul (f32 c.va) (f32 c.all32))))
  | .ffmaA96 _ => some (c.to32 (r32 c.mode (fma c.mode (f32 c.sa) (f32 c.sb) (f32 c.sc))))
  | .ffmaI64 _ => some (c.to32 (r32 .rn (fma .rn (f32 c.vd) (f32 c.va) (f32 c.top20))))
  | .ffmaC64 _ => (konst s c).map fun k => c.to32 (r32 c.mode (fma c.mode (f32 c.vd) (f32 c.sa) (f32 (c.sk k))))
  | .ffmaI96 _ => some (c.to32 (r32 .rn (fma .rn (f32 c.va) (f32 c.vb) (f32 c.all32))))
  | .daddA64 _ => some (c.to64 (r64 c.mode (plus c.mode (f64 c.ta) (f64 c.tb))))
  | .daddC64 _ => (konst64 s c).map fun k => c.to64 (r64 c.mode (plus c.mode (f64 c.ta) (f64 (c.tk k))))
  | .dsub _ => some (c.to64 (r64 c.mode (plus c.mode (f64 c.ta) (f64 c.tb).neg)))
  | .dmulA64 _ => some (c.to64 (r64 c.mode (Val.mul (f64 c.ta) (f64 c.tb))))
  | .dmulC64 _ => (konst64 s c).map fun k => c.to64 (r64 c.mode (Val.mul (f64 c.ta) (f64 (c.tk k))))
  | .dfmaA96 _ => some (c.to64 (r64 c.mode (fma c.mode (f64 c.ta) (f64 c.tb) (f64 c.tc))))
  | .dfmaC64 _ => (konst64 s c).map fun k =>
      c.to64 (r64 c.mode (fma c.mode (f64 (c.p c.f.vd)) (f64 c.ta) (f64 (c.tk k))))
  | _ => none

/-- The class-V functions of FP32 and the scalings and roundings to an integral value (05 R114 to R117). -/
def functions (_s : State) (c : Ctx) : Instr → Option (List (Nat × Word))
  | .frcp _ => some (c.to32 (BitVec.ofNat 32 (fdiv c.mode (f32 0x3F800000#32) (f32 c.sa))))
  | .fdiv _ => some (c.to32 (BitVec.ofNat 32 (fdiv c.mode (f32 c.sa) (f32 c.sb))))
  | .frsq _ => some (c.to32 (BitVec.ofNat 32 (frsq (f32 c.sa))))
  | .fsqrt _ => some (c.to32 (BitVec.ofNat 32 (fsqrt c.mode (f32 c.sa))))
  | .fexp2 _ => some (c.to32 (BitVec.ofNat 32 (fexp2 (f32 c.sa))))
  | .flog2 _ => some (c.to32 (BitVec.ofNat 32 (flog2 (f32 c.sa))))
  | .fsin _ => some (c.to32 (BitVec.ofNat 32 (fsin (f32 c.sa))))
  | .fcos _ => some (c.to32 (BitVec.ofNat 32 (fcos (f32 c.sa))))
  | .frnd _ => some (c.to32 (match f32 c.sa with
      | .fin n m e => r32 .rn (.fin n (roundInt c.mode n m e) 0)
      | v => r32 .rn v))
  | .drnd _ => some (c.to64 (match f64 c.ta with
      | .fin n m e => r64 .rn (.fin n (roundInt c.mode n m e) 0)
      | v => r64 .rn v))
  | .fscale _ => some (c.to32 (r32 c.mode ((f32 c.sa).scale c.vb.toInt)))
  | .dscale _ => some (c.to64 (r64 c.mode ((f64 c.ta).scale c.vb.toInt)))
  | _ => none

/-- The order of FP32 and FP64 bits that are not NaN as integers, -0 next below +0 (05 R111). -/
def rank32 (x : Word) : Int := if x.msb then -1 - (x &&& 0x7FFFFFFF#32).toNat else x.toNat
def rank64 (x : DWord) : Int := if x.msb then -1 - (x &&& 0x7FFFFFFFFFFFFFFF#64).toNat else x.toNat
/-- FP32 and FP64 bits that are NaN (02 R37). -/
def nan32 (x : Word) : Bool := decide ((x &&& 0x7FFFFFFF#32).toNat > 0x7F800000)
def nan64 (x : DWord) : Bool := decide ((x &&& 0x7FFFFFFFFFFFFFFF#64).toNat > 0x7FF0000000000000)

/-- The smaller or larger of two operands, the other one of a NaN, CanonNaN of two (05 R111). -/
def pick32 (max : Bool) (a b : Word) : Word :=
  if nan32 a && nan32 b then 0x7FC00000#32 else if nan32 a then b else if nan32 b then a
  else if (rank32 a ≤ rank32 b) = (max = false) then a else b
def pick64 (max : Bool) (a b : DWord) : DWord :=
  if nan64 a && nan64 b then 0x7FF8000000000000#64 else if nan64 a then b else if nan64 b then a
  else if (rank64 a ≤ rank64 b) = (max = false) then a else b

/-- The order of two operands in a comparison: the zeros are equal (05 R112). -/
def level32 (x : Word) : Int := if x.msb then -((x &&& 0x7FFFFFFF#32).toNat : Int) else x.toNat
def level64 (x : DWord) : Int := if x.msb then -((x &&& 0x7FFFFFFFFFFFFFFF#64).toNat : Int) else x.toNat
/-- CC's condition on an unordered pair, or on the ranks of an ordered one (05 R112). -/
def meets (cc : Nat) (unordered : Bool) (a b : Int) : Bool :=
  if unordered then cc == 1 || cc == 6
  else (cc == 0 && a == b) || (cc == 1 && a != b) || (cc == 2 && decide (a < b)) || (cc == 3 && decide (a ≤ b))
    || (cc == 4 && decide (b < a)) || (cc == 5 && decide (b ≤ a)) || cc == 7

/-- The class of raw bits with a fraction of `fb` bits and an exponent of `eb` (05 R113). -/
def classBit (eb fb : Nat) (x : Nat) : Nat :=
  let neg := decide (x / 2 ^ (eb + fb) % 2 = 1)
  let e := x / 2 ^ fb % 2 ^ eb
  let f := x % 2 ^ fb
  if e = 2 ^ eb - 1 then (if f = 0 then (if neg then 0 else 7) else if f ≥ 2 ^ (fb - 1) then 9 else 8)
  else if e = 0 then (if f = 0 then (if neg then 3 else 4) else if neg then 2 else 5)
  else if neg then 1 else 6

/-- Minimum, maximum, comparison and classification (05 R111 to R113). -/
def orders (s : State) (c : Ctx) : Instr → Option (List (Nat × Word))
  | .fminA64 _ => some (c.to32 (pick32 false c.sa c.sb))
  | .fminI64 _ => some (c.to32 (pick32 false c.va c.top20))
  | .fminC64 _ => (konst s c).map fun k => c.to32 (pick32 false c.sa (c.sk k))
  | .fmaxA64 _ => some (c.to32 (pick32 true c.sa c.sb))
  | .fmaxI64 _ => some (c.to32 (pick32 true c.va c.top20))
  | .fmaxC64 _ => (konst s c).map fun k => c.to32 (pick32 true c.sa (c.sk k))
  | .dmin _ => some (c.to64 (pick64 false c.ta c.tb))
  | .dmax _ => some (c.to64 (pick64 true c.ta c.tb))
  | .fcmpA64 _ => some (c.to32 (one32 (meets (c.f.mod % 8) (nan32 c.sa || nan32 c.sb) (level32 c.sa) (level32 c.sb))))
  | .fcmpC64 _ => (konst s c).map fun k =>
      c.to32 (one32 (meets (c.f.mod % 8) (nan32 c.sa || nan32 (c.sk k)) (level32 c.sa) (level32 (c.sk k))))
  | .dcmp _ => some (c.to32 (one32 (meets (c.f.mod % 8) (nan64 c.ta || nan64 c.tb) (level64 c.ta) (level64 c.tb))))
  | .fclass _ => some (c.to32 (BitVec.ofNat 32 (2 ^ classBit 8 23 c.va.toNat)))
  | .dclass _ => some (c.to32 (BitVec.ofNat 32 (2 ^ classBit 11 52 (c.p c.f.va).toNat)))
  | _ => none

/-- The element format of packed arithmetic (05 R106). -/
def Ctx.packed (c : Ctx) : Fp := if c.m 9 then bf16 else fp16
/-- Element `e` of a packed operand under its modifiers. -/
def signed16 (abs neg : Bool) (x : Word) (e : Nat) : BitVec 16 :=
  let y := x.extractLsb' (16 * e) 16
  let y := if abs then y &&& 0x7FFF#16 else y
  if neg then y ^^^ 0x8000#16 else y
def Ctx.ea (c : Ctx) (e : Nat) : Val := c.packed.decode (signed16 (c.m 4) (c.m 3) c.va e).toNat
def Ctx.eb (c : Ctx) (e : Nat) : Val := c.packed.decode (signed16 (c.m 6) (c.m 5) c.vb e).toNat
def Ctx.ec (c : Ctx) (e : Nat) : Val := c.packed.decode (signed16 (c.m 11) (c.m 10) c.vc e).toNat
/-- Two elements in a register, element 1 in the high half. -/
def two (g : Nat → Nat) : Word := BitVec.ofNat 16 (g 1) ++ BitVec.ofNat 16 (g 0)

/-- Packed 16-bit arithmetic (05 R119). -/
def packs (_s : State) (c : Ctx) : Instr → Option (List (Nat × Word))
  | .hadd2 _ => some (c.to32 (two fun e => c.packed.round c.mode (plus c.mode (c.ea e) (c.eb e))))
  | .hmul2 _ => some (c.to32 (two fun e => c.packed.round c.mode (Val.mul (c.ea e) (c.eb e))))
  | .hfma2 _ => some (c.to32 (two fun e => c.packed.round c.mode (fma c.mode (c.ea e) (c.eb e) (c.ec e))))
  | .hmin2 _ => some (c.to32 (two fun e => minMax c.packed false (signed16 (c.m 4) (c.m 3) c.va e).toNat
      (signed16 (c.m 6) (c.m 5) c.vb e).toNat))
  | .hmax2 _ => some (c.to32 (two fun e => minMax c.packed true (signed16 (c.m 4) (c.m 3) c.va e).toNat
      (signed16 (c.m 6) (c.m 5) c.vb e).toNat))
  | .hcmp2 _ => some (c.to32 (two fun e => if cmpFloat (c.f.mod % 8) (c.ea e) (c.eb e) then 1 else 0))
  | _ => none

/-- A conversion's destination: a pair for a 64-bit format (05 R123). -/
def Ctx.toFmt (c : Ctx) (v : Nat) : List (Nat × Word) :=
  let d := c.f.mod / 8 % 32
  if d = 9 ∨ d = 10 ∨ d = 14 then c.to64 (BitVec.ofNat 64 v) else c.to32 (BitVec.ofNat 32 v)
/-- A conversion's source bits (05 R105, R123). -/
def Ctx.ofFmt (c : Ctx) : Nat :=
  let d := c.f.mod / 256 % 32
  if d = 9 ∨ d = 10 ∨ d = 14 then (c.p c.f.va).toNat else if d = 11 ∨ d = 12 then c.va.toNat % 65536 else c.va.toNat
/-- The rounding mode of a conversion: SR with seed VB and coordinate VC (05 R124). -/
def Ctx.cmode (c : Ctx) : Rm := if c.f.mod % 8 = 5 then .sr (srHash c.vb.toNat [c.vc.toNat, 0, 0, 0, 0]) else c.mode

/-- Conversions (05 R121 to R127). The packing instructions say something where the record in VB is valid. -/
def converts (_s : State) (c : Ctx) : Instr → Option (List (Nat × Word))
  | .fcvt _ => some (c.toFmt ((fpOf (c.f.mod / 8 % 32)).roundSat c.cmode (c.m 13) ((fpOf (c.f.mod / 256 % 32)).decode c.ofFmt)))
  | .f2i _ => some (c.toFmt (BitVec.ofInt 64
      (floatToInt (c.f.mod / 8 % 32) c.mode ((fpOf (c.f.mod / 256 % 32)).decode c.ofFmt))).toNat)
  | .i2f _ => some (c.toFmt ((fpOf (c.f.mod / 8 % 32)).roundSat c.cmode (c.m 13)
      (Val.ofInt (intDecode (c.f.mod / 256 % 32) c.ofFmt) 0)))
  | .mfpack _ => if recValid (c.f.mod / 8 % 32) c.vb.toNat then
      let w := if c.f.mod / 8 % 32 = 17 then 4 else if c.f.mod / 8 % 32 = 18 then 6 else 8
      let rm (i : Nat) : Rm :=
        if c.f.mod % 8 = 5 then .sr (srHash (c.r (c.f.vc + 1)).toNat [c.vc.toNat / 256, i, 0, 0, 0]) else c.mode
      some (c.to32 (BitVec.ofNat 32 (((List.range (if w = 4 then 8 else 4)).map fun i =>
        2 ^ (w * i) * mfPackElem (mfOf c.vb.toNat) (rm i) (c.m 13) (c.m 14) (c.vc.toNat % 256) (c.r (c.f.va + i)).toNat).sum)))
    else none
  | .mfunpack _ => if recValid (c.f.mod / 8 % 32) c.vb.toNat then
      let w := if c.f.mod / 8 % 32 = 17 then 4 else if c.f.mod / 8 % 32 = 18 then 6 else 8
      some ((List.range (if w = 4 then 8 else 4)).map fun i => (c.f.vd + i,
        BitVec.ofNat 32 (fp32.roundSat c.mode (c.m 13)
          (scaleElem (c.vc.toNat % 256) ((mfOf c.vb.toNat).decode (c.va.toNat / 2 ^ (w * i) % 2 ^ w))))))
    else none
  | _ => none

end Sys2Proof.Machine

/-- FLOATING-POINT ARITHMETIC. FADD, FSUB, FMUL, FFMA, DADD, DSUB, DMUL and DFMA in every form write the exact result of
their sources under the sign modifiers, rounded once in the mode of RM (RN in the I64 and I96 forms). -/
def Sys2Proof.Machine.FloatArithmeticResults : Prop := Gives floats

/-- FUNCTIONS. FRCP, FRSQ, FSQRT, FDIV, FEXP2, FLOG2, FSIN, FCOS, FRND, DRND, FSCALE and DSCALE write the function of their
source under the sign modifiers; FRCP is the division of one. -/
def Sys2Proof.Machine.FloatFunctionResults : Prop := Gives functions

/-- FLOATING-POINT ARITHMETIC AND FUNCTIONS: both tables of results hold. -/
def Obligations.FloatArithmetic : Prop :=
  FloatArithmeticResults ∧ FloatFunctionResults

/-- MINIMUM, MAXIMUM, COMPARISON AND CLASS. FMIN, FMAX, DMIN and DMAX in every form return an operand with its own bits, the
other one of a NaN and CanonNaN of two; FCMP and DCMP write CC's truth value; FCLASS and DCLASS write the one class bit. -/
def Sys2Proof.Machine.FloatOrderResults : Prop := Gives orders

/-- PACKED ARITHMETIC. HADD2, HMUL2, HFMA2, HMIN2, HMAX2 and HCMP2 do per 16-bit element what their FP32 kin do. HDOT2
writes the exact sum of VC and two products rounded once; where VC is -0 and both products are zero it writes -0. -/
def Sys2Proof.Machine.PackedResults : Prop :=
  Gives packs ∧
  ∀ (f : FA96) (s : State) (tid : Nat) (c : Ctx), Issues s tid (.hdot2 f) c →
    ∃ v : Word, exec (.hdot2 f) s = .next (wrote s c (c.to32 v)) ∧
      (let el (x : Word) (e : Nat) : Val := c.packed.decode (x.extractLsb' (16 * e) 16).toNat
       let p (e : Nat) : Val := Val.mul (el c.va e) (el c.vb e)
       (exactSum [f32 c.vc, p 0, p 1] = .nan → v = 0x7FC00000#32) ∧
       (∀ n m e, exactSum [f32 c.vc, p 0, p 1] = .fin n (m + 1) e → v = r32 c.mode (.fin n (m + 1) e)) ∧
       (∀ n, exactSum [f32 c.vc, p 0, p 1] = .inf n → v = if n then 0xFF800000#32 else 0x7F800000#32) ∧
       (∀ a b x y, c.vc = 0x80000000#32 → p 0 = .fin a 0 x → p 1 = .fin b 0 y → v = 0x80000000#32))

/-- FLOATING-POINT ORDER AND PACKED PAIRS. -/
def Obligations.FloatOrdersAndPairs : Prop :=
  FloatOrderResults ∧ PackedResults

/-- CONVERSIONS. FCVT, F2I and I2F round the source's value to the destination format, saturating where SAT or F2I asks for
it; MFPACK and MFUNPACK do so for each element under the block scale of VC, where the record in VB is valid. -/
def Sys2Proof.Machine.ConversionResults : Prop := Gives converts

/-- AN INVALID FORMAT RECORD. MFPACK and MFUNPACK whose record in VB is invalid under 02 R42 for the instruction's MF code take
FORMAT-TAG with DETAIL 3 and the record in TRAPADDR, and write nothing. -/
def Sys2Proof.Machine.InvalidRecordTraps : Prop :=
  ∀ (i : Instr) (s : State) (tid : Nat) (c : Ctx), Issues s tid i c →
    ((∃ f, i = .mfpack f) ∨ ∃ f, i = .mfunpack f) → recValid (c.f.mod / 8 % 32) c.vb.toNat = false →
    exec i s = .next { enterTrap tid c.pc c.next { cause := 7, detail := 3, addr := c.vb.setWidth 64 } s with issue := [] }

/-- FLOATING-POINT CONVERSIONS, and the trap of an invalid format record. -/
def Obligations.FloatConversions : Prop :=
  ConversionResults ∧ InvalidRecordTraps

namespace Sys2Proof.Machine

/-- The results of the register-only instructions of chapters 04 and 05. -/
def results (s : State) (c : Ctx) (i : Instr) : Option (List (Nat × Word)) :=
  [sums, products, choices, shifts, fields, floats, functions, orders, packs, converts].findSome? fun g => g s c i

end Sys2Proof.Machine

/-- MEMBERS ISSUE EACH FOR ITSELF. A set whose first member comes to the operation of a register-only instruction issues as
that member would alone and then the others as a set of their own. -/
def Obligations.SetsIssueMemberwise : Prop :=
  ∀ (i : Instr) (s : State) (a : Nat) (l : List Nat) (c : Ctx) (ws : List (Nat × Word)),
    Issues { s with issue := [a] } a i c → results s c i = some ws → l ≠ [] →
    exec i { s with issue := a :: l } = exec i { wrote s c ws with issue := l }

namespace Sys2Proof.Machine

/-- The target of a transfer, and the register of the pair that takes its link (03 R74, 06 R129, R130). -/
def transferOf (c : Ctx) : Instr → Option (VAddr × Option Nat)
  | .bra _ => some (BitVec.ofInt 56 (c.pc.toNat + 4 * (BitVec.ofNat 24 c.f.imm).toInt), none)
  | .call _ => some (BitVec.ofInt 56 (c.pc.toNat + 4 * (BitVec.ofNat 24 c.f.imm).toInt), some (2 * c.f.bank))
  | .brx _ => some ((c.p c.f.va).setWidth 56, none)
  | .callx _ => some ((c.p c.f.va).setWidth 56, some c.f.vd)
  | .ret _ => some ((c.p c.f.va).setWidth 56, none)
  | _ => none

/-- The link of a call: the next instruction start under eight zero bits, in a pair (06 R130). -/
def Ctx.linkTo (c : Ctx) (k : Nat) : List (Nat × Word) :=
  [(k, c.next.setWidth 32), (k + 1, (c.next >>> 32).setWidth 32)]

/-- A thread's part of an issue: it is as given, and no other thread, team, grid or core storage has changed. -/
def OnlyThread (s u : State) (tid : Nat) (t : Thread) : Prop :=
  u.thread? tid = some t ∧ (∀ k, k ≠ tid → u.thread? k = s.thread? k) ∧ u.teams = s.teams ∧ u.grids = s.grids ∧ u.issue = [] ∧
  ∀ k, (u.core k).pool = (s.core k).pool ∧ (u.core k).tiles = (s.core k).tiles ∧ (u.core k).sideBand = (s.core k).sideBand ∧
    (u.core k).banks = (s.core k).banks ∧ (u.core k).cmds = (s.core k).cmds

end Sys2Proof.Machine

/-- A TAKEN TRANSFER. BRA, CALL, BRX, CALLX and RET whose target passes its check set the PC to the target; CALL and CALLX
put the next instruction start in their link pair; nothing else of any thread, team or core's storage changes. -/
def Sys2Proof.Machine.TransfersTaken : Prop :=
  ∀ (i : Instr) (s : State) (tid : Nat) (c : Ctx) (a : VAddr) (link : Option Nat),
    Issues s tid i c → transferOf c i = some (a, link) → (checkTarget c.t.core a (moved s c)).1 = none →
    ∃ u, exec i s = .next u ∧ OnlyThread s u tid
      { c.after c.raised ((link.map fun k => c.result (c.linkTo k)).toList) with pc := a }

/-- A TRANSFER WHOSE TARGET FAILS takes that trap at its own issue: the PC does not go to the target, no link is written and
the instruction does not count as retired. -/
def Sys2Proof.Machine.TransfersTrapped : Prop :=
  ∀ (i : Instr) (s : State) (tid : Nat) (c : Ctx) (a : VAddr) (link : Option Nat) (tr : Trap),
    Issues s tid i c → transferOf c i = some (a, link) → (checkTarget c.t.core a (moved s c)).1 = some tr →
    exec i s = .next { enterTrap tid c.pc c.next tr s with issue := [] }

/-- TRANSFERS OF CONTROL, taken and trapped. -/
def Obligations.Transfers : Prop :=
  TransfersTaken ∧ TransfersTrapped

/-- THE CHECK OF A TARGET whose fetch block the core holds. A target that is a multiple of 4 and an instruction start of its
block passes; another word raises BAD-TARGET with the last start at or before it (7 if none) in DETAIL[5:3] and its own word
in DETAIL[2:0]; a target that is no multiple of 4 raises it with DETAIL[7] set. -/
def Sys2Proof.Machine.TargetCheck : Prop :=
  ∀ (s : State) (core : Nat) (a : VAddr) (ws : List Word), heldBlock s core (blockNo a) = some ws →
    let w := a.toNat / 4 % 8
    let before := (startsFrom 8 0 ws).filter (· ≤ w)
    (checkTarget core a s).1 =
      if a.toNat % 4 = 0 ∧ w ∈ startsFrom 8 0 ws then none
      else some { cause := 3, addr := a.setWidth 64,
                  detail := (if a.toNat % 4 = 0 then 0 else 128) + 8 * before.getLastD 7 + w }

/-- INSTRUCTION STARTS. In any eight words the first word is a start unless it is a pad word; after a start of n words comes
the start n words on, unless that is a pad word or past the block. -/
def Sys2Proof.Machine.InstructionStarts : Prop :=
  ∀ ws : List Word, (0 ∈ startsFrom 8 0 ws ↔ (wordAt ws 0).toNat % 4 ≠ 3) ∧
    ∀ k ∈ startsFrom 8 0 ws, k < 8 ∧
      let n := (wordAt ws k).toNat % 4 + 2
      (k + n ∈ startsFrom 8 0 ws ↔ k + n < 8 ∧ (wordAt ws (k + n)).toNat % 4 ≠ 3) ∧
      ∀ j, k < j → j < k + n → j ∉ startsFrom 8 0 ws

/-- TARGETS AND INSTRUCTION STARTS. -/
def Obligations.TargetsAndStarts : Prop :=
  TargetCheck ∧ InstructionStarts

/-- ADR writes the address it names, modulo 2^56, under eight zero bits. NOP and an instruction whose guard is false change
nothing but the bookkeeping of an issue. SLEEP holds its thread's next issue to clk t + 1 + n. EXIT makes the thread issue
nothing further. -/
def Sys2Proof.Machine.PlainControl : Prop :=
  ∀ (i : Instr) (s : State) (tid : Nat) (c : Ctx), Issues s tid i c →
    (∀ f, i = .adr f → ∃ v : DWord, exec i s = .next (wrote s c (c.to64 v)) ∧
      (v.toNat : Int) = (c.pc.toNat + 4 * (BitVec.ofNat 20 c.f.imm).toInt) % 2 ^ 56) ∧
    (∀ f, i = .nop f → exec i s = .next (issued s c (c.after none []))) ∧
    (∀ f, i = .sleep f → exec i s = .next (issued s c { c.after none [] with notBefore := s.clkOf c.t.core + 1 + c.f.imm })) ∧
    (∀ f, i = .exit f → exec i s = .next (issued s c { c.after none [] with conv := .exiting }))

/-- GETS AND SETS. GETS of a register that no SETS in flight names writes its value at the issue, CYCLES being the die's clk
and RETIRED leaving the GETS itself out. SETS puts its value in flight for the register; it is written at the completion. -/
def Obligations.SpecialRegisters : Prop :=
  ∀ (i : Instr) (s : State) (tid : Nat) (c : Ctx), Issues s tid i c →
    (∀ f, i = .gets f → c.t.flight.all (fun e => e.sreg.all fun w => w.1 != c.f.mod % 256) = true →
      exec i s = .next (wrote s c (
        let sel := c.f.mod % 256
        let t := c.t
        if sel = 0x11 then c.to64 t.trapPc else if sel = 0x12 then c.to64 t.trapAddr else if sel = 0x14 then c.to64 t.epc
        else if sel = 0x20 then c.to64 (BitVec.ofNat 64 (s.clkOf t.core)) else if sel = 0x21 then c.to64 t.retired
        else if sel = 0x28 then c.to64 t.terms else if sel = 0x29 then c.to64 t.termCyc else if sel = 0x2A then c.to64 t.termSkew
        else c.to32 (if sel = 0 then t.lane else if sel = 1 then t.wave else if sel = 2 then t.teamIdx
          else if sel = 3 then t.teamDim else if sel = 4 then t.gridId else if sel = 5 then t.cohort
          else if sel = 6 then t.coreNo else if sel = 7 then t.clusterNo else if sel = 8 then t.dieNo
          else if sel = 9 then t.depth else if sel = 10 then t.gang else if sel = 0x10 then t.trapCause else t.trapMask)))) ∧
    (∀ f, i = .sets f → exec i s = .next (issued s c (c.after c.raised
      [{ cls := .v, ready := s.clkOf c.t.core, flag := c.flag, regs := [], poison := [],
         sreg := some (c.f.mod % 256, if c.f.mod % 256 = 10 then c.va.setWidth 64 else c.p c.f.va) }])))

/-- TRAP AND BKPT. TRAP raises SOFTWARE: DETAIL is IMM[7:0], TRAPADDR is IMM, and EPC is the next instruction start. BKPT outside
capture raises BREAKPOINT with its BCODE; under capture it halts its thread at itself, with one record, and has no effect
when the thread resumes past it. -/
def Sys2Proof.Machine.SoftwareTrap : Prop :=
  (∀ (f : FI64) (s : State) (tid : Nat) (c : Ctx), Issues s tid (.trap f) c →
    exec (.trap f) s = .next { enterTrap tid c.pc c.next
      { cause := 5, detail := c.f.imm % 256, addr := BitVec.ofNat 64 c.f.imm, next := true } s with issue := [] }) ∧
  ∀ (f : FA64) (s : State) (tid : Nat) (c : Ctx) (x : Team), Issues s tid (.bkpt f) c → s.team? c.t.team = some x →
    ((s.part x.part).dbgctl.getLsbD 2 = false → exec (.bkpt f) s = .next { enterTrap tid c.pc c.next
      { cause := 6, detail := c.f.mod % 256, addr := 0, next := true } s with issue := [] }) ∧
    ((s.part x.part).dbgctl.getLsbD 2 = true → c.t.pastBreak = true → exec (.bkpt f) s = .next (issued s c (c.after none []))) ∧
    ((s.part x.part).dbgctl.getLsbD 2 = true → c.t.pastBreak = false → ∃ u, exec (.bkpt f) s = .next u ∧
      u.thread? tid = some { c.t with halted := .atBreak, haltNext := false, lastIssue := some c.clk } ∧
      (∀ k, k ≠ tid → u.thread? k = s.thread? k) ∧ u.teams = s.teams ∧ u.dev = s.dev ∧
      (u.part x.part).dbgsent = (s.part x.part).dbgsent + 1)

/-- TRAP ENTRY. For a thread outside trap mode whose team has a handler that passes its check: TM, DETAIL and CAUSE go to
TRAPCAUSE, the instruction's address to TRAPPC, its own or the next address to EPC, the cause's value and mask to TRAPADDR
and TRAPMASK, and the PC to the handler; RETIRED, the registers and the flags stay. -/
def Sys2Proof.Machine.TrapEntry : Prop :=
  ∀ (s : State) (tid : Nat) (pc next : VAddr) (tr : Trap) (t : Thread) (x : Team),
    s.thread? tid = some t → s.team? t.team = some x → t.trapCause.getLsbD 31 = false → x.handler ≠ 0 →
    (checkTarget t.core x.handler s).1 = none →
    ∃ t', (enterTrap tid pc next tr s).thread? tid = some t' ∧
      (tr.cause < 256 → tr.detail < 256 → t'.trapCause.toNat = 2 ^ 31 + 65536 * tr.detail + tr.cause) ∧
      t'.trapPc = pc.setWidth 64 ∧ t'.epc = (if tr.next then next else pc).setWidth 64 ∧ t'.trapAddr = tr.addr ∧
      t'.trapMask = tr.mask ∧ t'.pc = x.handler ∧ t'.conv = .trapEntry ∧ t'.retired = t.retired ∧ t'.regs = t.regs ∧
      t'.flags = t.flags ∧ t'.flight = t.flight ∧ t'.gang = t.gang ∧
      (enterTrap tid pc next tr s).teams = s.teams ∧
      ∀ k, k ≠ tid → (enterTrap tid pc next tr s).thread? k = s.thread? k

/-- A DOUBLE FAULT. A trap in trap mode, or one whose team has no handler that is an instruction start, ends the team: its
kill is asked for and no thread's PC changes; one record goes to the fault queue. -/
def Sys2Proof.Machine.DoubleFaultKills : Prop :=
  ∀ (s : State) (tid : Nat) (pc next : VAddr) (tr : Trap) (t : Thread) (x : Team),
    s.thread? tid = some t → s.team? t.team = some x →
    (t.trapCause.getLsbD 31 = true ∨ x.handler = 0 ∨ (checkTarget t.core x.handler s).1.isSome = true) →
    (enterTrap tid pc next tr s).team? t.team = some { x with killReq := true } ∧
    (∀ k v, s.thread? k = some v → ∃ v', (enterTrap tid pc next tr s).thread? k = some v' ∧ v'.pc = v.pc) ∧
    ((t.trapCause.getLsbD 31 = true ∨ x.handler = 0) →
      ((enterTrap tid pc next tr s).part x.part).fqsent = (s.part x.part).fqsent + 1)

/-- TRAPS: the entry, and the double fault. -/
def Obligations.TrapsTaken : Prop :=
  TrapEntry ∧ DoubleFaultKills

/-- ERET whose EPC passes its check leaves trap mode: TM reads 0, the PC is EPC, and the other trap registers keep their
values. -/
def Sys2Proof.Machine.ReturnFromTrap : Prop :=
  ∀ (f : FA64) (s : State) (tid : Nat) (c : Ctx), Issues s tid (.eret f) c →
    c.t.flight.all (fun e => e.sreg.all fun w => w.1 != 0x14) = true →
    (checkTarget c.t.core (c.t.epc.setWidth 56) (moved s c)).1 = none →
    ∃ u, exec (.eret f) s = .next u ∧ OnlyThread s u tid
      { c.after none [] with pc := c.t.epc.setWidth 56, conv := .run,
                             trapCause := c.t.trapCause &&& 0x7FFFFFFF#32 }

/-- TRAP, BKPT AND ERET. -/
def Obligations.TrapInstructions : Prop :=
  SoftwareTrap ∧ ReturnFromTrap

/-- ICINV leaves on every core it affects no instruction-cache block that overlaps its range and an empty loop buffer; it
writes no register and changes no other thread. -/
def Sys2Proof.Machine.InstructionInvalidate : Prop :=
  ∀ (f : FA64) (s : State) (tid : Nat) (c : Ctx), Issues s tid (.icinv f) c →
    ∃ u, exec (.icinv f) s = .next u ∧
      u.thread? tid = some (c.after c.raised [c.result []]) ∧ (∀ k, k ≠ tid → u.thread? k = s.thread? k) ∧
      ∀ k ∈ icinvCores s c.t.core (c.f.mod % 4), (u.core k).loopBuf = [] ∧
        ∀ b ∈ (u.core k).icache, overlaps56 ((c.p c.f.va).toNat % 2 ^ 56) c.vb.toNat (32 * b.1) 32 = false

/-- ADR, NOP, SLEEP, EXIT AND ICINV. -/
def Obligations.ControlInstructions : Prop :=
  PlainControl ∧ InstructionInvalidate

namespace Sys2Proof.Machine

/-- The address of an M64 and of an A96 access (03 R73, 08 R167, R170). -/
def Ctx.eaM (c : Ctx) : Nat := (c.va + BitVec.signExtend 32 (BitVec.ofNat 16 c.f.imm)).toNat
def Ctx.eaA (c : Ctx) : Nat := (c.va + BitVec.signExtend 32 (BitVec.ofNat 16 (c.f.mod / 1024))).toNat

/-- The pool byte at which the region of a team's slot begins (08 R162). -/
def regionOfTeam (s : State) (x : Team) : Nat :=
  (s.core x.core).cfg.regG * 65536 + x.slot * (s.core x.core).cfg.spadP * 4096

/-- An access of `n` bytes at `a` lies in the team's region and is a multiple of its size (08 R162). -/
def InRegion (s : State) (c : Ctx) (x : Team) (a n : Nat) : Prop :=
  s.team? c.t.team = some x ∧ a % n = 0 ∧ a + n ≤ x.spadP * 4096

/-- An access of `n` bytes at peer address `a` reaches team `x` of the issuing team's cohort: the address has no bit outside
its fields, names a team of the cohort that holds its region, lies in that region and is a multiple of its size (15 R319,
R320). -/
def InPeer (s : State) (c : Ctx) (x : Team) (a n : Nat) : Prop :=
  ∃ me, s.team? c.t.team = some me ∧ a / 2 ^ 30 % 4 = 0 ∧ a / 2 ^ 20 % 16 = 0 ∧ a / 2 ^ 24 % 64 < me.cohort ∧
    cohortMember s me (a / 2 ^ 24 % 64) = some x ∧ a % 2 ^ 20 + n ≤ x.spadP * 4096 ∧ a % n = 0

/-- `n` bytes of a core's pool as a number, and whether they touch a poisoned 64-bit word (13 R310). -/
def poolNat (s : State) (core off n : Nat) : Nat :=
  ((List.range n).map fun k => (mget (s.core core).pool (off + k)).toNat * 256 ^ k).sum
def poolBad (s : State) (core off n : Nat) : Bool :=
  (s.core core).poolPoison.any fun w => decide (8 * w < off + n) && decide (off < 8 * w + 8)

/-- What waits for an access or a fence to be performed (01 R24, 08 R164). -/
def Ctx.waiting (c : Ctx) (w : FlightWait) : InFlight :=
  { cls := .v, ready := c.clk, flag := c.flag, regs := [], poison := [], sreg := none, wait := w }

/-- The access of an instruction to `n` bytes of a core's pool, with what 08 R165 puts before it. -/
def Ctx.accessOf (c : Ctx) (s : State) (core off n : Nat) (op : AccessOp) (rel : Bool) : Access :=
  { thread := c.tid, team := c.t.team, core := core, off := off, size := n, op := op,
    prior := c.prior { core := core, off := off } n rel s }

/-- A state in which the issuing thread has moved on, with an access under way: the instruction is in flight until it is performed,
and under ACQ the thread's later accesses follow it. -/
def Ctx.begins (c : Ctx) (a : Access) (acq : Bool) (u : State) : State :=
  let t := c.after c.raised [c.waiting (.access u.fresh)]
  { u with
    threads := tput u.threads c.tid (if acq then { t with before := c.t.before ++ [u.fresh] } else t),
    cores := tput u.cores c.t.core { u.core c.t.core with accs := tput (u.core c.t.core).accs u.fresh a },
    fresh := u.fresh + 1 }

/-- The state after the issue of an instruction whose only effect is an access. -/
def accessed (s : State) (c : Ctx) (a : Access) (acq : Bool) : State := c.begins a acq (issued s c (c.after c.raised []))

/-- An access of a thread's core is due: the result that waits for it comes in its turn, and everything before the access has been
performed (08 R165). -/
structure AccessDue (s : State) (tid k : Nat) (t : Thread) (e : InFlight) (key : Nat) (a : Access) : Prop where
  due : Due s tid k t e
  waits : e.wait = .access key
  found : tfind (s.core t.core).accs key = some a
  first : ∀ p ∈ a.prior, accPending s p = false
  form : Memory.wf (s.core a.core).pool = true

/-- INSTRUCTION_COMPLETION performs an access: registers and their poison reach its thread, bytes are stored where it lies, clean
where they fill a 64-bit word, and the access is gone; every other byte of every pool, every other thread, every team and grid,
the tiles, banks and commands, and device memory are unchanged. -/
def Performed (s : State) (tid k : Nat) (t : Thread) (e : InFlight) (key : Nat) (a : Access) (ws : List (Nat × Word)) (ps : List Nat)
    (bs : List Byte) : Prop :=
  ∃ u v, exec (.instructionCompletion tid k) s = .next u ∧ u.thread? tid = some v ∧
  Landed t v { e with regs := e.regs ++ ws.filter (fun w => decide (w.1 < 255)), poison := e.poison ++ ps } ∧
  v.flight = t.flight.eraseIdx k ∧ v.before = t.before ∧
  (∀ n, n ≠ tid → u.thread? n = s.thread? n) ∧ u.teams = s.teams ∧ u.grids = s.grids ∧ u.dev = s.dev ∧ u.issue = s.issue ∧
  ∀ n, (∀ b, mget (u.core n).pool b =
      if n = a.core ∧ a.off ≤ b ∧ b < a.off + bs.length then bs.getD (b - a.off) 0 else mget (s.core n).pool b) ∧
    (u.core n).poolPoison = (s.core n).poolPoison.filter (fun w =>
      !(decide (n = a.core) && decide (a.off ≤ 8 * w) && decide (8 * w + 8 ≤ a.off + bs.length))) ∧
    (u.core n).accs = (if n = t.core then tdel (s.core n).accs key else (s.core n).accs) ∧
    (u.core n).tiles = (s.core n).tiles ∧ (u.core n).sideBand = (s.core n).sideBand ∧ (u.core n).banks = (s.core n).banks ∧
    (u.core n).cmds = (s.core n).cmds

/-- The registers that a width code names: one, a pair or a quad (08 R167). -/
def widthOf (m : Nat) : Nat := if m = 0 then 1 else if m = 1 then 2 else 4

/-- The bytes that a store of `n` registers from VD on writes (08 R168). -/
def Ctx.stored (c : Ctx) (n : Nat) : List Byte :=
  (List.range (4 * n)).map fun k => (c.r (c.f.vd + k / 4)).extractLsb' (8 * (k % 4)) 8

end Sys2Proof.Machine

/-- SCRATCHPAD LOADS. LDS of one, two or four registers, or of 8 or 16 bits with sign or zero extension, whose access lies
aligned in its team's region, issues with that access under way; when the access is performed, its completion brings the bytes
then addressed to its registers, with the poison their words then carry. -/
def Sys2Proof.Machine.ScratchpadLoads : Prop :=
  (∀ (f : FM64) (s : State) (tid : Nat) (c : Ctx) (x : Team), Issues s tid (.lds f) c →
    let n := widthOf (c.f.mod % 4)
    InRegion s c x c.eaM (4 * n) →
    exec (.lds f) s = .next (accessed s c (c.accessOf s x.core (regionOfTeam s x + c.eaM) (4 * n)
      (.load ((List.range n).map fun i => (c.f.vd + i, 4 * i, 4, false)) false) false) false)) ∧
  (∀ (f : FM64) (s : State) (tid : Nat) (c : Ctx) (x : Team), Issues s tid (.ldsNarrow f) c →
    let n := if c.m 0 then 2 else 1
    InRegion s c x c.eaM n →
    exec (.ldsNarrow f) s = .next (accessed s c (c.accessOf s x.core (regionOfTeam s x + c.eaM) n
      (.load [(c.f.vd, 0, n, c.m 1)] false) false) false)) ∧
  ∀ (s : State) (tid k : Nat) (t : Thread) (e : InFlight) (key : Nat) (a : Access) (rs : List (Nat × Nat × Nat × Bool)),
    AccessDue s tid k t e key a → a.op = .load rs false → (∀ r ∈ rs, r.2.2.1 = 1 ∨ r.2.2.1 = 2 ∨ r.2.2.1 = 4) →
    Performed s tid k t e key a
      (rs.map fun r => let v := BitVec.ofNat (8 * r.2.2.1) (poolNat s a.core (a.off + r.2.1) r.2.2.1)
        (r.1, if r.2.2.2 then v.signExtend 32 else v.zeroExtend 32))
      ((rs.filter fun r => poolBad s a.core (a.off + r.2.1) r.2.2.1).map (·.1)) []

/-- SCRATCHPAD STORES. STS of one, two or four registers, or of 8 or 16 bits, whose access lies aligned in its team's region,
issues with the access of its registers' bytes under way; its completion stores them there, and no other byte of memory and no
register changes. -/
def Sys2Proof.Machine.ScratchpadStores : Prop :=
  (∀ (f : FM64) (s : State) (tid : Nat) (c : Ctx) (x : Team), Issues s tid (.sts f) c →
    let n := widthOf (c.f.mod % 4)
    InRegion s c x c.eaM (4 * n) →
    exec (.sts f) s = .next (accessed s c (c.accessOf s x.core (regionOfTeam s x + c.eaM) (4 * n)
      (.store (c.stored n) false) false) false)) ∧
  (∀ (f : FM64) (s : State) (tid : Nat) (c : Ctx) (x : Team), Issues s tid (.stsNarrow f) c →
    let n := if c.m 0 then 2 else 1
    InRegion s c x c.eaM n →
    exec (.stsNarrow f) s = .next (accessed s c (c.accessOf s x.core (regionOfTeam s x + c.eaM) n
      (.store ((c.stored 1).take n) false) false) false)) ∧
  ∀ (s : State) (tid k : Nat) (t : Thread) (e : InFlight) (key : Nat) (a : Access) (bs : List Byte),
    AccessDue s tid k t e key a → a.op = .store bs false → Performed s tid k t e key a [] [] bs

/-- SCRATCHPAD LOADS AND STORES. -/
def Obligations.ScratchpadAccesses : Prop :=
  ScratchpadLoads ∧ ScratchpadStores

/-- SCRATCHPAD RANGE. An access of LDS or STS in any width, ATOMS, CASS or a buoy instruction that is no multiple of its size
raises SCRATCH-RANGE with DETAIL 1, and an aligned one that touches a byte at or past spad raises it with DETAIL 0; TRAPADDR
holds the address and nothing else happens. -/
def Obligations.ScratchpadRangeTraps : Prop :=
  ∀ (i : Instr) (s : State) (tid : Nat) (c : Ctx) (x : Team) (a n : Nat), Issues s tid i c → s.team? c.t.team = some x →
    ((∃ f, (i = .lds f ∨ i = .sts f) ∧ a = c.eaM ∧ n = 4 * widthOf (c.f.mod % 4)) ∨
     (∃ f, (i = .ldsNarrow f ∨ i = .stsNarrow f) ∧ a = c.eaM ∧ n = if c.m 0 then 2 else 1) ∨
     (∃ f, (i = .atoms f ∨ i = .cass f) ∧ a = c.eaA ∧ n = if c.m 4 then 8 else 4) ∨
     (∃ f, (i = .binit f ∨ i = .bexp f ∨ i = .barr f ∨ i = .btry f) ∧ a = c.eaM ∧ n = 16)) →
    let trap (d : Nat) : Trap := { cause := 0x0A, detail := d, addr := BitVec.ofNat 64 a }
    (a % n ≠ 0 → exec i s = .next { enterTrap tid c.pc c.next (trap 1) s with issue := [] }) ∧
    (a % n = 0 → x.spadP * 4096 < a + n → exec i s = .next { enterTrap tid c.pc c.next (trap 0) s with issue := [] })

/-- CONSTANT LOADS. LDC and LDC.B64 bring the word or the pair of the named bank at the offset with its low bits cleared, zero
at 65,536 and above, unless the bank word is poisoned. FENCES issues and writes nothing; it puts every access of its thread that
is still to be performed before the thread's later ones, and completes once they have been. -/
def Sys2Proof.Machine.ConstantLoads : Prop :=
  (∀ (f : FM64) (s : State) (tid : Nat) (c : Ctx), Issues s tid (.ldc f) c →
    let o := c.eaM / 4 * 4
    let w := bankWord s c.t.core (c.f.mod % 4) o
    (65536 ≤ o → exec (.ldc f) s = .next (wrote s c (c.to32 0))) ∧
    (o < 65536 → w.2 = false → exec (.ldc f) s = .next (wrote s c (c.to32 w.1)))) ∧
  (∀ (f : FM64) (s : State) (tid : Nat) (c : Ctx), Issues s tid (.ldcB64 f) c →
    let o := c.eaM / 8 * 8
    let l := bankWord s c.t.core (c.f.mod % 4) o
    let h := bankWord s c.t.core (c.f.mod % 4) (o + 4)
    (65536 ≤ o → exec (.ldcB64 f) s = .next (wrote s c (c.to64 0))) ∧
    (o < 65536 → l.2 = false → h.2 = false → exec (.ldcB64 f) s = .next (wrote s c (c.to64 (h.1 ++ l.1))))) ∧
  (∀ (f : FA96) (s : State) (tid : Nat) (c : Ctx), Issues s tid (.fences f) c →
    let keys := c.t.before.filter (accPending s) ++ threadAccs s c.t.core tid
    exec (.fences f) s = .next (issued s c { c.after c.raised [c.waiting (.fence keys)] with before := keys })) ∧
  ∀ (s : State) (tid k : Nat) (t : Thread) (e : InFlight) (keys : List Nat), Due s tid k t e → e.wait = .fence keys →
    ((∃ p ∈ keys, accPending s p = true) → exec (.instructionCompletion tid k) s = .next s) ∧
    ((∀ p ∈ keys, accPending s p = false) → ∃ v, Landed t v e ∧ v.flight = t.flight.eraseIdx k ∧
      exec (.instructionCompletion tid k) s = .next { s with threads := tput s.threads tid v })

/-- CONSTANT BANKS: loads, and the trap of a poisoned word. -/
def Obligations.ConstantBanks : Prop :=
  BankPoisonTraps ∧ ConstantLoads

namespace Sys2Proof.Machine

/-- New(old, b) of an atomic on a 32- or 64-bit element (08 R171). -/
def newOf (w op old b : Nat) : Nat :=
  let lt (x y : Nat) : Bool := decide ((BitVec.ofNat w x).toInt < (BitVec.ofNat w y).toInt)
  let p := if w = 64 then fp64 else fp32
  if op = 0 then (old + b) % 2 ^ w
  else if op = 1 then (if lt b old then b else old) else if op = 2 then (if lt old b then b else old)
  else if op = 3 then min old b else if op = 4 then max old b
  else if op = 5 then Nat.land old b else if op = 6 then Nat.lor old b else if op = 7 then Nat.xor old b
  else if op = 8 then b
  else if op = 9 then (if b ≤ old then 0 else old + 1)
  else if op = 10 then (if old = 0 ∨ b < old then b else old - 1)
  else if op = 11 then p.round .rn (Val.add false (p.decode old) (p.decode b))
  else minMax p (op == 13) old b

/-- A register or pair as a number, by the width of the element. -/
def Ctx.elem (c : Ctx) (k : Nat) : Nat := if c.m 4 then (c.p k).toNat else (c.r k).toNat
/-- An element in VD or its pair. -/
def Ctx.toElem (c : Ctx) (v : Nat) : List (Nat × Word) := if c.m 4 then c.to64 (BitVec.ofNat 64 v) else c.to32 (BitVec.ofNat 32 v)
/-- The bytes of a number of `n` bytes. -/
def bytesOf (n v : Nat) : List Byte := (List.range n).map fun k => BitVec.ofNat 8 (v / 256 ^ k)

end Sys2Proof.Machine

/-- SCRATCHPAD ATOMICS. ATOMS and CASS on an aligned element of the team's region whose word is not poisoned issue with their
access under way, after every earlier access under REL and before every later one under ACQ. When it is performed it brings the
old element to VD and stores New(old, VB), or VC where the old element equals VB; a comparison that fails stores nothing. -/
def Obligations.ScratchpadAtomics : Prop :=
  (∀ (i : Instr) (s : State) (tid : Nat) (c : Ctx) (x : Team), Issues s tid i c →
    let n := if c.m 4 then 8 else 4
    let off := regionOfTeam s x + c.eaA
    InRegion s c x c.eaA n → poolBad s x.core off n = false →
    (∀ f, i = .atoms f → exec i s = .next (accessed s c (c.accessOf s x.core off n
      (.atomic (c.f.mod % 16) (c.elem c.f.vb) 0 c.f.vd false) (c.m 6)) (c.m 5))) ∧
    (∀ f, i = .cass f → exec i s = .next (accessed s c (c.accessOf s x.core off n
      (.atomic 14 (c.elem c.f.vb) (c.elem c.f.vc) c.f.vd false) (c.m 6)) (c.m 5)))) ∧
  ∀ (s : State) (tid k : Nat) (t : Thread) (e : InFlight) (key : Nat) (a : Access) (op b new d n : Nat),
    AccessDue s tid k t e key a → a.op = .atomic op b new d false → a.size = n → (n = 4 ∨ n = 8) → op ≤ 14 → b < 256 ^ n →
    let old := poolNat s a.core a.off n
    let ws := (d, BitVec.ofNat 32 old) :: if n = 8 then [(d + 1, BitVec.ofNat 32 (old / 2 ^ 32))] else []
    Performed s tid k t e key a ws (if poolBad s a.core a.off n then ws.map (·.1) else [])
      (if op = 14 then (if old = b then bytesOf n new else []) else bytesOf n (newOf (8 * n) op old b))

/-- PEER ACCESSES. LDP, STP and ATOMP whose address reaches a region of the cohort issue with an access to it under way as their
scratchpad kin do, where the cluster's network meets no error; PEERACC counts each. -/
def Obligations.PeerAccesses : Prop :=
  ∀ (i : Instr) (s : State) (tid : Nat) (c : Ctx) (x : Team), Issues s tid i c → (s.cluster (c.t.core / 64)).netErr = 0 →
    let begins (off n : Nat) (op : AccessOp) (acq rel : Bool) : Prop :=
      exec i s = .next (c.begins (c.accessOf s x.core off n op rel) acq ((issued s c (c.after c.raised [])).bumpCore c.t.core 0x320 1))
    (∀ f, i = .ldp f → let n := widthOf (c.f.mod % 4)
      InPeer s c x c.eaM (4 * n) → begins (regionOfTeam s x + c.eaM % 2 ^ 20) (4 * n)
        (.load ((List.range n).map fun j => (c.f.vd + j, 4 * j, 4, false)) false) false false) ∧
    (∀ f, i = .stp f → let n := widthOf (c.f.mod % 4)
      InPeer s c x c.eaM (4 * n) → begins (regionOfTeam s x + c.eaM % 2 ^ 20) (4 * n) (.store (c.stored n) false) false false) ∧
    (∀ f, i = .atomp f → let n := if c.m 4 then 8 else 4
      let off := regionOfTeam s x + c.eaA % 2 ^ 20
      let op := c.f.mod % 16
      InPeer s c x c.eaA n → poolBad s x.core off n = false →
        begins off n (.atomic op (c.elem c.f.vb) (if op = 14 then c.elem c.f.vc else 0) c.f.vd false) (c.m 5) (c.m 6))

/-- THE UPDATE OF A BUOY. Bytes and arrivals are added, an overflow of either sets ERR, and where the phase is met the
expectations are subtracted and PHASE flips; a buoy still met after that with anything left over has ERR set. -/
def Sys2Proof.Machine.BuoyUpdate : Prop :=
  ∀ (b : Buoy) (db dt : Nat), b.phase ≤ 1 → b.expB < 2 ^ 32 → b.expT < 2 ^ 16 → b.arrB < 2 ^ 32 → b.arrT < 2 ^ 16 →
    let a := (b.arrB + db) % 2 ^ 32
    let r := (b.arrT + dt) % 2 ^ 16
    let past := b.err || decide (2 ^ 32 ≤ b.arrB + db) || decide (2 ^ 16 ≤ b.arrT + dt)
    (¬(b.expB ≤ a ∧ b.expT ≤ r) → b.update db dt = { b with arrB := a, arrT := r, err := past }) ∧
    (b.expB ≤ a ∧ b.expT ≤ r → ∃ e, b.update db dt = { b with arrB := a - b.expB, arrT := r - b.expT, phase := 1 - b.phase, err := e } ∧
      e = (past || (decide (2 * b.expB ≤ a) && decide (2 * b.expT ≤ r) && (decide (b.expB < a) || decide (b.expT < r)))))

/-- BUOY INSTRUCTIONS on an aligned, unpoisoned buoy of the team's region. BINIT, BEXP and BARR issue with their access to the buoy
under way, BARR's after every earlier access of its thread. When performed, BINIT sets the expectations and clears the rest; BEXP
sets or raises the expected bytes and tests the phase; BARR counts one arrival and brings ERR after and PHASE before it; only the
buoy's 16 bytes change. BTRY brings 1 where PHASE differs from VD[0], and raises BUOY-ERROR where ERR is set. -/
def Sys2Proof.Machine.BuoyInstructions : Prop :=
  (∀ (i : Instr) (s : State) (tid : Nat) (c : Ctx) (x : Team), Issues s tid i c →
    let off := regionOfTeam s x + c.eaM
    let b := buoyOf (poolNat s x.core off 16)
    InRegion s c x c.eaM 16 → poolBad s x.core off 16 = false →
    let begins (op : AccessOp) (rel : Bool) : Prop := exec i s = .next (accessed s c (c.accessOf s x.core off 16 op rel) false)
    (∀ f, i = .binit f → begins (.binit c.vd.toNat ((c.r (c.f.vd + 1)).toNat % 65536)) false) ∧
    (∀ f, i = .bexp f → begins (.bexp (c.m 0) c.vd.toNat) false) ∧
    (∀ f, i = .barr f → begins (.barr c.f.vd) true) ∧
    (∀ f, i = .btry f → Memory.wf (s.core x.core).pool = true →
      (b.err = true → exec i s = .next { enterTrap tid c.pc c.next
        { cause := 0x0D, detail := 0, addr := BitVec.ofNat 64 c.eaM } s with issue := [] }) ∧
      (b.err = false → exec i s = .next (wrote s c (c.to32 (one32 (b.phase ≠ c.vd.toNat % 2))))))) ∧
  ∀ (s : State) (tid k : Nat) (t : Thread) (e : InFlight) (key : Nat) (a : Access), AccessDue s tid k t e key a → a.size = 16 →
    let b := buoyOf (poolNat s a.core a.off 16)
    let leaves (ws : List (Nat × Word)) (ps : List Nat) (b : Buoy) : Prop := Performed s tid k t e key a ws ps (bytesOf 16 (buoyBits b))
    (∀ n m, a.op = .binit n m →
      leaves [] [] { expB := n, arrB := 0, expT := m, arrT := 0, phase := 0, err := false, rsv := b.rsv, poison := 0 }) ∧
    (∀ set n, a.op = .bexp set n → let x := if set then n else b.expB + n
      leaves [] [] (({ b with expB := x % 2 ^ 32, err := b.err || decide (2 ^ 32 ≤ x) } : Buoy).update 0 0)) ∧
    (∀ d, a.op = .barr d → let b' := b.update 0 1
      leaves [(d, BitVec.ofNat 32 (b.phase + if b'.err then 2 else 0))] (if poolBad s a.core a.off 16 then [d] else []) b')

/-- BWAIT on an aligned, unpoisoned buoy. With ERR set it raises BUOY-ERROR; with PHASE past VD[0] its thread may issue it, and does
when it is next selected; otherwise the thread waits at it unretired. BUOY_WAITER_SAMPLE samples a waiting thread of a LIVE team
again, and lets it issue where PHASE is past. -/
def Sys2Proof.Machine.BuoyWaits : Prop :=
  ∀ (f : FM64) (s : State) (tid : Nat) (c : Ctx) (x : Team), Issues s tid (.bwait f) c →
    let off := regionOfTeam s x + c.eaM
    let b := buoyOf (poolNat s x.core off 16)
    let trap : State := enterTrap tid c.pc c.next { cause := 0x0D, detail := 0, addr := BitVec.ofNat 64 c.eaM } s
    let free : Thread := { c.t with conv := .run, held := some (.bwait f), released := true }
    let wait : Thread := { c.t with conv := .heldBuoy, held := some (.bwait f) }
    (c.t.released = true → exec (.bwait f) s = .next (issued s c { c.after none [] with conv := .run, held := none })) ∧
    (c.t.released = false → InRegion s c x c.eaM 16 → poolBad s x.core off 16 = false → Memory.wf (s.core x.core).pool = true →
      (b.err = true → exec (.bwait f) s = .next { trap with issue := [] }) ∧
      (b.err = false → b.phase ≠ c.vd.toNat % 2 → exec (.bwait f) s = .next { s with threads := tput s.threads tid free, issue := [] }) ∧
      (b.err = false → b.phase = c.vd.toNat % 2 → exec (.bwait f) s = .next { s with threads := tput s.threads tid wait, issue := [] }) ∧
      (c.t.conv = .heldBuoy → c.t.held = some (.bwait f) → x.state = .live → x.killReq = false →
        (b.err = true → exec (.buoyWaiterSample tid) s = .next trap) ∧
        (b.err = false → b.phase ≠ c.vd.toNat % 2 →
          exec (.buoyWaiterSample tid) s = .next { s with threads := tput s.threads tid free }) ∧
        (b.err = false → b.phase = c.vd.toNat % 2 →
          exec (.buoyWaiterSample tid) s = .next { s with threads := tput s.threads tid wait })))

/-- BUOYS: the update, the instructions and the waits. -/
def Obligations.Buoys : Prop :=
  BuoyUpdate ∧ BuoyInstructions ∧ BuoyWaits

namespace Sys2Proof.Machine

/-- The live threads of a team that the dispatcher created, and those of one wave (01 R12, 19 R395). -/
def livesIn (s : State) (team : Nat) : List (Nat × Thread) := s.threads.filter fun e => e.2.team == team && e.2.task.isNone
def livesInWave (s : State) (team wave : Nat) : List (Nat × Thread) := (livesIn s team).filter fun e => e.2.wave.toNat == wave

/-- The instructions at which threads converge (07 R156). -/
def converges : Instr → Option Conv
  | .shfl _ | .vote _ | .matchL _ | .redw _ | .scanw _ => some .heldColl
  | .bar _ => some .heldBar
  | .barc _ => some .heldBarc
  | _ => none

/-- A thread of a LIVE team, out of trap mode and no lane task, stands at a convergence instruction and passes its checks;
`g` is its guard, `c` what it reads (03 R78, 07 R156). -/
structure Comes (s : State) (tid : Nat) (i : Instr) (c : Ctx) (g : Bool) : Prop where
  there : s.thread? tid = some c.t
  passes : ∃ sh, shapeOf c.t.tm i = some sh ∧ c = ctxOf i (fldsOf i) sh.cls tid c.t s
    ∧ checkIssue i sh (fldsOf i) c.t s.count tid = .ok g ∧ (g = true → poisonTrap sh (fldsOf i) c.t s.count tid = none)
  ordinary : c.t.task = none ∧ c.t.tm = false
  team : ∃ x, s.team? c.t.team = some x ∧ x.state = .live

/-- The participants among threads at an instruction: those whose guard is true. -/
def takersOfAll (i : Instr) (s : State) (es : List (Nat × Thread)) : List Ctx :=
  (es.map fun e => ctxOf i (fldsOf i) .v e.1 e.2 s).filter fun c =>
    c.f.guard == 127 || (c.r c.f.guard).getLsbD 0 == (c.f.pol == 0)

/-- A released thread that wrote registers, and one that only issued. -/
def Ctx.freed (c : Ctx) (flag : Option Nat) (results : List InFlight) : Thread := { c.after flag results with conv := .run, held := none }

/-- Lanes in a segment, and the participants of a lane's segment, lowest lane first (08 R174). -/
def segLanes (c : Ctx) : Nat := 32 / 2 ^ (c.f.mod / 32 % 8)
def mates (ps : List Ctx) (c : Ctx) : List Ctx :=
  (List.range 32).flatMap fun l => ps.filter fun p => decide (p.lane = l) && decide (l / segLanes c = c.lane / segLanes c)
/-- A reduction of values (08 R177). -/
def reduction (op w : Nat) (vs : List Nat) : Nat :=
  let p := if w = 64 then fp64 else fp32
  if op = 0 then vs.sum % 2 ^ w
  else if op = 1 then vs.foldl (newOf w 1) (2 ^ (w - 1) - 1) else if op = 2 then vs.foldl (newOf w 2) (2 ^ (w - 1))
  else if op = 3 then vs.foldl min (2 ^ w - 1) else if op = 4 then vs.foldl max 0
  else if op = 5 then vs.foldl Nat.land (2 ^ w - 1) else if op = 6 then vs.foldl Nat.lor 0 else if op = 7 then vs.foldl Nat.xor 0
  else if op = 8 then p.round .rn (exactSum (vs.map p.decode)) else vs.foldl (minMax p (op == 10)) p.nanCode

/-- What a wave collective gives a participant (08 R175 to R177). -/
def gathers (ps : List Ctx) (c : Ctx) : Instr → List (Nat × Word)
  | .shfl _ =>
      let w := segLanes c
      let base := c.lane / w * w
      let l := Nat.xor (if c.vb.getLsbD 16 then 0 else c.lane - base) (c.vb.toNat % 32)
      let t : Int := l + (c.vb.extractLsb' 8 6).toInt
      let from' (k : Int) : List (Nat × Word) := match ps.find? fun p => p.lane == base + k.toNat with
        | some p => c.toElem (p.elem p.f.va)
        | none => c.toElem (c.elem c.f.vc)
      if c.f.mod % 2 = 0 then from' (t % w) else if 0 ≤ t ∧ t < w then from' t else c.toElem (c.elem c.f.vc)
  | .vote _ =>
      let p := mates ps c
      let q := p.filter fun x => x.va.getLsbD 0
      let op := c.f.mod % 16
      c.to32 (BitVec.ofNat 32 (
        if op = 0 then (q.map fun x => 2 ^ x.lane).sum else if op = 1 then q.length
        else if op = 2 then (q.filter fun x => decide (x.lane < c.lane)).length
        else if op = 3 then (match q.head? with | some x => x.lane | none => 0xFFFFFFFF)
        else if op = 4 then (p.map fun x => 2 ^ x.lane).sum else if op = 5 then min q.length 1
        else if op = 6 then (if q.length = p.length then 1 else 0) else if p.all (fun x => x.va == c.va) then 1 else 0))
  | .matchL _ =>
      let g := (mates ps c).filter fun x => x.elem x.f.va == c.elem c.f.va
      let op := c.f.mod % 16
      c.to32 (BitVec.ofNat 32 (
        if op = 0 then (g.map fun x => 2 ^ x.lane).sum else if op = 1 then (match g.head? with | some x => x.lane | none => 0xFFFFFFFF)
        else g.length))
  | .redw _ => c.toElem (reduction (c.f.mod % 16) (if c.m 4 then 64 else 32) ((mates ps c).map fun x => x.elem x.f.va))
  | .scanw _ => c.toElem (reduction (c.f.mod % 16) (if c.m 4 then 64 else 32)
      (((mates ps c).filter fun x => decide (x.lane < c.lane) || (!c.m 8 && x.lane == c.lane)).map fun x => x.elem x.f.va))
  | _ => []

/-- Threads leave a wait with what is given for each; no other thread, team, grid or memory changes. -/
def Freed (s u : State) (es : List (Nat × Thread)) (given : Nat → Thread → Prop) : Prop :=
  (∀ e ∈ es, ∃ t, u.thread? e.1 = some t ∧ given e.1 t) ∧ (∀ k, (∀ e ∈ es, e.1 ≠ k) → u.thread? k = s.thread? k) ∧
  u.teams = s.teams ∧ u.grids = s.grids ∧ u.parts = s.parts ∧ u.dev = s.dev ∧
  ∀ k, (u.core k).pool = (s.core k).pool ∧ (u.core k).tiles = (s.core k).tiles ∧ (u.core k).cmds = (s.core k).cmds

/-- Threads stand at one convergence instruction and pass its checks; all wait there but `last`, if there is one. -/
def Gathered (s : State) (i : Instr) (core : Nat) (pc : VAddr) (conv : Conv) (last : Option Nat) (es : List (Nat × Thread)) : Prop :=
  rising s.threads = true ∧ es ≠ [] ∧ ∀ e ∈ es, e.2.core = core ∧ e.2.pc = pc ∧ (∃ c g, Comes s e.1 i c g) ∧
    (if last = some e.1 then e.2.conv = .run ∧ e.2.released = false else e.2.conv = conv ∧ e.2.held = some i)

end Sys2Proof.Machine

/-- ARRIVAL. A thread that comes to a wave collective, BAR or BARC while each wave of its team has another thread in RUN waits
there, in HELD-COLL, HELD-BAR or HELD-BARC, with its guard true or false: it does not issue, and nothing else changes but that its
core's cycle has come to its arrivals. -/
def Obligations.ConvergenceArrivals : Prop :=
  ∀ (i : Instr) (v : Conv) (s : State) (tid : Nat) (c : Ctx) (g : Bool), converges i = some v → s.issue = [tid] →
    Comes s tid i c g → c.t.conv = .run → c.t.released = false →
    (∀ e ∈ livesIn s c.t.team, ∃ e' ∈ livesIn s c.t.team, e'.1 ≠ tid ∧ e'.2.wave = e.2.wave ∧ e'.2.conv = .run) →
    let waits : Table Thread := tput s.threads tid { c.t with conv := v, held := some i }
    exec i s = .next { s with threads := waits, issue := [] } ∧
    ∀ n, (readyThreads s c.t.core).find? (fun e => e.1 == tid) = some (tid, c.t, .instr i n) → padHolds s (.instr i n) tid c.t = false →
      exec (.convergenceArrival tid) s =
        .next { s with threads := waits, cores := tput s.cores c.t.core { s.core c.t.core with begun := true }, issue := [] }

/-- A WAVE COLLECTIVE IS RELEASED when the last live thread of the wave arrives at its address, and by COLLECTIVE_RELEASE of a wave
all of whose live threads have arrived: its threads go back to RUN as a set that may issue it. When that set issues, each
participant of SHFL, VOTE, MATCH, REDW or SCANW gets its result from the participants of its segment; a thread with a false guard
only retires. -/
def Sys2Proof.Machine.CollectiveReleases : Prop :=
  ∀ (i : Instr) (s : State) (team wave core : Nat) (pc : VAddr), converges i = some .heldColl →
    let es := livesInWave s team wave
    let free (k : Nat) (t : Thread) : Prop := ∀ c g, Comes s k i c g → t = { c.t with conv := .run, held := some i, released := true }
    let given (k : Nat) (t : Thread) : Prop := ∀ c g, Comes s k i c g →
      (g = true → t = c.freed c.flag [c.result (gathers (takersOfAll i s es) c i)]) ∧ (g = false → t = c.freed none [])
    let others : Prop := ∀ e ∈ livesIn s team, e.2.wave.toNat ≠ wave → ∃ e' ∈ livesIn s team, e'.2.wave = e.2.wave ∧ e'.2.conv = .run
    (∀ tid, s.issue = [tid] → (∃ t, (tid, t) ∈ es) → Gathered s i core pc .heldColl (some tid) es → others →
      ∃ u, exec i s = .next u ∧ u.issue = [] ∧ Freed s u es free) ∧
    (Gathered s i core pc .heldColl none es → ∃ u, exec (.collectiveRelease team wave) s = .next u ∧ Freed s u es free) ∧
    (s.issue = es.map (·.1) → rising s.threads = true → es ≠ [] → others →
      (∀ e ∈ es, e.2.core = core ∧ e.2.pc = pc ∧ e.2.conv = .run ∧ e.2.released = true ∧ ∃ c g, Comes s e.1 i c g) →
      ∃ u, exec i s = .next u ∧ u.issue = [] ∧ Freed s u es given)

/-- BAR ISSUES for every live thread of a team when the last of them arrives, and BAR_RELEASE issues it where all have arrived:
each moves past it, whatever its guard, and its later accesses follow every access of the team's threads still to be performed.
BARC_RELEASE does so for the live threads of every unfinished team of a cohort, all of whose teams are LIVE and wait at one BARC,
once no command of a cohort of several teams reaches its own team's scratchpad; they take no port and write no register. -/
def Sys2Proof.Machine.BarrierReleases : Prop :=
  (∀ (f : FA96) (s : State) (team core : Nat) (pc : VAddr),
    let es := livesIn s team
    let given (k : Nat) (t : Thread) : Prop := ∀ c g, Comes s k (.bar f) c g → t = { c.freed none [] with before := barrierAccs s es }
    (∀ tid, s.issue = [tid] → (∃ t, (tid, t) ∈ es) → Gathered s (.bar f) core pc .heldBar (some tid) es →
      ∃ u, exec (.bar f) s = .next u ∧ u.issue = [] ∧ Freed s u es given) ∧
    (Gathered s (.bar f) core pc .heldBar none es → ∃ u, exec (.barRelease team) s = .next u ∧ Freed s u es given)) ∧
  ∀ (f : FA96) (s : State) (grid cohort : Nat) (pc : VAddr),
    let teams := s.teams.filter fun e => e.2.grid == grid && e.2.idx / e.2.cohort == cohort
      && e.2.state != .ended && e.2.state != .killed && e.2.state != .released
    let es := teams.flatMap fun m => livesIn s m.1
    teams ≠ [] → (∀ m ∈ teams, m.2.state = .live ∧ (∃ core, Gathered s (.barc f) core pc .heldBarc none (livesIn s m.1)) ∧
      (m.2.cohort ≤ 1 ∨ ∀ x ∈ teamCmds s m.2.core m.1, barcHolds s m.2 x.2 = false)) →
    ∃ u, exec (.barcRelease grid cohort) s = .next u ∧
      Freed s u es fun k t => ∀ c g, Comes s k (.barc f) c g → t = { c.freed none [] with before := barrierAccs s es }

/-- RELEASES of collectives and barriers. -/
def Obligations.Releases : Prop :=
  CollectiveReleases ∧ BarrierReleases

/-- DIVERGENCE. When a team's last thread in RUN arrives at a BAR and its threads then wait at two or more addresses, none of
their waves being released, each takes DIVERGED-BARRIER at its own instruction: DETAIL counts the addresses, TRAPADDR is that of
the lowest-numbered thread elsewhere, and TRAPMASK names the lanes of its wave at its address. -/
def Obligations.DivergedTeams : Prop :=
  ∀ (f : FA96) (s : State) (tid : Nat) (c : Ctx) (g : Bool), s.issue = [tid] → Comes s tid (.bar f) c g → c.t.conv = .run →
    c.t.released = false → rising s.threads = true →
    let es := livesIn s c.t.team
    (∀ e ∈ es, e.2.tm = false ∧ (e.1 ≠ tid → (e.2.conv = .heldColl ∨ e.2.conv = .heldBar ∨ e.2.conv = .heldBarc) ∧ e.2.held.isSome)) →
    (∃ e ∈ es, e.2.pc ≠ c.pc) →
    (∀ e ∈ es, ∃ e' ∈ es, e'.2.wave = e.2.wave ∧ (e'.2.conv ≠ .heldColl ∨ e'.2.pc ≠ e.2.pc)) →
    ∃ u, exec (.bar f) s = .next u ∧ ∀ e ∈ es, ∃ t o, u.thread? e.1 = some t ∧ o ∈ es ∧ o.2.pc ≠ e.2.pc ∧
      (∀ o' ∈ es, o'.2.pc ≠ e.2.pc → o.2.num ≤ o'.2.num) ∧
      t.trapCause = BitVec.ofNat 32 (2 ^ 31 + 65536 * min ((es.map (·.2.pc)).eraseDups.length) 255 + 8) ∧
      t.trapPc = e.2.pc.setWidth 64 ∧ t.epc = e.2.pc.setWidth 64 ∧ t.trapAddr = o.2.pc.setWidth 64 ∧
      ∀ l < 32, (t.trapMask.getLsbD l = true ↔ ∃ e' ∈ es, e'.2.wave = e.2.wave ∧ e'.2.pc = e.2.pc ∧ e'.2.lane.toNat = l)

namespace Sys2Proof.Machine

/-- The tile names of an instruction: TD, TA and TB in X (10 R213). -/
def Ctx.tdName (c : Ctx) : Nat := c.f.x % 64
def Ctx.taName (c : Ctx) : Nat := c.f.x / 64 % 64
def Ctx.tbName (c : Ctx) : Nat := c.f.x / 4096 % 64
/-- The tag that an instruction encodes in MOD[17:2]. -/
def Ctx.tagEnc (c : Ctx) : Nat := c.f.mod / 4 % 65536

/-- Core tile of a team tile name (10 R208). -/
def tileOf (s : State) (c : Ctx) (x : Team) (t : Nat) : Nat := x.slot * (s.core c.t.core).cfg.tiles + t

/-- A byte of a tile or of its side-band, as the next tile instruction of the team sees it (09 R193). -/
def dataAt (s : State) (core tile b : Nat) : Byte := mget (s.core core).tileView (8192 * tile + b)
def sideAt (s : State) (core tile b : Nat) : Byte := mget (s.core core).sideView (512 * tile + b)
/-- `n` bytes of a tile as a number. -/
def dataNum (s : State) (core tile b n : Nat) : Nat :=
  ((List.range n).map fun k => (dataAt s core tile (b + k)).toNat * 256 ^ k).sum

/-- The tile stores and the pool of a core are in canonical form. -/
def GoodTiles (s : State) (core : Nat) : Prop :=
  Memory.wf (s.core core).tileView = true ∧ Memory.wf (s.core core).sideView = true ∧ Memory.wf (s.core core).pool = true

/-- No word of a tile holds an error (09 R190). -/
def Clean (s : State) (core tile : Nat) : Prop := ∀ e ∈ (s.core core).tileErr, e.1 / 1088 ≠ tile

/-- The instance of a tile instruction that one thread issues (10 R209). -/
def Ctx.inst (c : Ctx) (x : Team) : Inst := { lead := c, parts := [c], core := c.t.core, team := c.t.team, tm := x }

/-- No TLOAD that has still to read its chunks writes a tile that the instruction can name (10 R216). -/
def LoadsRead (s : State) (c : Ctx) (x : Team) : Prop :=
  ∀ o ∈ (s.core c.t.core).tileOps, o.load = none ∨ ∀ n ∈ (c.inst x).named, ¬tileOf s c x n ∈ o.writes

/-- A tile operation by the tiles that it reads and writes. -/
def tileOp (reads writes : List Nat) : TileOp := { key := 0, step := false, reads := reads, writes := writes }

/-- The effect of a tile instruction of one thread: its results, visible at its completion, and in the core one more tile
operation in its place of the order, whose results are poisoned if a pending one's that it reads are, and the tags it sets. Tiles it
does not write keep their content, and scratchpad is as it was. -/
structure Tiled (s u : State) (c : Ctx) (results : List (Nat × Word)) (want : TileOp) (tags : Nat → Nat) : Prop where
  thread : u.thread? c.tid = some (c.after c.raised [{ c.result results with wait := .tile s.fresh }])
  others : ∀ k, k ≠ c.tid → u.thread? k = s.thread? k
  outside : u.teams = s.teams ∧ u.grids = s.grids ∧ u.parts = s.parts ∧ u.dev = s.dev ∧ u.issue = []
  op : ∃ data side, (u.core c.t.core).tileOps = (s.core c.t.core).tileOps ++
    [{ want with key := s.fresh, data := data, side := side, poi := want.poi || pendingPoi (s.core c.t.core) want.reads }]
  tags : ∀ t, tagAt u c.t.core t = tags t
  pool : (u.core c.t.core).pool = (s.core c.t.core).pool ∧ (u.core c.t.core).poolPoison = (s.core c.t.core).poolPoison
  kept : ∀ t, ¬t ∈ want.writes → (∀ b < 8192, dataAt u c.t.core t b = dataAt s c.t.core t b) ∧ ∀ b < 512, sideAt u c.t.core t b = sideAt s c.t.core t b
  elsewhere : ∀ k, k ≠ c.t.core → u.core k = s.core k

/-- The tags of a core with one of them set. -/
def tagsWith (s : State) (core d tag : Nat) (t : Nat) : Nat := if t = d then tag else tagAt s core t

/-- The format of a tag under the team's record table, and a tag that passes R189 apart from roles and poison. -/
def fmtUnder (x : Team) (tag : Nat) : Fmt :=
  { code := tagFmt tag, frec := if isMfFmt (tagFmt tag) then (tget x.tfmt (tagFrec tag) 0).toNat else 0 }
def soundTag (x : Team) (tag : Nat) : Bool :=
  tagFmt tag != 0 && decide (tagFmt tag ≤ 0x14) && tag % 8 == 0 && decide (tagScale tag ≤ 1) &&
  (if isMfFmt (tagFmt tag) then recValid (tagFmt tag) (fmtUnder x tag).frec else tagFrec tag == 0 && tagScale tag == 0) &&
  (!tagPk tag || isMfFmt (tagFmt tag) || tagFmt tag == 1 || tagFmt tag == 3)

/-- The chunks of a transfer all lie aligned in the region (10 R216). -/
def chunksOk (x : Team) (addrs : List Nat) : Prop := ∀ a ∈ addrs, a % 16 = 0 ∧ a + 16 ≤ x.spadP * 4096
/-- The 512 chunk addresses of TLOAD and TSTORE, in the order of lines (10 R216). -/
def Ctx.chunkList (c : Ctx) : List Nat :=
  (List.range 512).map fun k =>
    let a := c.va.toNat + k / 16 * c.vb.toNat + 16 * (k % 16)
    Nat.xor a (a / 128 % 2 ^ (c.f.mod % 4) * 16)

/-- Element `k` of line `l` of a tile, and the values it stands for under the tile's tag (10 R211, 09 R188). -/
def bitsOfElem (s : State) (core tile w l k : Nat) : Nat := dataNum s core tile (256 * l) 256 / 2 ^ (w * k) % 2 ^ w
def perLine (code : Nat) : Nat := if code = 0x12 then 340 else 2048 / fmtBits code
def valuesOf (s : State) (core : Nat) (x : Team) (tile l k : Nat) : List Val :=
  let tag := tagAt s core tile
  let code := tagFmt tag
  let blocks := (perLine code + 31) / 32
  (fmtUnder x tag).scaled (if tagScale tag = 1 then some (sideAt s core tile (l * blocks + k / 32)).toNat else none)
    (bitsOfElem s core tile (fmtBits code) l k)
/-- A rounding mode of a tile instruction, with SR's seed and coordinates (02 R48, R51). -/
def tileMode (rm seed : Nat) (coord : List Nat) : Rm := if rm = 5 then .sr (srHash seed coord) else rmOf rm

end Sys2Proof.Machine

/-- TILE MOVES. TZERO clears a tile and sets its tag; TMOV copies a tile with its side-band and tag; TMOVV writes or reads the
word that VA names; TTAG replaces a tag but its POI and brings the old one; TSTAT brings the tile number and tag; TFMT replaces
a format record and brings the old one; TCHK brings POI, that of a pending step's result included, and the words it corrected. No
other tile changes. -/
def Obligations.TileMoves : Prop :=
  ∀ (i : Instr) (s : State) (tid : Nat) (c : Ctx) (x : Team), Issues s tid i c → s.team? c.t.team = some x →
    GoodTiles s c.t.core → LoadsRead s c x →
    let core := c.t.core
    let d := tileOf s c x c.tdName
    let a := tileOf s c x c.taName
    (∀ f, i = .tzero f → c.tdName < x.tiles → ∃ u, exec i s = .next u ∧
      Tiled s u c [] (tileOp [] [d]) (tagsWith s core d c.tagEnc) ∧
      (∀ b < 8192, dataAt u core d b = 0) ∧ ∀ b < 512, sideAt u core d b = 0) ∧
    (∀ f, i = .tmov f → c.taName < x.tiles → c.tdName < x.tiles →
      (a = d → exec i s = .next (wrote s c [])) ∧
      (a ≠ d → Clean s core a → ∃ u, exec i s = .next u ∧ Tiled s u c [] (tileOp [a] [d]) (tagsWith s core d (tagAt s core a)) ∧
        (∀ b < 8192, dataAt u core d b = dataAt s core a b) ∧ ∀ b < 512, sideAt u core d b = sideAt s core a b)) ∧
    (∀ f, i = .tmovvWrite f → c.tdName < x.tiles → ∃ u, exec i s = .next u ∧ Tiled s u c [] (tileOp [d] [d]) (tagAt s core) ∧
      (let w := 4 * (c.va.toNat % 2048)
       ∀ b < 8192, dataAt u core d b = if w ≤ b ∧ b < w + 4 then c.vb.extractLsb' (8 * (b - w)) 8 else dataAt s core d b) ∧
      ∀ b < 512, sideAt u core d b = sideAt s core d b) ∧
    (∀ f, i = .tmovvRead f → c.taName < x.tiles → tagPoi (tagAt s core a) = false → Clean s core a → ∃ u, exec i s = .next u ∧
      Tiled s u c (c.to32 (BitVec.ofNat 32 (dataNum s core a (4 * (c.va.toNat % 2048)) 4))) (tileOp [a] []) (tagAt s core)) ∧
    (∀ f, i = .ttag f → c.tdName < x.tiles →
      exec i s = .next ((wrote s c (c.to32 (BitVec.ofNat 32 (tagAt s core d)))).modCore core fun k =>
        { k with tags := tput k.tags d (if tagPoi (tagAt s core d) && !tagPoi c.tagEnc then c.tagEnc + 8 else c.tagEnc) })) ∧
    (∀ f, i = .tstat f → c.taName < x.tiles →
      exec i s = .next (wrote s c (c.to32 (BitVec.ofNat 32 (65536 * a + tagAt s core a))))) ∧
    (∀ f, i = .tfmt f → let k := c.f.x / 2 ^ 18 % 16
      exec i s = .next { wrote s c (c.to32 (tget x.tfmt k 0)) with
        teams := tput s.teams c.t.team { x with tfmt := tput x.tfmt k c.va } }) ∧
    (∀ f, i = .tchk f → c.taName < x.tiles → (∀ e ∈ (s.core core).tileErr, e.1 / 1088 = a → e.2 = 1) → ∃ u, exec i s = .next u ∧
      Tiled s u c (c.to32 (BitVec.ofNat 32 ((if tagPoi (tagAt s core a) || pendingPoi (s.core core) [a] then 2 ^ 31 else 0)
        + min ((s.core core).tileErr.filter fun e => e.1 / 1088 == a).length 255))) { tileOp [a] [] with check := true } (tagAt s core))

/-- TILE TRANSFERS. TLOAD sets a tile's tag and enters the reading of the 512 chunks that its address and stride name, and of its
side-band from VC under a scaled tag; where a word is already poisoned it reads at once and marks the tag. TSTORE enters the
storing of a tile, line by line, and of its side-band. The completion of a TLOAD fills the tile from the chunks, marking the tag
where a word read is poisoned; that of a store writes scratchpad, poisoned if its source is. A later tile instruction that names
a tile still to be read makes it read first. Where a chunk is misaligned or outside the region, or the tile is not the team's, the
trap leaves all as it was. -/
def Obligations.TileTransfers : Prop :=
  (∀ (i : Instr) (s : State) (tid : Nat) (c : Ctx) (x : Team), Issues s tid i c → s.team? c.t.team = some x →
    (∃ f, i = .tload f ∨ i = .tstore f) → exec i s = exec i (readLoads c.t.core ((c.inst x).named.map (tileOf s c x)) s)) ∧
  (∀ (i : Instr) (s : State) (tid : Nat) (c : Ctx) (x : Team), Issues s tid i c → s.team? c.t.team = some x →
    GoodTiles s c.t.core → LoadsRead s c x →
    let core := c.t.core
    let d := tileOf s c x c.tdName
    let a := tileOf s c x c.taName
    let base := regionOfTeam s { x with core := core }
    let pool := (s.core core).pool
    let addrs := c.chunkList
    let band (tag : Nat) : Prop := tagScale tag = 1 → c.vc.toNat % 16 = 0 ∧ c.vc.toNat + 512 ≤ x.spadP * 4096
    (∀ f, i = .tload f → c.tdName < x.tiles → chunksOk x addrs → band c.tagEnc →
      let scaled := tagScale c.tagEnc == 1
      let bad := addrs.any (fun k => poolBad s core (base + k) 16) || (scaled && poolBad s core (base + c.vc.toNat) 512)
      let want : TileOp := { tileOp [] [d] with threads := [tid] }
      (bad = false → ∃ u, exec i s = .next u ∧ Tiled s u c []
        { want with load := some (addrs.map (base + ·), if scaled then some (base + c.vc.toNat) else none) } (tagsWith s core d c.tagEnc)) ∧
      (bad = true → ∃ u, exec i s = .next u ∧ Tiled s u c [] { want with poi := true } (tagsWith s core d (c.tagEnc + 8)) ∧
        (∀ b < 8192, dataAt u core d b = mget pool (base + addrs.getD (b / 16) 0 + b % 16)) ∧
        ∀ b < 512, sideAt u core d b = if tagScale c.tagEnc = 1 then mget pool (base + c.vc.toNat + b) else 0)) ∧
    (∀ f, i = .tstore f → c.taName < x.tiles → soundTag x (tagAt s core a) = true → Clean s core a → chunksOk x addrs →
      band (tagAt s core a) → (tagScale (tagAt s core a) = 1 → (c.t.readAny c.count c.tid c.f.vc).2 = false) →
      let ws := (List.range 512).map (fun k => (base + addrs.getD k 0, (List.range 16).map fun b => dataAt s core a (16 * k + b)))
        ++ if tagScale (tagAt s core a) = 1 then [(base + c.vc.toNat, (List.range 512).map (sideAt s core a))] else []
      ∃ u, exec i s = .next u ∧ Tiled s u c []
        { tileOp [a] [] with stores := ws, threads := [tid], prior := (c.inst x).prior ws s, poi := tagPoi (tagAt s core a) } (tagAt s core)) ∧
    (∀ name, ((∃ f, i = .tload f) ∧ name = c.tdName) ∨ ((∃ f, i = .tstore f) ∧ name = c.taName) → x.tiles ≤ name →
      exec i s = .next { enterTrap tid c.pc c.next { cause := 0x0E, detail := name, addr := words01 i } s with issue := [] }) ∧
    (∀ f, i = .tload f → c.tdName < x.tiles → ∀ k < 512, (∀ j < k, addrs.getD j 0 % 16 = 0 ∧ addrs.getD j 0 + 16 ≤ x.spadP * 4096) →
      (addrs.getD k 0 % 16 ≠ 0 ∨ x.spadP * 4096 < addrs.getD k 0 + 16) →
      exec i s = .next { enterTrap tid c.pc c.next
        { cause := 0x0A, detail := if addrs.getD k 0 % 16 ≠ 0 then 1 else 0, addr := BitVec.ofNat 64 (addrs.getD k 0) } s with issue := [] })) ∧
  ∀ (s : State) (tid k : Nat) (t : Thread) (e : InFlight) (o : TileOp) (rest : List TileOp), Due s tid k t e → e.wait = .tile o.key →
    let core := t.core
    let pool := (s.core core).pool
    (s.core core).tileOps = o :: rest → (∀ y ∈ rest, y.key ≠ o.key) → (∀ p ∈ o.prior, accPending s p = false) → GoodTiles s core →
    (∀ addrs sb d, o.load = some (addrs, sb) → o.writes = [d] → o.data = [] → o.side = [] → o.stores = [] → o.cmd = none → rest = [] →
      addrs.length = 512 →
      ∃ u, exec (.instructionCompletion tid k) s = .next u ∧ (u.core core).tileOps = [] ∧ (u.core core).pool = pool ∧
        (∀ b < 8192, dataAt u core d b = mget pool (addrs.getD (b / 16) 0 + b % 16)) ∧
        (∀ b < 512, sideAt u core d b = match sb with | some a => mget pool (a + b) | none => 0) ∧
        (∀ y, y ≠ d → (∀ b < 8192, dataAt u core y b = dataAt s core y b) ∧ ∀ b < 512, sideAt u core y b = sideAt s core y b) ∧
        let bad := o.poi || addrs.any (fun a => poolBad s core a 16) || sb.any (fun a => poolBad s core a 512)
        ∀ y, tagAt u core y = if y = d ∧ bad = true ∧ tagPoi (tagAt s core d) = false then tagAt s core d + 8 else tagAt s core y) ∧
    (o.load = none → o.stores ≠ [] → o.cmd = none →
      ∃ u, exec (.instructionCompletion tid k) s = .next u ∧ (u.core core).tileOps = rest ∧
        (u.core core).pool = o.stores.foldl (fun m w => mputs m w.1 w.2) pool ∧
        (∀ y b, dataAt u core y b = dataAt s core y b ∧ sideAt u core y b = sideAt s core y b) ∧ (∀ y, tagAt u core y = tagAt s core y) ∧
        (o.poi = true → ∀ w ∈ o.stores, ∀ b < w.2.length, poolBad u core (w.1 + b) 1 = true) ∧
        (o.poi = false → (∀ w ∈ (u.core core).poolPoison, w ∈ (s.core core).poolPoison ∧
            ∀ y ∈ o.stores, ¬(y.1 ≤ 8 * w ∧ 8 * w + 8 ≤ y.1 + y.2.length)) ∧
          ∃ v, u.thread? tid = some v ∧ Landed t v e ∧ v.flight = t.flight.eraseIdx k ∧ ∀ n, n ≠ tid → u.thread? n = s.thread? n))

/-- TILE CONVERSIONS. TCVT converts the elements that PART pairs, block by block under a scaled destination, and leaves the
rest of the tile; TSCALE multiplies every element or every scale code by a power of two; DRAIN to scratchpad enters the storing of
32 rows of converted accumulator elements, with a scale code each under a scaled destination, and empties the source under Z. -/
def Obligations.TileConversions : Prop :=
  ∀ (i : Instr) (s : State) (tid : Nat) (c : Ctx) (x : Team), Issues s tid i c → s.team? c.t.team = some x →
    GoodTiles s c.t.core → LoadsRead s c x →
    let core := c.t.core
    let d := tileOf s c x c.tdName
    let a := tileOf s c x c.taName
    let rm := c.f.x / 2 ^ 18 % 8
    (∀ f, i = .tcvt f → c.taName < x.tiles → c.tdName < x.tiles → soundTag x (tagAt s core a) = true →
      tagPoi (tagAt s core a) = false → Clean s core a →
      let sf := fmtUnder x (tagAt s core a)
      let df := fmtUnder x c.tagEnc
      let es := perLine sf.code
      let ed := perLine df.code
      let part := c.f.x / 2 ^ 22 % 8
      let w := fmtBits df.code
      let from' (k : Nat) : Option Nat :=  -- the source element of a destination element
        if es ≥ ed then (if part * ed + k < es then some (part * ed + k) else none)
        else if part * es ≤ k ∧ k - part * es < es then some (k - part * es) else none
      convOk sf df = true → (rm = 5 → narrowing sf df = true) → part * min es ed < max es ed →
      (isMfFmt df.code = true → recValid df.code df.frec = true) → ∃ u, exec i s = .next u ∧
        Tiled s u c [] (tileOp [a, d] [d]) (tagsWith s core d c.tagEnc) ∧
        (∀ l < 32, ∀ k < ed, from' k = none → bitsOfElem u core d w l k = bitsOfElem s core d w l k) ∧
        (tagScale c.tagEnc = 0 → ∀ l < 32, ∀ k < ed, ∀ j, from' k = some j → bitsOfElem u core d w l k =
          convert sf df (fun _ => tileMode rm c.va.toNat [l, k]) (c.f.x.testBit 21) false (valuesOf s core x a l j) % 2 ^ w) ∧
        (tagScale c.tagEnc = 1 → ∀ l < 32, ∀ b,
          let ks := (List.range ed).filter fun k => k / 32 == b && (from' k).isSome
          let q := quantise df (fun n => tileMode rm c.va.toNat [l, ks.getD n 0]) false
            (ks.map fun k => (valuesOf s core x a l ((from' k).getD 0)).headD .nan)
          ks ≠ [] → (sideAt u core d (l * ((ed + 31) / 32) + b)).toNat = q.1 % 256 ∧
            ∀ n < ks.length, bitsOfElem u core d w l (ks.getD n 0) = q.2.getD n 0 % 2 ^ w)) ∧
    (∀ f, i = .tscale f → c.tdName < x.tiles → soundTag x (tagAt s core d) = true → tagPoi (tagAt s core d) = false → Clean s core d →
      let tag := tagAt s core d
      let fm := fmtUnder x tag
      let w := fmtBits fm.code
      isIntFmt fm.code = false → fm.code ≠ 0x14 → ∃ u, exec i s = .next u ∧ Tiled s u c [] (tileOp [d] [d]) (tagAt s core) ∧
        (tagScale tag = 1 → (∀ b < 8192, dataAt u core d b = dataAt s core d b) ∧ ∀ b < 32 * ((perLine fm.code + 31) / 32),
          let y : Int := (sideAt s core d b).toNat + c.va.toInt
          (sideAt u core d b).toNat = if (sideAt s core d b).toNat = 255 ∨ y < 0 ∨ 254 < y then 255 else y.toNat) ∧
        (tagScale tag = 0 → (∀ b < 512, sideAt u core d b = sideAt s core d b) ∧ ∀ l < 32, ∀ k < perLine fm.code,
          bitsOfElem u core d w l k =
            fm.join ((fm.values (bitsOfElem s core d w l k)).map fun z => fm.fp.round (rmOf rm) (z.scale c.va.toInt)) % 2 ^ w)) ∧
    (∀ f, i = .drainS f → c.taName < x.tiles → soundTag x (tagAt s core a) = true →
      let tag := tagAt s core a
      let wide := tagFmt tag = 0x10
      let tiles := if wide then [a, a + 1] else [a]
      (wide → c.taName % 2 = 0 ∧ c.taName + 1 < x.tiles ∧ soundTag x (tagAt s core (a + 1)) = true ∧ tagFmt (tagAt s core (a + 1)) = 0x10) →
      (∀ t ∈ tiles, Clean s core t) →
      let sf : Fmt := { code := tagFmt tag }
      let df := fmtUnder x c.tagEnc
      let len := 4 * fmtBits df.code
      let base := regionOfTeam s { x with core := core }
      let row (r : Nat) : Nat := c.va.toNat + r * c.vb.toNat
      let el (r k : Nat) : List Val :=
        sf.values (dataNum s core a (256 * tiles.length * r) (256 * tiles.length) / 2 ^ (fmtBits sf.code * k) % 2 ^ fmtBits sf.code)
      let mode (r k p : Nat) : Rm := tileMode rm c.ve.toNat [r, k, p]
      let out (r : Nat) : Nat × List Nat :=
        if tagScale c.tagEnc = 1 then quantise df (fun k => mode r k 0) false ((List.range 32).map fun k => (el r k).headD (.fin false 0 0))
        else (0, (List.range 32).map fun k => convert sf df (mode r k) (c.f.x.testBit 21) false (el r k))
      tagFmt tag ∈ [7, 0x0D, 0x0E, 0x0F, 0x10] → convOk sf df = true → (rm = 5 → narrowing sf df = true) →
      (isMfFmt df.code = true → recValid df.code df.frec = true) →
      (∀ r < 32, row r % 8 = 0 ∧ row r + len ≤ x.spadP * 4096) → (tagScale c.tagEnc = 1 → c.vc.toNat + 32 ≤ x.spadP * 4096) →
      let ws := (List.range 32).flatMap fun r =>
        (base + row r, bytesOf len (((out r).2.mapIdx fun k e => e % 2 ^ fmtBits df.code * 2 ^ (fmtBits df.code * k)).sum)) ::
          if tagScale c.tagEnc = 1 then [(base + c.vc.toNat + r, [BitVec.ofNat 8 (out r).1])] else []
      ∃ u, exec i s = .next u ∧
        Tiled s u c []
          { tileOp tiles (if c.f.x.testBit 22 then tiles else []) with
            stores := ws, threads := [tid], prior := (c.inst x).prior ws s,
            poi := tiles.any fun t => tagPoi (tagAt s core t) }
          (fun t => if c.f.x.testBit 22 ∧ t ∈ tiles then 0 else tagAt s core t) ∧
        (c.f.x.testBit 22 = true → ∀ t ∈ tiles, (∀ b < 8192, dataAt u core t b = 0) ∧ ∀ b < 512, sideAt u core t b = 0))

namespace Sys2Proof.Machine

/-- One output element of a step (10 R223): the accumulator with the products of an operand row and column, each element as its
real part and, for complex formats, its imaginary part. -/
def stepElem (code : Nat) (sat : Bool) (acc : Nat) (ps : List (List Val × List Val)) : Nat :=
  let re (v : List Val) : Val := v.headD (.fin false 0 0)
  let im (v : List Val) : Val := v.getD 1 (.fin false 0 0)
  let products : List Val := ps.map fun p => (re p.1).mul (re p.2)
  if isIntFmt code then
    (fits 32 sat false ((BitVec.ofNat 32 acc).toInt + (ps.map fun p => (re p.1).toInt * (re p.2).toInt).sum)).toNat
  else if code = 0x0F ∨ code = 0x10 then
    let q := if code = 0x0F then fp32 else fp64
    let h := fmtBits code / 2
    windowSum q (q.decode (acc % 2 ^ h)) (ps.flatMap fun p => [(re p.1).mul (re p.2), ((im p.1).mul (im p.2)).neg])
      + 2 ^ h * windowSum q (q.decode (acc / 2 ^ h)) (ps.flatMap fun p => [(re p.1).mul (im p.2), (im p.1).mul (re p.2)])
  else if code = 0x0D then windowSum fp32 (fp32.decode acc) products
  else if code = 0x0E then windowSum fp64 (fp64.decode acc) products
  else narrowSum (fp32.decode acc) products

/-- The largest K of an operand format, and its accumulator's format (10 R211). -/
def largestK (code : Nat) : Nat :=
  if fmtBits code = 4 then 512 else if fmtBits code = 6 then 320 else if fmtBits code = 128 then 16 else 2048 / fmtBits code
def accCode (code : Nat) : Nat := if code = 1 ∨ code = 3 then 7 else if 0x0E ≤ code ∧ code ≤ 0x10 then code else 0x0D

/-- The cycles of a group of recoded operand rows over `k` positions (09 R196). -/
def groupCycles (code k : Nat) (v : Nat → Nat → List Val) (rows : List Nat) : Nat :=
  let n := if fmtBits code = 4 then 4 else if fmtBits code ≤ 16 then 2 else 1
  let most (part u : Nat) : Nat := (rows.flatMap fun r => (List.range n).map fun j =>
    if n * u + j < k then ((v r (n * u + j)).getD part (.fin false 0 0)).terms else 0).foldl max 0
  let cy (t : Nat) : Nat := max 1 ((t + 1) / 2)
  ((List.range ((k + n - 1) / n)).map fun u =>
    if fmtBits code = 4 then 1 else if code = 0x0E then 2 * cy (most 0 u)
    else if code = 0x0F then 2 * (cy (most 0 u) + cy (most 1 u)) else if code = 0x10 then 4 * (cy (most 0 u) + cy (most 1 u))
    else cy (most 0 u)).sum

/-- The operands of a step: its tiles, K, and the values of A(i, k) and B(k, j) with conjugation applied (10 R222, R223). -/
structure Operands where
  a : Nat
  b : Nat
  accs : List Nat
  k : Nat
  code : Nat
  av : Nat → Nat → List Val
  bv : Nat → Nat → List Val

/-- The operands that an MMA or MMAC names. -/
def Ctx.operands (c : Ctx) (s : State) (x : Team) (cplx : Bool) : Operands :=
  let core := c.t.core
  let a := tileOf s c x (c.taName + c.va.toNat % 64)
  let b := tileOf s c x c.tbName
  let t := tileOf s c x (c.tdName + c.va.toNat / 256 % 64)
  let code := tagFmt (tagAt s core a)
  let flip (on : Bool) (v : List Val) : List Val := if on then v.mapIdx fun k y => if k = 1 then y.neg else y else v
  { a := a, b := b, accs := if cplx ∧ code = 0x10 then [t, t + 1] else [t], code := code,
    k := if c.f.x / 2 ^ 18 % 1024 = 0 then largestK code else c.f.x / 2 ^ 18 % 1024,
    av := fun i k => flip (cplx && c.m 3) (valuesOf s core x a i k), bv := fun j k => flip (cplx && c.m 4) (valuesOf s core x b j k) }

/-- The conditions under which a step is accepted (10 R208, R212, R222). -/
def StepOk (s : State) (c : Ctx) (x : Team) (cplx : Bool) (p : Operands) : Prop :=
  let core := c.t.core
  let t := c.tdName + c.va.toNat / 256 % 64
  c.taName + c.va.toNat % 64 < x.tiles ∧ c.tbName < x.tiles ∧ t + p.accs.length ≤ x.tiles ∧ (p.accs.length = 2 → t % 2 = 0) ∧
  (∀ y ∈ [p.a, p.b], soundTag x (tagAt s core y) = true ∧ tagPoi (tagAt s core y) = false ∧ tagFmt (tagAt s core y) = p.code ∧ ¬y ∈ p.accs) ∧
  p.code ∈ (if cplx then [0x0F, 0x10] else [0x01, 0x03, 0x0B, 0x0C, 0x0D, 0x0E, 0x11, 0x12, 0x13]) ∧ p.k ≤ largestK p.code ∧
  ((∀ y ∈ p.accs, tagAt s core y = 0) ∨ ∀ y ∈ p.accs, tagAt s core y = 2048 * accCode p.code) ∧
  (c.m 2 = true → accCode p.code = 7) ∧
  ∀ y ∈ [p.a, p.b] ++ (if ∀ y ∈ p.accs, tagAt s core y = 0 then [] else p.accs), Clean s core y

end Sys2Proof.Machine

/-- A STEP OF THE MATRIX ENGINE. An MMA or MMAC that passes its checks while the step queue has room enters the queue as one
step: its accumulator will hold, per element, the sum of the accumulator and the K products, with zero after each row; the
accumulator's tag is set and PK cleared at issue. The step runs for the cycles of its slowest group and counts its terms. -/
def Obligations.MatrixSteps : Prop :=
  ∀ (i : Instr) (cplx : Bool) (s : State) (tid : Nat) (c : Ctx) (x : Team), Issues s tid i c → s.team? c.t.team = some x →
    ((∃ f, i = .mma f ∧ cplx = false) ∨ ∃ f, i = .mmac f ∧ cplx = true) → GoodTiles s c.t.core → LoadsRead s c x →
    let core := c.t.core
    let p := c.operands s x cplx
    StepOk s c x cplx p → (s.core core).steps.length < 16 →
    ∃ u e m o, exec i s = .next u ∧ u.issue = [] ∧
      u.thread? tid = some (c.after c.raised [{ c.result [] with wait := .step e.key }]) ∧ (∀ k, k ≠ tid → u.thread? k = s.thread? k) ∧
      u.teams = s.teams ∧ u.grids = s.grids ∧ u.parts = s.parts ∧ u.dev = s.dev ∧ (∀ k, k ≠ core → u.core k = s.core k) ∧
      (u.core core).pool = (s.core core).pool ∧
      (u.core core).steps = (s.core core).steps ++ [e] ∧ e.team = c.t.team ∧ e.members = [m] ∧ e.todo = [0] ∧
      e.ready = c.clk + (if tagPk (tagAt s core p.a) || tagPk (tagAt s core p.b) then 16 else 8) ∧
      m.parts = [tid] ∧ (u.core core).tileOps = (s.core core).tileOps ++ [o] ∧ o.key = m.op ∧ o.step = true ∧ o.writes = p.accs ∧
      o.reads = [p.a, p.b] ++ (if ∀ y ∈ p.accs, tagAt s core y = 0 then [] else p.accs) ∧
      (∀ t, tagAt u core t = if t ∈ p.accs then 2048 * accCode p.code
        else if (t = p.a ∨ t = p.b) ∧ tagPk (tagAt s core t) then tagAt s core t - 256 else tagAt s core t) ∧
      (∀ t, ¬t ∈ p.accs → ∀ b < 8192, dataAt u core t b = dataAt s core t b) ∧
      (let w := fmtBits (accCode p.code)
       let len := 256 * p.accs.length
       let d := p.accs.headD 0
       ∀ r < 32,
        let old := dataNum s core d (len * r) len
        dataNum u core d (len * r) len = ((List.range 32).map fun j =>
          stepElem p.code (!cplx && c.m 2) (if ∀ y ∈ p.accs, tagAt s core y = 0 then 0 else old / 2 ^ (w * j) % 2 ^ w)
            ((List.range p.k).map fun k => (p.av r k, p.bv j k)) % 2 ^ w * 2 ^ (w * j)).sum) ∧
      (let v := if c.m 0 then p.bv else p.av
       let groups := if c.m 0 then (List.range 256).map fun g => (List.range 4).map fun k => 4 * (g % 8) + k
         else (List.range 256).map fun g => [g / 8]
       let cs := groups.map (groupCycles p.code p.k v)
       m.run = cs.foldl max 0 ∧ m.skew = m.run - cs.foldl min m.run ∧ m.idle = (cs.map (m.run - ·)).sum ∧
       m.terms = 32 * (if cplx then 2 else 1) *
         ((List.range 32).map fun r => ((List.range p.k).map fun k => ((v r k).map Val.terms).sum).sum).sum)

namespace Sys2Proof.Machine

/-- The waves of a mask, and their live threads, lowest wave and lane first (10 R224). -/
def wavesOf (m : Nat) : List Nat := (List.range 32).filter m.testBit
def membersOf (s : State) (team m : Nat) : List (List (Nat × Thread)) :=
  (wavesOf m).map fun w => sortOn (fun (e : Nat × Thread) => e.2.lane.toNat) (livesInWave s team w)

/-- A gang pass that meets no check that fails: every member with a participant has a plan, its accumulator being neither another
member's nor an operand of the pass (10 R222, R224). -/
def PassOk (s : State) (x : Team) (i : Instr) (cplx : Bool) (gs : List (List (Nat × Thread))) : Prop :=
  ∀ m ∈ memberChecks s cplx (gs.map (memberInst s x i)), ∀ tr, m ≠ .bad tr

/-- A thread of a fired pass: its participants complete with the step, the others only issue. -/
def firedThread (s : State) (i : Instr) (key k : Nat) (t : Thread) : Prop :=
  ∀ c g, Comes s k i c g →
    (g = true → t = { c.freed c.flag [{ c.result [] with wait := .step key }] with gangSample := t.gangSample }) ∧
    (g = false → t = { c.freed none [] with gangSample := t.gangSample })

end Sys2Proof.Machine

/-- THE GANG RENDEZVOUS. A wave whose only live thread reaches MMA.G or MMAC.G, or whose live threads are all held there, with a
valid mask that overlaps no open latch opens one. When every wave of a latch has arrived and a port, the ENG unit and the step
queue accept the pass, it is queued as one step with a member for each wave that takes part, and the instruction issues for all
of their threads. -/
def Obligations.GangPasses : Prop :=
  ∀ (i : Instr) (cplx : Bool) (s : State) (team core : Nat) (x : Team),
    ((∃ f, i = .mmaG f ∧ cplx = false) ∨ ∃ f, i = .mmacG f ∧ cplx = true) → s.team? team = some x → x.core = core →
    x.state = .live → x.killReq = false → rising s.threads = true →
    let valid (m wave : Nat) : Prop := 2 ≤ (wavesOf m).length ∧ (wavesOf m).length ≤ 6 ∧ m.testBit wave = true ∧ m < 2 ^ x.waves
    let alive : Prop := ∀ l ∈ x.latches, ∀ w ∈ wavesOf l.mask, livesInWave s team w ≠ []
    -- the first wave of a gang arrives
    (∀ tid c g, s.issue = [tid] → Comes s tid i c g → c.t.team = team → c.t.conv = .run → livesInWave s team c.t.wave.toNat = [(tid, c.t)] →
      let m := (lo32 (c.t.readSreg s.count tid c.clk 0x0A)).toNat
      valid m c.t.wave.toNat → alive → (∀ w ∈ wavesOf m, livesInWave s team w ≠ []) →
      (∀ l ∈ x.latches, l.mask &&& m = 0 ∧ ¬c.t.wave.toNat ∈ l.waves) →
      exec i s = .next { s with
        threads := tput s.threads tid { c.t with conv := .heldGang, held := some i, gangSample := BitVec.ofNat 32 m },
        teams := tput s.teams team { x with latches := x.latches ++ [{ mask := m, addr := c.pc, waves := [c.t.wave.toNat] }] }, issue := [] }) ∧
    (∀ tid t, s.thread? tid = some t → t.team = team → t.task = none →
      (∀ e ∈ livesInWave s team t.wave.toNat, e.2.conv = .heldGang ∧ e.2.pc = t.pc ∧ e.2.gangSample = t.gangSample) →
      valid t.gangSample.toNat t.wave.toNat → alive → (∀ w ∈ wavesOf t.gangSample.toNat, livesInWave s team w ≠ []) →
      (∀ l ∈ x.latches, l.mask &&& t.gangSample.toNat = 0 ∧ ¬t.wave.toNat ∈ l.waves) →
      exec (.gangArrival tid) s = .next { s with
        teams := tput s.teams team
          { x with latches := x.latches ++ [{ mask := t.gangSample.toNat, addr := t.pc, waves := [t.wave.toNat] }] } }) ∧
    -- the pass fires
    ((s.core core).ports.length < 4 → (s.core core).engUsed = 0 → (s.core core).steps.length < 16 →
      GoodTiles s core → (∀ o ∈ (s.core core).tileOps, o.load = none) → (s.core core).tileErr = [] →
      ∀ (k : Nat) (l : Latch), x.latches[k]? = some l → PassOk s x i cplx (membersOf s team l.mask) →
      (∀ e ∈ (membersOf s team l.mask).flatMap id, e.2.core = core ∧ e.2.pc = l.addr ∧ ∃ c g, Comes s e.1 i c g) →
      let fired (u : State) : Prop := ∃ e, (u.core core).steps = (s.core core).steps ++ [e] ∧ e.team = team ∧
        e.members.length = ((membersOf s team l.mask).filter fun g => !(takersOfAll i s g).isEmpty).length ∧
        (∀ b ∈ (membersOf s team l.mask).flatMap id, ∃ t, u.thread? b.1 = some t ∧ firedThread s i e.key b.1 t) ∧
        (∀ n, (∀ b ∈ (membersOf s team l.mask).flatMap id, b.1 ≠ n) → u.thread? n = s.thread? n) ∧
        ∃ y, u.team? team = some y ∧ y.latches = x.latches.eraseIdx k
      ((∀ w ∈ wavesOf l.mask, w ∈ l.waves ∧ ∀ e ∈ livesInWave s team w, e.2.conv = .heldGang ∧ e.2.held = some i) →
        (membersOf s team l.mask).flatMap id ≠ [] → ∃ u, exec (.gangFire team k) s = .next u ∧ fired u) ∧
      (∀ tid c g, s.issue = [tid] → Comes s tid i c g → c.t.team = team → c.t.conv = .run →
        livesInWave s team c.t.wave.toNat = [(tid, c.t)] → l.mask = (lo32 (c.t.readSreg s.count tid c.clk 0x0A)).toNat →
        valid l.mask c.t.wave.toNat → l.addr = c.pc → (∀ y ∈ x.latches, ¬c.t.wave.toNat ∈ y.waves) →
        (∀ j y, x.latches[j]? = some y → j < k → y.mask &&& l.mask = 0) →
        (∀ w ∈ wavesOf l.mask, w ≠ c.t.wave.toNat → w ∈ l.waves ∧ ∀ e ∈ livesInWave s team w, e.2.conv = .heldGang ∧ e.2.held = some i) →
        ∃ u, exec i s = .next u ∧ u.issue = [] ∧ fired u))

namespace Sys2Proof.Machine

/-- A scratchpad range of whole 16-byte chunks of the team's region (08 R162, 11 R238). -/
def spadFits (x : Team) (a n : Nat) : Prop := a % 16 = 0 ∧ a + n ≤ x.spadP * 4096

/-- Handle entry `i` of a team (11 R237). -/
def entryOf (s : State) (x : Team) (i : Nat) : Handle := tget (s.core x.core).handles (x.slot * handlesPer (s.core x.core) + i) {}

/-- What copy-side instructions leave alone: threads, teams and cores other than those named, grids, device memory. -/
structure Beside (s u : State) (tid team core : Nat) : Prop where
  threads : ∀ k, k ≠ tid → u.thread? k = s.thread? k
  teams : ∀ k, k ≠ team → u.team? k = s.team? k
  cores : ∀ k, k ≠ core → (u.core k).pool = (s.core k).pool ∧ (u.core k).handles = (s.core k).handles ∧ (u.core k).cmds = (s.core k).cmds
  rest : u.dev = s.dev ∧ u.parts = s.parts ∧ u.issue = []

/-- The origin range of a command: V255 for zeros, or registers below N and V255 that are not poisoned (11 R242). -/
def Ctx.originsOk (c : Ctx) (n : Nat) : Prop :=
  c.f.ve = 255 ∨ (c.f.ve + n ≤ c.t.nregs ∧ c.f.ve + n ≤ 255 ∧ ∀ k < n, (c.t.readAny c.count c.tid (c.f.ve + k)).2 = false)
def Ctx.originRegs (c : Ctx) (n : Nat) : List Word := (List.range n).map fun k => if c.f.ve = 255 then 0 else c.r (c.f.ve + k)

/-- A bracket of the team is open for the command, and it may take it (12 R277). -/
def inBracket (x : Team) : Bool := decide (0 < x.tx.depth) && x.tx.commit.isNone
def bracketTakes (x : Team) (i : Instr) : Prop :=
  inBracket x = true → x.tx.aborted = false ∧ ∀ f, i ≠ .catom f ∧ i ≠ .cpyst f ∧ i ≠ .drainRoute f

/-- A command as it is accepted, with the thread's accesses still to be performed, which its own follow (11 R243, R256, 12 R266, R277). -/
def Ctx.command (c : Ctx) (s : State) (x : Team) (snaps : List Rec) (origins : List Word) (os od : List Int) (oi : Int) (buoy : Option Nat) : Command :=
  { team := c.t.team, thread := c.tid, num := c.t.num, instr := c.i, ticket := x.ticket, regs := [c.va, c.vb, c.vc] ++ origins,
    snaps := snaps, os := os, od := od, oi := oi, buoy := buoy, ready := c.clk + 4, fences := c.t.fences,
    prior := c.t.before.filter (accPending s) ++ threadAccs s x.core c.tid,
    bracketed := inBracket x, afterCommit := x.tx.commit.isSome, retired := c.t.retired }

/-- A command enters the queue of its core: the team's next ticket is taken and goes to VD at the acceptance 4 clk later; the
thread counts its reads (1) and writes (2) for later fences. -/
structure Enters (s u : State) (c : Ctx) (x : Team) (key kinds : Nat) (rings : Table Ring) (cmd : Command) : Prop where
  thread : u.thread? c.tid = some { c.after c.raised [{ c.result (c.to32 (BitVec.ofNat 32 x.ticket)) with wait := .accept key (c.clk + 4) }] with
    cmdKinds := c.t.cmdKinds ||| kinds }
  team : u.team? c.t.team = some { x with ticket := (x.ticket + 1) % 2 ^ 32, rings := rings }
  queue : (u.core x.core).cmds = tput (s.core x.core).cmds key cmd
  beside : Beside s u c.tid c.t.team x.core

/-- The buoy and operand checks of a command (11 R244). -/
def Ctx.buoyOk (c : Ctx) (x : Team) (nb : Bool) : Prop := nb = false → spadFits x c.vc.toNat 16
def Ctx.buoyAddr (c : Ctx) (nb : Bool) : Option Nat := if nb then none else some c.vc.toNat

/-- A drain's source and conversion pass their checks (10 R208, R212, R226, 09 R189). -/
def DrainOk (s : State) (c : Ctx) (x : Team) (tiles : List Nat) (df : Fmt) : Prop :=
  let a := tileOf s c x c.taName
  let code := tagFmt (tagAt s c.t.core a)
  c.taName < x.tiles ∧ soundTag x (tagAt s c.t.core a) = true ∧ code ∈ [7, 0x0D, 0x0E, 0x0F, 0x10] ∧
  tiles = (if code = 0x10 then [a, a + 1] else [a]) ∧
  (code = 0x10 → c.taName % 2 = 0 ∧ c.taName + 1 < x.tiles ∧ soundTag x (tagAt s c.t.core (a + 1)) = true ∧
    tagFmt (tagAt s c.t.core (a + 1)) = 0x10) ∧
  (∀ t ∈ tiles, Clean s c.t.core t ∧ tagPoi (tagAt s c.t.core t) = false) ∧ (∀ o ∈ (s.core c.t.core).tileOps, o.poi = false) ∧
  convOk { code := code } df = true ∧ (c.f.x / 2 ^ 18 % 8 = 5 → narrowing { code := code } df = true) ∧
  (isMfFmt df.code = true → recValid df.code df.frec = true)

/-- The converted elements of a drain, 32 and a scale code for each row (10 R226). -/
def drainedElems (s : State) (c : Ctx) (x : Team) (tiles : List Nat) (df : Fmt) (scaled : Bool) : List Nat :=
  let a := tileOf s c x c.taName
  let sf : Fmt := { code := tagFmt (tagAt s c.t.core a) }
  let len := 256 * tiles.length
  let el (r k : Nat) : List Val :=
    sf.values (dataNum s c.t.core a (len * r) len / 2 ^ (fmtBits sf.code * k) % 2 ^ fmtBits sf.code)
  let mode (r k p : Nat) : Rm := tileMode (c.f.x / 2 ^ 18 % 8) c.ve.toNat [r, k, p]
  (List.range 32).flatMap fun r =>
    if scaled then
      let q := quantise df (fun k => mode r k 0) false ((List.range 32).map fun k => (el r k).headD (.fin false 0 0))
      q.2 ++ [q.1]
    else ((List.range 32).map fun k => convert sf df (mode r k) (c.f.x.testBit 21) false (el r k)) ++ [0]

/-- A drain's tile operation in its place of the order, on which the command waits, and its source EMPTY under Z (10 R227). -/
def Drains (s u : State) (c : Ctx) (tiles : List Nat) : Prop :=
  (∃ o, (u.core c.t.core).tileOps = (s.core c.t.core).tileOps ++ [o] ∧ o.key = s.fresh ∧ o.step = false ∧ o.cmd = some (s.fresh + 1) ∧ o.reads = tiles ∧
    o.writes = if c.f.x.testBit 22 then tiles else []) ∧
  ∀ t, tagAt u c.t.core t = if c.f.x.testBit 22 ∧ t ∈ tiles then 0 else tagAt s c.t.core t

end Sys2Proof.Machine

/-- HANDLES AND QUERIES. SEAL of a record that passes its checks writes the snapshot into the team's lowest invalid entry with
the next generation and brings the handle, and otherwise brings the status alone. UNSEAL clears a valid handle's entry and brings
0, or brings 1. CPYQ brings the state and count of a ticket's command, of its failure, or 7. CPYCAN brings the state and ends a
command that is not gone as cancelled. CFENCE holds the thread's later commands behind its earlier ones. -/
def Obligations.HandlesAndQueries : Prop :=
  ∀ (i : Instr) (s : State) (tid : Nat) (c : Ctx) (x : Team), Issues s tid i c → s.team? c.t.team = some x →
    let h := c.va.toNat
    let core := x.core
    let per := handlesPer (s.core core)
    (∀ f, i = .seal f → spadFits x h 128 → Memory.wf (s.core core).pool = true →
      let off := regionOfTeam s x + h
      let rc : Rec := BitVec.ofNat 1024 (poolNat s core off 128)
      let st := sealStatus s x rc (poolBad s core off 128)
      (st ≠ 0 → exec i s = .next (wrote s c (c.to32 (BitVec.ofNat 32 st)))) ∧
      (st = 0 → ∃ u e, exec i s = .next u ∧ e < per ∧ (entryOf s x e).valid = false ∧ (∀ j < e, (entryOf s x j).valid = true) ∧
        let g := if 2 ^ 24 - 1 ≤ (entryOf s x e).gen then 1 else (entryOf s x e).gen + 1
        u.thread? tid = some (c.after c.raised [c.result (c.to32 (BitVec.ofNat 32 (256 * g + e)))]) ∧
        (u.core core).handles = tput (s.core core).handles (x.slot * per + e) { gen := g, valid := true, rcd := rc } ∧
        (∀ k, k ≠ tid → u.thread? k = s.thread? k) ∧ (∀ k, k ≠ c.t.team → u.team? k = s.team? k) ∧ u.dev = s.dev ∧
        (rc.toNat / 2 ^ 156 % 16 = 0 → u.team? c.t.team = some x ∧ ∀ k, (u.core k).pool = (s.core k).pool))) ∧
    (∀ f, i = .unseal f →
      (handleRec s x h = none → exec i s = .next (wrote s c (c.to32 1))) ∧
      (∀ rc, handleRec s x h = some rc → ∃ u, exec i s = .next u ∧
        u.thread? tid = some (c.after c.raised [c.result (c.to32 0)]) ∧ handleRec u x h = none ∧
        (∀ e, e ≠ h % 256 → entryOf u x e = entryOf s x e) ∧ (entryOf u x (h % 256)).gen = (entryOf s x (h % 256)).gen ∧
        (∀ k, k ≠ tid → u.thread? k = s.thread? k) ∧ (∀ k, k ≠ c.t.team → u.team? k = s.team? k) ∧ u.dev = s.dev ∧
        (∀ k, (u.core k).pool = (s.core k).pool ∧ (u.core k).cmds = (s.core k).cmds) ∧
        (tfind x.routes (h % 256) = none → u.team? c.t.team = some x ∧ u.parts = s.parts))) ∧
    (let found := (s.core core).cmds.find? fun e => e.2.team == c.t.team && e.2.ticket == h
     let failed := x.fails.reverse.find? fun e => e.ticket == h
     let word := match found, failed with
       | some (_, y), _ => (match y.state with | .queued => 0 | .active => 1 | .parked => 2 | .stalled => 3)
       | none, some e => e.st + 256 * e.reason
       | none, none => 7
     let count := match found, failed with
       | some (_, y), _ => (if y.state = .queued then 0 else y.c)
       | none, some e => e.c
       | none, none => 0
     (∀ f, i = .cpyq f →
       exec i s = .next (wrote s c [(c.f.vd, BitVec.ofNat 32 word), (c.f.vd + 1, BitVec.ofNat 32 count)])) ∧
     (∀ f, i = .cpycan f →
       (found = none → exec i s = .next (wrote s c (c.to32 (BitVec.ofNat 32 (word % 16))))) ∧
       (∀ k y, found = some (k, y) → rising (s.core core).cmds = true → Memory.wf (s.core core).pool = true →
         (∃ g, y.instr = .cpy g) → ∃ u, exec i s = .next u ∧
         u.thread? tid = some (c.after c.raised [c.result (c.to32 (BitVec.ofNat 32 (word % 16)))]) ∧ u.cmd? core k = none ∧
         (∃ v, u.team? c.t.team = some v ∧ v.ticket = x.ticket ∧ v.rings = x.rings ∧
           v.fails.getLast? = some { ticket := h, st := 5, reason := 0, c := y.c } ∧
           (v.tx.failed = true ↔ y.bracketed = true ∨ x.tx.failed = true)) ∧
         (∀ a, y.buoy = some a → (buoyOf (poolNat u core (regionOfTeam s x + a) 16)).err = true) ∧
         ∀ n, n ≠ tid → u.thread? n = s.thread? n))) ∧
    (∀ f, i = .cfence f →
      let m := c.f.mod
      let reads (y : Instr) : Bool := match y with | .cpyf _ | .drainRoute _ => false | .drainH g => g.x.toNat.testBit 25 | _ => true
      let writes (y : Instr) : Bool := match y with | .cpypf _ | .cpyrc _ => false | _ => true
      exec i s = .next (issued s c { c.after c.raised [{ c.result [] with wait := .accept s.fresh (c.clk + 4) }] with
        fences := c.t.fences ++ [{
          cmds := ((s.core c.t.core).cmds.filter fun e =>
            e.2.thread == tid && ((m.testBit 0 && reads e.2.instr) || (m.testBit 1 && writes e.2.instr))).map (·.1)
          after := m / 4 % 4
          acq := if m.testBit 0 ∨ (4 ≤ m / 16 % 8 ∧ m.testBit 2) then m / 16 % 8 else 0
          rel := if m.testBit 1 ∧ c.t.cmdKinds.testBit 1 then m / 16 % 8 else 0 }] }))

/-- COPY COMMANDS. CPY, CPYG, CPYS, CPYF, CPYPF, CPYRC and CATOM whose handles are valid, whose origins can be read, and whose
records meet the conditions of their roles, shapes and formats, and whose buoy lies in the region, enter the queue with the
snapshots of their handles and their origins as read; no memory changes. -/
def Obligations.CopyCommands : Prop :=
  ∀ (i : Instr) (s : State) (tid : Nat) (c : Ctx) (x : Team), Issues s tid i c → s.team? c.t.team = some x → bracketTakes x i →
    let nb := c.m 1
    let ints (l : List Word) : List Int := l.map fun w => w.toInt
    let kept (u : State) : Prop := ∀ k, (u.core k).pool = (s.core k).pool ∧ (u.core k).handles = (s.core k).handles
    let oneRec (rc : Rec) (ok : TRec → List Int → Prop) (kinds : Nat) : Prop :=
      let r := trecOf rc
      let ws := c.originRegs r.dims
      c.originsOk r.dims → handleRec s x c.va.toNat = some rc → r.kind ≠ 1 → ok r (ints ws) → c.buoyOk x nb →
      ∃ u, exec i s = .next u ∧ kept u ∧
        Enters s u c x s.fresh kinds x.rings (c.command s x [rc] ws (ints ws) (ints ws) 0 (c.buoyAddr nb))
    let inDevice (r : TRec) : Prop := r.base / 2 ^ 62 = 0 ∧ r.padded = false
    -- CPY, CPYG and CPYS
    (∀ (idx scatter : Bool), ((∃ f, i = .cpy f ∧ idx = false ∧ scatter = false) ∨ (∃ f, i = .cpyg f ∧ idx = true ∧ scatter = false) ∨
        ∃ f, i = .cpys f ∧ idx = true ∧ scatter = true) →
      ∀ rd rs ri, handleRec s x c.va.toNat = some rd → handleRec s x c.vb.toNat = some rs →
      let d := trecOf rd
      let r := trecOf rs
      let n := d.dims
      let ws := c.originRegs (2 * n + if idx then 2 else 0)
      let gdim := c.f.x / 2 ^ 15 % 8
      let perm (k : Nat) : Nat := if c.f.x % 2 ^ 15 = 0 then k else c.f.x / 2 ^ (3 * k) % 8
      let op := if scatter then c.f.mod / 4 % 16 else 0
      let os := (ints ws).take n
      let od := ((ints ws).drop n).take n
      c.originsOk (2 * n + if idx then 2 else 0) →
      (idx = true → handleRec s x (ws.getD (2 * n) 0).toNat = some ri ∧ (trecOf ri).kind ≠ 1 ∧ (trecOf ri).dims = 1 ∧
        (trecOf ri).fmt.code = 7 ∧ gdim < n) →
      d.kind ≠ 1 → r.kind ≠ 1 → r.dims = n → permOk c.f.x n = true →
      (∀ k < n, (idx = true ∧ k = gdim) ∨ at0 d.box k = at0 r.box (perm k)) → (scatter = true → d.padded = false) →
      scaledBad d (od.getD 0 0) (at0 d.box 0) = false → formatsBad r d (c.m 0) op = false → c.buoyOk x nb →
      ∃ u, exec i s = .next u ∧ kept u ∧ Enters s u c x s.fresh 3 x.rings
        (c.command s x ([rd, rs] ++ if idx then [ri] else []) ws os od (if idx then (ints ws).getD (2 * n + 1) 0 else 0) (c.buoyAddr nb))) ∧
    -- the commands over one record
    (∀ f rc, i = .cpyf f → oneRec rc (fun r o => scaledBad r (o.getD 0 0) (at0 r.box 0) = false) 2) ∧
    (∀ f rc, (i = .cpypf f ∨ i = .cpyrc f) → oneRec rc (fun r _ => inDevice r) 1) ∧
    ∀ f rc, i = .catom f → spadFits x c.vb.toNat 16 →
      oneRec rc (fun r _ => inDevice r ∧
        let op := c.f.mod / 4 % 16
        (r.fmt.code ∈ [7, 8, 9, 0x0A] ∧ op ∉ [11, 12, 13, 15]) ∨ (r.fmt.code ∈ [0x0D, 0x0E] ∧ op ∈ [8, 11, 12, 13, 14])) 3

/-- DRAINS AND RINGS AS COMMANDS. DRAIN to a handle or a route converts its source at its turn among the tile instructions and
enters the queue with the converted elements. CPYST of a stream and a slot record that fit, over a ring header in range, writes
the header's and the slots' own fields, binds the ring and enters the queue. -/
def Obligations.DrainsAndRings : Prop :=
  ∀ (i : Instr) (s : State) (tid : Nat) (c : Ctx) (x : Team), Issues s tid i c → s.team? c.t.team = some x → bracketTakes x i →
    x.core = c.t.core → GoodTiles s c.t.core → LoadsRead s c x →
    let core := c.t.core
    let ints (l : List Word) : List Int := l.map fun w => w.toInt
    (∀ f rc tiles, i = .drainH f → handleRec s x c.va.toNat = some rc →
      let r := trecOf rc
      let half (k : Nat) : Int := (c.vb.extractLsb' k 16).toInt
      let od : List Int := ([half 16, half 0, 0, 0, 0] : List Int).take (max r.dims 2)
      let op := if c.f.x.testBit 25 then (if isIntFmt r.fmt.code then 1 else 7) else 0
      r.kind ≠ 1 → DrainOk s c x tiles r.fmt → opAllowed op r.fmt.code = true → c.buoyOk x false →
      scaledBad { r with padlo := [], padhi := [] } (half 16) 32 = false →
      ∃ u, exec i s = .next u ∧ (∀ k, (u.core k).pool = (s.core k).pool) ∧ Drains s u c tiles ∧
        Enters s u c x (s.fresh + 1) (if c.f.x.testBit 25 then 3 else 2) x.rings
          { c.command s x [rc] [] [] od 0 (some c.vc.toNat) with
            data := drainedElems s c x tiles r.fmt r.sc, tiles := tiles.map (· - x.slot * (s.core core).cfg.tiles), source := some s.fresh }) ∧
    (∀ f rc tiles, i = .drainRoute f → handleRec s x c.va.toNat = some rc → (trecOf rc).kind = 1 →
      let t := rtabOf rc
      c.vb.toNat < t.n → DrainOk s c x tiles { code := t.fmt } → (∀ r, tfind x.routes (c.va.toNat % 256) = some r → r.failed = false) →
      ∃ u, exec i s = .next u ∧ (∀ k, (u.core k).pool = (s.core k).pool) ∧ Drains s u c tiles ∧
        Enters s u c x (s.fresh + 1) 2 x.rings
          { c.command s x [rc] [] [] [] 0 none with
            data := drainedElems s c x tiles { code := t.fmt } false, tiles := tiles.map (· - x.slot * (s.core core).cfg.tiles),
            source := some s.fresh }) ∧
    (∀ f ra rb, i = .cpyst f → handleRec s x c.va.toNat = some ra → handleRec s x c.vb.toNat = some rb →
      let stream := trecOf ra
      let slot := trecOf rb
      let ws := c.originRegs stream.dims
      let rcb := c.vc.toNat
      let off := regionOfTeam s x + rcb
      let h := ringHead (poolNat s core off 32)
      let d := c.f.x / 2 ^ 15 % 8
      let chunks := at0 stream.box d / at0 slot.box d
      let dst := if h.dir = 0 then slot else stream
      let bytes := (((List.range slot.dims).map (at0 slot.box)).foldl (· * ·) 1 * dst.width + 7) / 8
      let ring : Ring := { cmd := s.fresh, dir := h.dir, n := h.n, relt := h.relt, stride := h.stride, chunks := chunks, bytes := bytes,
                           ticket := x.ticket, rel := List.replicate h.n 0, chunk := List.range h.n }
      c.originsOk stream.dims → spadFits x rcb (32 + 32 * h.n) → h.bad = false → bytes < 2 ^ 32 → x.ticket < 2 ^ 32 → 0 < chunks → 0 < slot.dims →
      (∀ r, tfind x.rings rcb = some r → r.state ≠ 1) → stream.kind ≠ 1 → slot.kind ≠ 1 →
      slot.base / 2 ^ 62 = 1 → slot.base / 2 ^ 30 % 4 = 0 → stream.dims = slot.dims → d < slot.dims →
      (∀ k < slot.dims, k ≠ d → at0 slot.box k = at0 stream.box k) → at0 stream.box d = chunks * at0 slot.box d → slot.padded = false →
      formatsBad (if h.dir = 0 then stream else slot) dst (c.m 0) 0 = false → slotsFault x slot h = none →
      ∃ u, exec i s = .next u ∧
        Enters s u c x s.fresh 3 (tput x.rings rcb ring) (c.command s x [ra, rb] ws (ints ws) (ints ws) 0 none) ∧
        poolNat u core (off + 8) 17 = chunks + 2 ^ 96 * x.ticket + 2 ^ 128 ∧
        (∀ k < h.n, poolNat u core (off + 32 + 32 * k) 32 = bytes + 2 ^ 128 * k) ∧
        ∀ b, (b < off + 8 ∨ off + 25 ≤ b) → (b < off + 32 ∨ off + 32 + 32 * h.n ≤ b) →
          mget (u.core core).pool b = mget (s.core core).pool b)

namespace Sys2Proof.Machine

/-- The transaction word of a bracket (12 R278). -/
def bracketWord (t : Tx) : Word :=
  BitVec.ofNat 32 ((if 0 < t.depth then 2 ^ 31 else 0) + (if t.aborted then 2 ^ 30 else 0) + 2 ^ 27 * t.depth + 2 ^ 16 * t.code + t.reason)

/-- The state after an instruction that sets the bracket of its team and brings a word. -/
def withTx (s : State) (c : Ctx) (x : Team) (tx : Tx) (v : Word) : State :=
  { wrote s c (c.to32 v) with teams := tput s.teams c.t.team { x with tx := tx } }

/-- No command of a team that is not gone belongs to its bracket. -/
def noneBracketed (s : State) (team : Nat) (x : Team) : Prop := ∀ e ∈ (s.core x.core).cmds, e.2.team = team → e.2.bracketed = false

/-- Bytes of a ring's control block that the engine writes (12 R270). -/
def ringKept (s u : State) (core off n : Nat) : Prop :=
  ∀ b, (b < off + 8 ∨ off + 32 + 32 * n ≤ b) → mget (u.core core).pool b = mget (s.core core).pool b

end Sys2Proof.Machine

/-- TRANSACTIONS. XBEGIN opens a bracket, nests it or aborts it at depth 7; XABORT aborts it with its code; XCOMMIT closes a
nested bracket and at depth 1 waits as the commit in flight; XSTAT brings the transaction word. XCOMMIT_COMPLETE closes the
bracket once it has aborted, or once none of its commands is left, and brings the word to the thread that waits: the held bytes
are then where a walk made at that moment places their lines. A held line that may not be written leaves the bracket open, with
its fault told. -/
def Sys2Proof.Machine.Transactions : Prop :=
  (∀ (i : Instr) (s : State) (tid : Nat) (c : Ctx) (x : Team), Issues s tid i c → s.team? c.t.team = some x →
    let d := x.tx.depth
    (∀ f, i = .xstat f → exec i s = .next (wrote s c (c.to32 (bracketWord x.tx)))) ∧
    (∀ f, i = .xbegin f →
      (d = 0 → exec i s = .next (withTx s c x { depth := 1 } (bracketWord { depth := 1 }))) ∧
      (0 < d → d < 7 → exec i s = .next (withTx s c x { x.tx with depth := d + 1 } (bracketWord { x.tx with depth := d + 1 }))) ∧
      (d = 7 → x.tx.aborted = true → exec i s = .next (wrote s c (c.to32 (bracketWord x.tx)))) ∧
      (d = 7 → x.tx.aborted = false → noneBracketed s c.t.team x →
        let tx := { x.tx with aborted := true, reason := 7, code := 0, held := [], lines := [] }
        exec i s = .next (withTx s c x tx (bracketWord tx)))) ∧
    (∀ f, i = .xabort f →
      (d = 0 → exec i s = .next (wrote s c (c.to32 0xFFFFFFFF#32))) ∧
      (0 < d → x.tx.aborted = true → exec i s = .next (wrote s c (c.to32 (bracketWord x.tx)))) ∧
      (0 < d → x.tx.aborted = false → noneBracketed s c.t.team x →
        let tx := { x.tx with aborted := true, reason := 1, code := c.va.toNat % 256, held := [], lines := [] }
        exec i s = .next (withTx s c x tx (bracketWord tx)))) ∧
    (∀ f, i = .xcommit f →
      (d = 0 → exec i s = .next (wrote s c (c.to32 0xFFFFFFFF#32))) ∧
      (1 < d → exec i s = .next (withTx s c x { x.tx with depth := d - 1 } (bracketWord { x.tx with depth := d - 1 }))) ∧
      (d = 1 → x.tx.commit = none → exec i s = .next
        { issued s c (c.after c.raised [{ c.result (c.to32 0) with wait := .commit s.fresh }]) with
          teams := tput s.teams c.t.team { x with tx := { x.tx with commit := some (c.f.mod / 16 % 8, s.fresh, [tid]) } }
          fresh := s.fresh + 1 }))) ∧
  ∀ (s : State) (team : Nat) (x : Team) (scope key tid r : Nat) (t : Thread) (e : InFlight), s.team? team = some x →
    x.tx.commit = some (scope, key, [tid]) → s.thread? tid = some t →
    (t.flight.filter fun e => e.wait == .commit key) = [e] → e.regs = [(r, 0)] → e.poison = [] → e.sreg = none →
    let tx : Tx :=
      if x.tx.aborted then { aborted := true, reason := x.tx.reason, code := x.tx.code }
      else if x.tx.failed then { aborted := true, reason := 5 } else {}
    let held := heldPlaces x x.tx.lines s
    (s.core x.core).begun = false → (x.tx.aborted = false → noneBracketed s team x ∧ (s.part x.part).promo = none) →
    (∀ va f, x.tx.aborted = false → x.tx.failed = false → held.1 = .error (va, f) → ∃ u, exec (.xcommitComplete team) s = .next u ∧
      u.threads = s.threads ∧ u.dev = s.dev ∧ u.team? team = some { x with tx := { x.tx with fault := some (va, f.kind, f.level) } }) ∧
    ((x.tx.aborted = true ∨ x.tx.failed = true ∨ ∃ ps, held.1 = .ok ps) → ∃ u v, exec (.xcommitComplete team) s = .next u ∧ u.thread? tid = some v ∧
      v.flight = (t.flight.filter fun e => e.wait != .commit key) ∧
      (∀ k, tget v.regs k 0 = if k = r then bracketWord tx else tget t.regs k 0) ∧
      v.flags = (match e.flag with | some k => tput t.flags k (tget t.flags k 0 - 1) | none => t.flags) ∧
      v.pc = t.pc ∧ v.retired = t.retired ∧ (∀ k, k ≠ tid → u.thread? k = s.thread? k) ∧
      u.team? team = some { x with tx := tx } ∧ (∀ k, k ≠ team → u.team? k = s.team? k) ∧
      (∀ k y, (u.core x.core).cmds.find? (fun e => e.1 == k) = some (k, y) → y.team = team → y.afterCommit = false) ∧
      ((x.tx.aborted = true ∨ x.tx.failed = true) → u.dev = s.dev ∧ u.dies = s.dies) ∧
      ∀ ps, x.tx.aborted = false → x.tx.failed = false → held.1 = .ok ps → (ps.map fun p => p.2.1).Nodup → rising x.tx.held = true →
        rising x.tx.lines = true → Memory.wf s.dev.home = true →
        ∀ p ∈ ps, ∀ h ∈ x.tx.held, h.1 / 128 = p.1 → mget u.dev.home (128 * p.2.1 + h.1 % 128) = h.2)

/-- RINGS. RINGACQ at a control block without a bound ring of the team brings status 4; of a ring that stopped status 3, of one
without chunks left 2, of one whose next chunk must wait 1; else it grants the next chunk with its slot's address, its buoy and
its parity. RINGREL counts a release of a chunk that its slot holds, and frees the chunk with the last one. RING_CHUNK_START
begins the chunk that is due. -/
def Sys2Proof.Machine.RingInstructions : Prop :=
  (∀ (i : Instr) (s : State) (tid : Nat) (c : Ctx) (x : Team), Issues s tid i c → s.team? c.t.team = some x →
    x.core = c.t.core → Memory.wf (s.core x.core).pool = true →
    let a := c.va.toNat
    let off := regionOfTeam s x + a
    let four (v0 v1 v2 v3 : Nat) : List (Nat × Word) := [(c.f.vd, BitVec.ofNat 32 v0), (c.f.vd + 1, BitVec.ofNat 32 v1),
      (c.f.vd + 2, BitVec.ofNat 32 v2), (c.f.vd + 3, BitVec.ofNat 32 v3)]
    let refuses (st : Nat) : Prop := exec i s = .next (wrote s c (four 0xFFFFFFFF 0 0 (256 * st)))
    (∀ f, i = .ringacq f → spadFits x a 16 →
      (tfind x.rings a = none → refuses 4) ∧
      ∀ r, tfind x.rings a = some r →
        let k := r.next
        let slotOf (n : Nat) : Nat := (r.chunk[n % r.n]?).getD 0
        let waits := r.n ≤ k ∧ ((r.dir = 0 ∧ slotOf k ≠ k) ∨ (r.dir = 1 ∧ r.done + r.n ≤ k))
        (r.state = 2 ∨ r.state = 3 → refuses 3) ∧ (r.state ∉ [1, 2, 3] → refuses 4) ∧
        (r.state = 1 → r.chunks ≤ k → refuses 2) ∧ (r.state = 1 → k < r.chunks → waits → refuses 1) ∧
        (r.state = 1 → k < r.chunks → ¬waits → r.chunks < 2 ^ 32 → r.n ≤ 16 → ∀ y q, s.cmd? x.core r.cmd = some y → y.snaps[1]? = some q →
          (trecOf q).base / 2 ^ 62 = 1 → ∃ u, exec i s = .next u ∧
          u.thread? tid = some (c.after c.raised [c.result (four k ((trecOf q).base % 2 ^ 20 + k % r.n * r.stride)
            (a + 32 + 32 * (k % r.n)) ((k / r.n + r.dir) % 2))]) ∧
          u.team? c.t.team = some { x with rings := tput x.rings a { r with next := k + 1 } } ∧ Beside s u tid c.t.team x.core ∧
          poolNat u x.core (off + 12) 4 = k + 1 ∧ ringKept s u x.core off r.n)) ∧
    (∀ f, i = .ringrel f →
      let n := c.vb.toNat
      (tfind x.rings a = none → exec i s = .next (wrote s c (c.to32 1))) ∧
      ∀ r, tfind x.rings a = some r → r.rel.length = r.n → r.chunk.length = r.n → 0 < r.n → r.n ≤ 16 →
        let k := n % r.n
        let rel := (r.rel[k]?).getD 0 + 1
        let takes := r.state = 1 ∧ r.chunk[k]? = some n ∧ (r.dir = 1 ∨ n < r.done)
        (¬takes → exec i s = .next (wrote s c (c.to32 1))) ∧
        (takes → ∃ u r', exec i s = .next u ∧ u.thread? tid = some (c.after c.raised [c.result (c.to32 0)]) ∧
          u.team? c.t.team = some { x with rings := tput x.rings a r' } ∧ Beside s u tid c.t.team x.core ∧ ringKept s u x.core off r.n ∧
          r' = (if rel < r.relt then { r with rel := r.rel.set k rel }
            else if r.dir = 0 then { r with rel := r.rel.set k 0, chunk := r.chunk.set k (n + r.n) }
            else { r with rel := r.rel.set k 0, freed := nadd r.freed n })))) ∧
  ∀ (s : State) (core k : Nat) (y : Command) (x : Team) (r : Ring) (f : FA128), s.cmd? core k = some y → y.instr = .cpyst f →
    y.state = .active → s.team? y.team = some x → (y.regs[2]?).map (fun w => tfind x.rings w.toNat) = some (some r) →
    (∃ t ∈ s.threads, t.2.team = y.team) → r.state = 1 → r.cur = none → r.done < r.chunks →
    (r.dir = 0 → r.chunk[r.done % r.n]? = some r.done) → (r.dir ≠ 0 → r.done ∈ r.freed) →
    ∃ u, exec (.ringChunkStart core k) s = .next u ∧ u.threads = s.threads ∧ u.dev = s.dev ∧ u.grids = s.grids ∧
      u.team? y.team = some { x with rings := tput x.rings y.rcb { r with cur := some r.done } } ∧
      u.cmd? core k = some { y with begun := false, epoch := none, counted := 0 } ∧ ∀ j, (u.core j).pool = (s.core j).pool

/-- TRANSACTIONS AND RINGS. -/
def Obligations.TransactionsAndRings : Prop :=
  Transactions ∧ RingInstructions

namespace Sys2Proof.Machine

/-- The pool bytes of a slot, and its threads, commands and waits being gone. -/
def regionEmpty (u : State) (core lo n : Nat) : Prop := ∀ b, lo ≤ b → b < lo + n → mget (u.core core).pool b = 0

end Sys2Proof.Machine

/-- FETCH, COMPLETION AND EXIT. A fetch block whose translation is held and allowed arrives in the instruction cache; a failed
fetch is FETCH-FAULT at the thread. A completing instruction's results become visible and its flag falls, in its turn. A thread
that has issued EXIT and has no flag left stops being live, and with the last one its team is ENDED. -/
def Obligations.CoreEvents : Prop :=
  (∀ (s : State) (tid p : Nat) (t : Thread), s.thread? tid = some t → t.fetches s = true → partOfCore s t.core = some p →
    (s.part p).promo = none → heldBlock s t.core (t.pc.toNat / 32) = none → Memory.wf s.dev.home = true →
    let fault (d : Nat) : State := enterTrap tid t.pc (t.pc + 4) { cause := 4, detail := d, addr := t.pc.setWidth 64 } s
    exec (.fetchBlockArrival tid true) s = .next (fault 3) ∧
    (tfind (s.core t.core).fetchTlb (t.pc.toNat / 65536) = none → (s.part p).ptroot.getLsbD 0 = false →
      exec (.fetchBlockArrival tid false) s = .next (fault 1)) ∧
    ∀ (e : TlbEntry) (pa : Nat) (a : Acc) (m : HomeMeta), tfind (s.core t.core).fetchTlb (t.pc.toNat / 65536) = some e →
      regionOf s p e.leaf.toNat (leafPa e (32 * (t.pc.toNat / 32))) = .ok (.dev pa a) →
      (e.leaf.getLsbD 4 = false → exec (.fetchBlockArrival tid false) s = .next (fault 2)) ∧
      (e.leaf.getLsbD 4 = true → keyOpen s p a.key = false → exec (.fetchBlockArrival tid false) s = .next (fault 4)) ∧
      (e.leaf.getLsbD 4 = true → keyOpen s p a.key = true → homeDie pa = dieOf t.core → tfind s.dev.homeMeta (pa / 128) = some m → pa % 32 = 0 →
        (m.poison = true → exec (.fetchBlockArrival tid false) s = .next (fault 3)) ∧
        (m.poison = false → ∃ u ws, exec (.fetchBlockArrival tid false) s = .next u ∧ heldBlock u t.core (t.pc.toNat / 32) = some ws ∧
          (∀ k < 8, (wordAt ws k).toNat = ((List.range 4).map fun b => (mget s.dev.home (pa + 4 * k + b)).toNat * 256 ^ b).sum) ∧
          u.threads = s.threads ∧ u.teams = s.teams ∧ u.dev = s.dev ∧ u.parts = s.parts))) ∧
  (∀ (s : State) (tid k : Nat) (t : Thread) (e : InFlight), s.thread? tid = some t → t.flight[k]? = some e → e.cls = .v →
    let lands : Prop := ∃ u v, exec (.instructionCompletion tid k) s = .next u ∧ u.thread? tid = some v ∧ Landed t v e ∧
      v.flight = t.flight.eraseIdx k ∧ (∀ n, n ≠ tid → u.thread? n = s.thread? n) ∧ u.teams = s.teams ∧ u.dev = s.dev
    let first : Prop := (s.core t.core).begun = false ∧ (e.sreg = none ∨ ∀ o ∈ t.flight.take k, o.sreg = none)
    (¬first → exec (.instructionCompletion tid k) s = .next s) ∧
    (first → e.wait = .free → lands) ∧
    (∀ c r, e.wait = .accept c r → (s.clkOf t.core < r → exec (.instructionCompletion tid k) s = .next s) ∧ (first → r ≤ s.clkOf t.core → lands)) ∧
    (∀ c, e.wait = .step c ∨ e.wait = .commit c → exec (.instructionCompletion tid k) s = .next s) ∧
    (∀ o rest, first → e.wait = .tile o.key → (s.core t.core).tileOps = o :: rest → (∀ y ∈ rest, y.key ≠ o.key) →
      (∀ p ∈ o.prior, accPending s p = false) → o.load = none → o.poi = false → lands ∧
      ∀ u, exec (.instructionCompletion tid k) s = .next u → (u.core t.core).tileOps = rest ∧
        ∀ tile b, dataAt u t.core tile b = dataAt s t.core tile b ∧ sideAt u t.core tile b = sideAt s t.core tile b)) ∧
  ∀ (s : State) (tid : Nat) (t : Thread) (x : Team) (g : Grid), s.thread? tid = some t → s.team? t.team = some x → s.grid? x.grid = some g →
    t.conv = .exiting → (∀ k < 12, tget t.flags k 0 = 0) → t.task = none → (s.core t.core).begun = false → rising s.threads = true → x.state = .live → x.latches = [] →
    ((∃ e ∈ s.threads, e.2.team = t.team ∧ e.1 ≠ tid) →
      (∀ e ∈ livesIn s t.team, e.1 ≠ tid → ∃ o ∈ livesIn s t.team, o.1 ≠ tid ∧ o.2.wave = e.2.wave ∧ o.2.conv = .run) →
      (∃ e ∈ livesIn s t.team, e.1 ≠ tid) →
      exec (.exitCompletion tid) s = .next { s with threads := tdel s.threads tid }) ∧
    ((∀ e ∈ s.threads, e.2.team = t.team → e.1 = tid) → (∀ e ∈ s.threads, e.2.conv ≠ .heldBarc) → ∃ u, exec (.exitCompletion tid) s = .next u ∧
      u.thread? tid = none ∧ (∀ k, k ≠ tid → u.thread? k = s.thread? k) ∧ u.team? t.team = some { x with state := .ended, latches := [] } ∧
      (∃ h, u.grid? x.grid = some h ∧ h.ok = g.ok + 1 ∧ x.idx ∈ h.done ∧ h.killed = g.killed) ∧
      (u.core x.core).pool = (s.core x.core).pool ∧ (u.core x.core).cmds = (s.core x.core).cmds ∧
      (∀ i < handlesPer (s.core x.core), rising (s.core x.core).handles = true → (entryOf u x i).valid = false ∧ (entryOf u x i).gen = (entryOf s x i).gen))

/-- TURNS. A TURN whose team has another thread running waits in HELD-BAR. When the last thread of a team arrives and its guard is
true, the record is checked: a code goes to VD and the team goes on, or the team is TURNING and no register is written.
TURN_SUCCESSION of a team whose steps and waiting commands are gone replaces its threads, which keep the inherited registers and
the counters, scrubs what is not inherited, and makes it LIVE. -/
def Obligations.TideTurns : Prop :=
  (∀ (f : FA128) (s : State) (tid : Nat) (c : Ctx) (g : Bool) (x : Team), s.issue = [tid] → Comes s tid (.turn f) c g → c.t.conv = .run →
    c.t.released = false → s.team? c.t.team = some x → x.tx.depth = 0 → rising s.threads = true →
    let held : State := { s with threads := tput s.threads tid { c.t with conv := .heldBar, held := some (.turn f) }, issue := [] }
    ((∀ e ∈ livesIn s c.t.team, ∃ o ∈ livesIn s c.t.team, o.1 ≠ tid ∧ o.2.wave = e.2.wave ∧ o.2.conv = .run) →
      exec (.turn f) s = .next held) ∧
    (livesIn s c.t.team = [(tid, c.t)] → x.killReq = false →
      let a := c.va.toNat
      let spad := c.m 2
      let bank (k : Nat) : Word × Bool := bankWord s c.t.core (c.f.mod % 4) (a + 4 * k)
      let off := regionOfTeam s x + a
      let bits := if spad then poolNat s x.core off 96
        else if a % 16 = 0 ∧ a + 96 ≤ 65536 then ((List.range 24).map fun k => (bank k).1.toNat * 2 ^ (32 * k)).sum else 0
      let bad := if spad then poolBad s x.core off 96 else decide (a % 16 ≠ 0) || decide (65536 < a + 96) || (List.range 24).any fun k => (bank k).2
      let code := (turnCode held x c.t.team (turnRecOf bits) bad).1
      x.core = c.t.core → (spad = true → spadFits x a 96 ∧ Memory.wf (s.core x.core).pool = true) →
      (g = false → ∃ u, exec (.turn f) s = .next u ∧ u.thread? tid = some (c.freed none []) ∧ u.team? c.t.team = some x) ∧
      (g = true → code ≠ 0 → ∃ u, exec (.turn f) s = .next u ∧ u.team? c.t.team = some x ∧
        u.thread? tid = some (c.freed c.flag [c.result (c.to32 (BitVec.ofNat 32 code))]) ∧ ∀ k, k ≠ tid → u.thread? k = s.thread? k) ∧
      (g = true → code = 0 → ∃ u, exec (.turn f) s = .next u ∧ u.thread? tid = some (c.freed none []) ∧
        (∀ k, k ≠ tid → u.thread? k = s.thread? k) ∧
        u.team? c.t.team = some { x with
          state := .turning, turn := some bits,
          turnWait := ((s.core x.core).cmds.filter fun e => e.2.team == c.t.team && !crosses x (turnRecOf bits) e.2).map (·.1) }))) ∧
  ∀ (s : State) (team bits : Nat) (x : Team), s.team? team = some x → x.state = .turning → x.killReq = false → x.turn = some bits →
    (∀ e ∈ (s.core x.core).steps, e.team ≠ team) → (∀ k ∈ x.turnWait, s.cmd? x.core k = none) → (s.core x.core).tileOps = [] →
    (∀ a ∈ (s.core x.core).accs, a.2.team ≠ team) → GoodTiles s x.core →
    rising s.threads = true → rising (s.core x.core).handles = true → x.routes = [] → (∀ e ∈ s.threads, e.1 < s.fresh) →
    let r := turnRecOf bits
    let cfg := (s.core x.core).cfg
    ∃ u, exec (.turnSuccession team) s = .next u ∧
      u.team? team = some { x with
        threads := r.threads, waves := (r.threads + 31) / 32, regs := r.regs, spadP := r.spadP, tiles := r.tiles,
        gcg := r.gcg, handler := if r.handler = 0 then x.handler else BitVec.ofNat 56 r.handler, state := .live, turn := none,
        turnWait := [], latches := [] } ∧
      (∀ e ∈ u.threads, e.2.team = team → e.2.num < r.threads ∧ e.2.pc = BitVec.ofNat 56 r.entry ∧ e.2.nregs = r.regs ∧ e.2.conv = .run ∧
        e.2.flight = [] ∧ e.2.flags = [] ∧ e.2.trapCause = 0 ∧ e.2.gang = 0 ∧
        ∀ o ∈ s.threads, o.2.team = team → o.2.num = e.2.num → o.2.flight = [] → (∀ q ∈ s.threads, q.2.team = team → q.2.num = e.2.num → q.1 = o.1) →
          e.1 = o.1 ∧ e.2.retired = o.2.retired ∧ e.2.terms = o.2.terms ∧ e.2.termCyc = o.2.termCyc ∧ e.2.termSkew = o.2.termSkew ∧
          (rising o.2.regs = true → ∀ k, tget e.2.regs k 0 = if r.regMask.testBit (k / 4) then tget o.2.regs k 0 else 0)) ∧
      (∀ n < r.threads, ∃ e ∈ u.threads, e.2.team = team ∧ e.2.num = n) ∧
      (∀ k, (∀ t, s.thread? k = some t → t.team ≠ team) → k < s.fresh → u.thread? k = s.thread? k) ∧
      (∀ i < handlesPer (s.core x.core), (entryOf u x i).valid = false ∧ (entryOf u x i).gen = (entryOf s x i).gen) ∧
      (∀ p < cfg.spadP, ∀ b < 4096, mget (u.core x.core).pool (regionOfTeam s x + 4096 * p + b) =
        if r.spadMask.testBit p then mget (s.core x.core).pool (regionOfTeam s x + 4096 * p + b) else 0) ∧
      (∀ t < cfg.tiles, ∀ b < 8192, dataAt u x.core (x.slot * cfg.tiles + t) b =
        if r.tileMask.testBit t then dataAt s x.core (x.slot * cfg.tiles + t) b else 0) ∧
      ∀ t < cfg.tiles, tagAt u x.core (x.slot * cfg.tiles + t) = if r.tileMask.testBit t then tagAt s x.core (x.slot * cfg.tiles + t) else 0

/-- KILLS AND RELEASES. TEAM_KILL of a team whose kill is asked for stops its threads, leaves it no command, bracket or valid
handle, and counts it as killed unless it was counted before, where no thread waits at a BARC. RETENTION_END of a cohort whose teams have ended and whose commands are gone releases its
teams: their slots' regions read zero and their handles are invalid. -/
def Obligations.KillsAndReleases : Prop :=
  (∀ (s : State) (team : Nat) (x : Team) (g : Grid), s.team? team = some x → x.killReq = true → s.grid? x.grid = some g →
    (x.state = .live ∨ x.state = .turning ∨ x.state = .saving ∨ x.state = .starting ∨ x.state = .ended) → rising s.threads = true →
    rising (s.core x.core).cmds = true → rising (s.core x.core).handles = true → (∀ e ∈ s.threads, e.2.conv ≠ .heldBarc) →
    ∃ u y h, exec (.teamKill team) s = .next u ∧ u.team? team = some y ∧ y.state = .killed ∧ y.killReq = false ∧ y.tx = {} ∧ y.latches = [] ∧
      y.core = x.core ∧ y.slot = x.slot ∧ (∀ e ∈ u.threads, e.2.team ≠ team) ∧
      (∀ k t, s.thread? k = some t → t.team ≠ team → u.thread? k = some t) ∧ (∀ e ∈ (u.core x.core).cmds, e.2.team ≠ team) ∧
      (∀ i < handlesPer (s.core x.core), (entryOf u x i).valid = false) ∧
      u.grid? x.grid = some h ∧ h.killed = g.killed + (if nmem g.done x.idx then 0 else 1) ∧ h.ok = g.ok ∧ x.idx ∈ h.done ∧
      u.dev = s.dev) ∧
  ∀ (s : State) (team : Nat) (x : Team), s.team? team = some x → rising s.teams = true →
    let mates := s.teams.filter fun e => e.2.grid == x.grid && e.2.idx / e.2.cohort == x.idx / x.cohort
    (∀ e ∈ mates, (e.2.state = .ended ∨ e.2.state = .killed) ∧ (∀ y ∈ (s.core e.2.core).cmds, y.2.team ≠ e.1) ∧
      (∀ y ∈ (s.core e.2.core).steps, y.team ≠ e.1) ∧ (∀ a ∈ (s.core e.2.core).accs, a.2.team ≠ e.1) ∧ (s.core e.2.core).tileOps = [] ∧
      e.2.routes = [] ∧ rising (s.core e.2.core).handles = true) →
    ∃ u, exec (.retentionEnd team) s = .next u ∧ u.threads = s.threads ∧ u.dev = s.dev ∧
      (∀ k, u.team? k = if (k, (s.team? k).getD x) ∈ mates then none else s.team? k) ∧
      ∀ e ∈ mates, let cfg := (s.core e.2.core).cfg
        regionEmpty u e.2.core (regionOfTeam s e.2) (4096 * cfg.spadP) ∧
        ∀ i < handlesPer (s.core e.2.core), (entryOf u e.2 i).valid = false

/-- SAVES. TEAM_SAVE of a team for which a save is asked, with a free image, stops its threads at instruction boundaries, aborts
its bracket, and is SAVING into the lowest free image. TEAM_SAVE_COMPLETE of such a team with nothing left in flight whose image
can be written leaves it SAVED, its slot empty and its storage kept; TEAM_RESUME places it again as it was. -/
def Obligations.SavesAndResumes : Prop :=
  (∀ (s : State) (team j : Nat) (x : Team) (g : Grid), s.team? team = some x → s.grid? x.grid = some g → x.saveReq = true → x.killReq = false →
    (x.state = .live ∨ x.state = .turning ∨ x.state = .ended ∨ x.state = .killed) → rising s.teams = true → rising s.threads = true →
    (∀ e ∈ s.teams, e.2.grid = x.grid → e.2.idx / e.2.cohort = x.idx / x.cohort → e.1 = team) → x.tx.commit = none → noneBracketed s team x →
    g.saveBase ≠ 0 → j < g.saveSlots → (∀ e ∈ s.teams, e.2.grid = x.grid → e.2.image ≠ some j) →
    (∀ n < j, ∃ e ∈ s.teams, e.2.grid = x.grid ∧ e.2.image = some n) →
    let tx := if 0 < x.tx.depth ∧ x.tx.aborted = false then { x.tx with aborted := true, reason := 3, code := 0, held := [], lines := [] } else x.tx
    ∃ u, exec (.teamSave team) s = .next u ∧
      u.team? team = some { x with
        state := .saving, saveReq := false, image := some j, latches := [], tx := tx,
        savedAs := if x.state = .live then .live else if x.state = .turning then .turning else .ended } ∧
      (∀ k t, s.thread? k = some t → t.team ≠ team → u.thread? k = some t) ∧
      (∀ k t, s.thread? k = some t → t.team = team → u.thread? k = some { t with
        conv := if t.conv = .exiting then .exiting else .run, held := none, notBefore := 0, halted := .none, haltNext := false,
        stepping := false, pastBreak := false, released := false }) ∧ u.dev = s.dev ∧ u.grids = s.grids) ∧
  (∀ (s : State) (team j : Nat) (x : Team) (g : Grid), s.team? team = some x → s.grid? x.grid = some g → x.state = .saving →
    x.savedAs = .live → x.killReq = false → x.image = some j → x.turn = none → (s.core x.core).steps = [] → (s.core x.core).tileOps = [] →
    (s.core x.core).tileErr = [] → (∀ e ∈ s.teams, e.2.grid = x.grid → e.2.idx / e.2.cohort = x.idx / x.cohort → padBusy s e.1 e.2 = false) →
    (∀ e ∈ (s.core x.core).cmds, e.2.team ≠ team) → (∀ e ∈ s.threads, e.2.team = team → e.2.flight = [] ∧ e.2.conv ≠ .exiting) →
    (∃ e ∈ s.threads, e.2.team = team) → rising s.threads = true → Memory.wf (s.core x.core).pool = true →
    let bs := imageOf s team x
    let ep := releaseEpoch (dieOf x.core) x.part 4 s
    (saveBytes x.core x.part ep.1 (pageRuns (bs.length + 1) (g.saveBase + j * imageSize g) bs.length) bs ep.2).1 = none →
    ∃ u v, exec (.teamSaveComplete team) s = .next u ∧ u.team? team = some { x with
        state := .saved, saved := some v, rings := x.rings.filter fun e => e.2.state == 1 } ∧
      (∀ e ∈ u.threads, e.2.team ≠ team) ∧ (∀ k t, s.thread? k = some t → t.team ≠ team → u.thread? k = some t) ∧
      regionEmpty u x.core (regionOfTeam s x) (4096 * (s.core x.core).cfg.spadP) ∧
      (∀ b < 4096 * x.spadP, mget v.region b = mget (s.core x.core).pool (regionOfTeam s x + b)) ∧
      (∀ k t, s.thread? k = some t → t.team = team → ∃ w, tfind v.threads k = some w ∧ w.pc = t.pc ∧ w.regs = t.regs ∧ w.num = t.num ∧
        w.retired = t.retired ∧ w.trapCause = t.trapCause)) ∧
  ∀ (s : State) (team core slot i : Nat) (x : Team) (g : Grid) (v : Saved), s.team? team = some x → x.saved = some v → x.state = .saved →
    rising s.teams = true → (∀ e ∈ s.teams, e.2.grid = x.grid → e.2.state = .saved → e.2.idx / g.cohort = i / g.cohort → e.1 = team) →
    x.idx / g.cohort = i / g.cohort → nextAct s x.part = some (x.grid, g, .resume i [(core, slot)]) →
    (headersOk [((team, x), core)] (wakeCluster (clusterOf core) s)).1 = true → x.turn = none → v.cmds = [] →
    (∀ e ∈ (s.part x.part).lands, e.2.1 ≠ team) → rising v.threads = true → rising s.threads = true →
    (∀ e ∈ v.threads, s.thread? e.1 = none) → v.threads.map (·.2.seq) = List.range v.threads.length → Memory.wf v.region = true →
    Memory.wf (s.core core).pool = true →
    ∃ u, exec (.teamResume team) s = .next u ∧
      u.team? team = some { x with core := core, slot := slot, state := x.savedAs, image := none, saved := none, turnWait := [] } ∧
      (∀ k t, tfind v.threads k = some t → ∃ w, u.thread? k = some w ∧ w.pc = t.pc ∧ w.regs = t.regs ∧ w.flags = t.flags ∧ w.retired = t.retired ∧
        w.trapCause = t.trapCause ∧ w.conv = t.conv ∧ w.core = core ∧ w.lastIssue = none) ∧
      (∀ k, tfind v.threads k = none → u.thread? k = s.thread? k) ∧
      ∀ b < 4096 * x.spadP, mget (u.core core).pool (regionOfTeam s { x with core := core, slot := slot } + b) = mget v.region b

/-- THE DISPATCHER. TEAM_PLACEMENT starts the next team of a grid in the slot that placement gives, with its threads at the entry,
or begins the configuration of a core. RECONFIGURATION_DONE ends it with the grid's word and its banks. PROGRESS_TIMER_EXPIRY
asks for a save of the highest resident team of the grid where its lowest finds no slot. QUIESCENCE_SAMPLE notes the counts of an
idle grid, and completes the grid at a second sample that agrees. -/
def Obligations.Dispatcher : Prop :=
  (∀ (s : State) (k core slot i : Nat) (g : Grid), s.grid? k = some g → tideDue s g.part = false → g.cohort = 1 →
    nextAct s g.part = some (k, g, .start i [(core, slot)]) → s.team? s.fresh = none → (∀ e ∈ s.threads, e.1 < s.fresh) →
    (∀ e ∈ s.threads, e.2.team ≠ s.fresh) →
    let n := s.fresh
    ∃ u x, exec (.teamPlacement k) s = .next u ∧ u.team? n = some x ∧ (∀ j, j ≠ n → u.team? j = s.team? j) ∧
      x.grid = k ∧ x.part = g.part ∧ x.core = core ∧ x.slot = slot ∧ x.idx = i ∧ x.state = .live ∧ x.threads = g.threads ∧ x.regs = g.regs ∧
      x.spadP = g.spadP ∧ x.tiles = g.tiles ∧ x.handler = g.handler ∧ x.gridId = g.gridId ∧ x.ticket = 0 ∧ x.tx = {} ∧ x.fails = [] ∧ x.tfmt = [] ∧
      (u.threads.filter fun e => e.2.team == n).length = g.threads ∧
      (∀ e ∈ u.threads, e.2.team = n → ∃ m < g.threads, e.1 = n + 1 + m ∧ e.2.num = m ∧ e.2.pc = g.entry ∧ e.2.nregs = g.regs ∧ e.2.regs = [] ∧
        e.2.flags = [] ∧ e.2.flight = [] ∧ e.2.conv = .run ∧ e.2.trapCause = 0 ∧ e.2.retired = 0 ∧ e.2.lane = BitVec.ofNat 32 (m % 32) ∧
        e.2.wave = BitVec.ofNat 32 (m / 32) ∧ e.2.teamIdx = BitVec.ofNat 32 i ∧ e.2.gridId = g.gridId ∧ e.2.depth = BitVec.ofNat 32 g.depth) ∧
      (∀ j < n, u.thread? j = s.thread? j) ∧ u.grid? k = some { g with placed := i + 1 }) ∧
  (∀ (s : State) (k core : Nat) (g : Grid), s.grid? k = some g → tideDue s g.part = false → nextAct s g.part = some (k, g, .configure core) →
    ∃ u, exec (.teamPlacement k) s = .next u ∧ (u.core core).grid = some k ∧ (u.core core).loading = true ∧ (u.core core).pool = [] ∧
      (u.core core).handles = [] ∧ (u.core core).tasks = [] ∧ (u.core core).tags = [] ∧ (u.core core).gcache = [] ∧ u.threads = s.threads ∧
      u.teams = s.teams ∧ u.grids = s.grids ∧ u.dev = s.dev) ∧
  (∀ (s : State) (k core : Nat) (g : Grid), (s.core core).loading = true → (s.core core).grid = some k → s.grid? k = some g →
    (∀ b < 4, (g.banks.getD b (0, 0)).2 = 0) →
    ∃ u, exec (.reconfigurationDone core) s = .next u ∧ (u.core core).cfg = g.config ∧ (u.core core).loading = false ∧
      (u.core core).grid = some k ∧ (∀ a < 262144, mget (u.core core).banks a = 0) ∧ u.threads = s.threads ∧ u.teams = s.teams ∧ u.dev = s.dev ∧
      (∀ j, j ≠ core → u.core j = s.core j)) ∧
  (∀ (s : State) (k team : Nat) (g : Grid) (x : Team), s.grid? k = some g → rising s.teams = true → rising s.grids = true →
    (progressDue s k g = false → exec (.progressTimerExpiry k) s = .next s) ∧
    let s' : State := { s with grids := tput s.grids k { g with progress := 0 } }
    (progressDue s k g = true → findSlots s' k g = none → findEmpty s' k g = none → givesWay s' k g x = true →
      (∀ e ∈ s.teams, e.2.grid = k → e.2.saveReq = false ∧ e.2.state ≠ .saving) → s.team? team = some x → x.grid = k →
      (x.state = .live ∨ x.state = .turning) → x.killReq = false → x.cohort = 1 →
      (∀ e ∈ s.teams, e.2.grid = k → e.1 ≠ team → e.2.idx < x.idx ∧ e.2.cohort = 1) → g.saveBase ≠ 0 →
      (∃ j < g.saveSlots, ∀ e ∈ s.teams, e.2.grid = k → e.2.image ≠ some j) →
      exec (.progressTimerExpiry k) s = .next { s' with teams := tput s.teams team { x with saveReq := true } })) ∧
  ∀ (s : State) (k : Nat) (g : Grid), s.grid? k = some g → rising s.grids = true →
    let sent := (g.sent.map (·.2)).sum
    let recv := (g.recv.map (·.2)).sum
    let idle : Prop := g.placed = g.teams ∧ (∀ e ∈ s.teams, e.2.grid = k → (e.2.state = .ended ∨ e.2.state = .killed) ∧
      (∀ y ∈ (s.core e.2.core).cmds, y.2.team ≠ e.1) ∧ (∀ y ∈ (s.core e.2.core).steps, y.team ≠ e.1) ∧ padBusy s e.1 e.2 = false) ∧
      ∀ e ∈ s.grids, ∀ t, e.2.launcher ≠ some (t, k)
    let noted (v : Option (Nat × Nat × Nat)) : State := { s with grids := tput s.grids k { g with sample := v } }
    (¬idle → g.sample.isSome = true → exec (.quiescenceSample k) s = .next (noted none)) ∧
    (¬idle → g.sample = none → exec (.quiescenceSample k) s = .next s) ∧
    (idle → g.sample = none → exec (.quiescenceSample k) s = .next (noted (some (s.pkg.us, sent, recv)))) ∧
    (idle → ∀ at' a b, g.sample = some (at', a, b) →
      (s.pkg.us ≤ at' + 1 → exec (.quiescenceSample k) s = .next s) ∧
      (at' + 1 < s.pkg.us → ¬(sent = recv ∧ a = sent ∧ b = recv) → exec (.quiescenceSample k) s = .next (noted (some (s.pkg.us, sent, recv)))) ∧
      (at' + 1 < s.pkg.us → sent = recv → a = sent → b = recv → rising s.teams = true → (∀ e ∈ s.teams, e.2.grid = k → e.2.routes = [] ∧ (s.core e.2.core).tileOps = []) →
        ∃ u, exec (.quiescenceSample k) s = .next u ∧ u.grid? k = none ∧ (∀ j, j ≠ k → u.grid? j = s.grid? j) ∧
          (∀ e ∈ u.teams, e.2.grid ≠ k) ∧ (∀ j x, s.team? j = some x → x.grid ≠ k → u.team? j = some x) ∧ u.threads = s.threads ∧
          (g.host = none → u.conns = s.conns) ∧
          ∀ i, g.host = some i → (u.queue g.queue).cqsent = (s.queue g.queue).cqsent + 1 ∧
            ∃ m, (u.conn ((s.queue g.queue).cqconn.toNat % 2 ^ 16)).queue = (s.conn ((s.queue g.queue).cqconn.toNat % 2 ^ 16)).queue ++ [m] ∧
              m.op = 0 ∧ m.len = 64 ∧ m.data.take 4 = bytesOf 4 1 ∧ (m.data.drop 8).take 4 = bytesOf 4 g.gridId.toNat ∧
              (m.data.drop 16).take 8 = bytesOf 4 g.ok ++ bytesOf 4 g.killed ∧ (m.data.drop 32).take 8 = bytesOf 8 g.tag.toNat))

namespace Sys2Proof.Machine

/-- A row record of a command: `n` positions of one dimension in an unscaled format of 32-bit elements, in the team's own
region, unswizzled and unpadded, from element `o` on, within the extent, the region and one 128-byte line (11 R234, R235). -/
structure RowOf (x : Team) (r : TRec) (o n : Nat) : Prop where
  dims : r.dims = 1
  width : r.width = 32
  plain : r.sc = false ∧ r.scbase = 0 ∧ r.swz = 0 ∧ baseMode r.base = 1 ∧ baseTile r.base = false
  box : at0 r.box 0 = n ∧ at0 r.padlo 0 = 0 ∧ at0 r.padhi 0 = 0
  inside : 0 < n ∧ o + n ≤ at0 r.ext 0 ∧ baseOff r.base + 4 * (o + n) ≤ 4096 * x.spadP
  line : (baseOff r.base + 4 * o) / 128 = (baseOff r.base + 4 * (o + n) - 1) / 128

/-- A command that the engine performs from its first position: active, unordered, unfenced, unbracketed, without a buoy, in its turn
in deterministic mode, and with the accesses that it follows performed. -/
structure EngineRuns (s : State) (core k : Nat) (y : Command) (x : Team) : Prop where
  here : s.cmd? core k = some y ∧ s.team? y.team = some x ∧ x.core = core
  team : x.state = .live
  active : y.state = .active ∧ y.waiting = false ∧ y.c = 0 ∧ y.counted = 0 ∧ y.got = []
  free : y.fences = [] ∧ y.bracketed = false ∧ y.afterCommit = false ∧ y.buoy = none ∧ acqX y.flds = false ∧ relX y.flds = false
  turn : inTurn s core y = true ∧ y.source = none ∧ ∀ p ∈ y.prior, accPending s p = false
  sorted : rising (s.core core).cmds = true ∧ Memory.wf (s.core core).pool = true

/-- What the core's engine holds after one command is gone: the others as they were, the pool changed as given. -/
def Gone (s u : State) (core k : Nat) : Prop :=
  u.cmd? core k = none ∧ (∀ j, j ≠ k → u.cmd? core j = s.cmd? core j) ∧ u.threads = s.threads ∧ u.teams = s.teams ∧ u.dev = s.dev

end Sys2Proof.Machine

/-- THE MATRIX ENGINE. On an idle array the next member of the first step with members to run starts when it is ready and nothing
earlier stands before it, a rerun coming first; it stays for C_run clk; 8 clk later its checksum is compared: a mismatch asks
for the run again, and one of a rerun poisons its result and withdraws the core; 16 clk after its last run a step takes
effect, and its threads' counters and flags are updated. -/
def Obligations.MatrixEngine : Prop :=
  (∀ (s : State) (core k : Nat) (x : EngStep) (more : List EngStep) (rest : List Nat) (m : StepMember),
    let c := s.core core
    let clk := s.clkOf core
    c.onArray = none → c.steps = x :: more → x.members[k]? = some m →
    (∀ others, c.reruns = (x.key, k) :: others → exec (.stepStart core) s = .next (s.putCore core { c with
      reruns := others, onArray := some { step := x.key, member := k, start := clk, stop := clk + m.run, rerun := true } })) ∧
    (c.reruns = [] → x.todo = k :: rest → (∀ y ∈ more, y.key ≠ x.key) →
      (x.todo.length = x.members.length → clk < x.ready → exec (.stepStart core) s = .next s) ∧
      ((x.todo.length < x.members.length ∨ x.ready ≤ clk ∧ ∀ y ∈ x.members, startBlocked c y = false) →
        exec (.stepStart core) s = .next (s.putCore core { c with
          steps := { x with todo := rest } :: more
          onArray := some { step := x.key, member := k, start := clk, stop := clk + m.run, rerun := false } })))) ∧
  (∀ (s : State) (core : Nat) (r : EngRun) (x : EngStep) (more : List EngStep) (m : StepMember),
    let c := s.core core
    c.onArray = some r → c.steps = x :: more → x.key = r.step → x.members[r.member]? = some m →
    (s.clkOf core < r.stop → exec (.stepRunEnd core) s = .next s) ∧
    (r.stop ≤ s.clkOf core → ∃ u, exec (.stepRunEnd core) s = .next u ∧ (u.core core).onArray = none ∧
      (u.core core).ended = c.ended ++ [r] ∧ (u.core core).tileOps = c.tileOps ∧ u.threads = s.threads ∧ u.teams = s.teams ∧
      ∃ y rest, (u.core core).steps = y :: rest ∧ y.todo = x.todo ∧ y.members[r.member]? = some { m with runs := m.runs + 1 } ∧
        y.ended = if x.todo = [] then some r.stop else none)) ∧
  (∀ (s : State) (core : Nat) (b : Bool) (r : EngRun) (rest : List EngRun) (x : EngStep) (more : List EngStep) (m : StepMember),
    let c := s.core core
    c.ended = r :: rest → c.steps = x :: more → x.key = r.step → x.members[r.member]? = some m →
    (s.clkOf core < r.stop + 8 → exec (.checksumCompare core b) s = .next s) ∧
    (r.stop + 8 ≤ s.clkOf core →
      exec (.checksumCompare core false) s = .next (s.putCore core { c with ended := rest }) ∧
      ∃ u, exec (.checksumCompare core true) s = .next u ∧ (u.core core).ended = rest ∧ u.threads = s.threads ∧ u.teams = s.teams ∧
        (r.rerun = false → (r.step, r.member) ∈ (u.core core).reruns ∧ (∀ y ∈ c.reruns, y ∈ (u.core core).reruns) ∧
          (u.core core).tileOps = c.tileOps ∧ (u.core core).withdrawn = c.withdrawn) ∧
        (r.rerun = true → (u.core core).withdrawn = true ∧ (u.core core).reruns = c.reruns ∧
          ∀ (i : Nat) (o : TileOp), c.tileOps[i]? = some o → ∃ p : TileOp, (u.core core).tileOps[i]? = some p ∧ p.data = o.data ∧ (o.key = m.op → p.poi = true)))) ∧
  (∀ (s : State) (core e : Nat) (x : EngStep) (more : List EngStep) (m : StepMember) (o : TileOp) (ops : List TileOp),
    let c := s.core core
    c.steps = x :: more → x.members = [m] → x.todo = [] → x.ended = some e → e + 16 ≤ s.clkOf core → c.onArray = none →
    c.ended = [] → c.reruns = [] → c.tileOps = o :: ops → o.key = m.op → o.poi = false → o.load = none → c.begun = false → (∀ y ∈ ops, y.key ≠ o.key) →
    (∀ y ∈ more, y.key ≠ x.key) →
    ∃ u, exec (.stepCompletion core) s = .next u ∧ (u.core core).steps = more ∧ (u.core core).tileOps = ops ∧
      u.teams = s.teams ∧ u.dev = s.dev ∧ (∀ t b, dataAt u core t b = dataAt s core t b ∧ tagAt u core t = tagAt s core t) ∧
      (∀ k, k ∉ m.parts → u.thread? k = s.thread? k) ∧
      ∀ k t f, m.parts = [k] → s.thread? k = some t → t.flight = [f] → f.wait = .step x.key → f.sreg = none → f.regs = [] →
        u.thread? k = some { t with
          terms := t.terms + BitVec.ofNat 64 m.terms
          termCyc := t.termCyc + BitVec.ofNat 64 (m.runs * m.run)
          termSkew := t.termSkew + BitVec.ofNat 64 (m.runs * m.skew)
          flight := []
          flags := (match f.flag with | some n => tput t.flags n (tget t.flags n 0 - 1) | none => t.flags) }) ∧
  ∀ (s : State) (core k : Nat) (y : Command) (x : Team), s.teamsOn core = [(y.team, x)] → (s.core core).cmds = [(k, y)] →
    (x.state = .live ∨ x.state = .turning) → 0 < x.tx.depth → x.tx.aborted = false → y.bracketed = false → y.isRing = false → y.buoy = none →
    (∀ f, y.instr ≠ .drainRoute f) → s.team? y.team = some x → rising s.teams = true →
    ∃ u z, exec (.engineReset core) s = .next u ∧ u.team? y.team = some z ∧ z.tx.aborted = true ∧ z.tx.reason = 4 ∧ z.tx.held = [] ∧
      u.threads = s.threads ∧ u.dev = s.dev ∧
      (y.state = .queued → (u.core core).cmds = [(k, y)] ∧ z.fails = x.fails) ∧
      (y.state ≠ .queued → (u.core core).cmds = [] ∧
        z.fails.getLast? = some { ticket := y.ticket, st := 4, reason := 4, c := y.c })

/-- THE COPY ENGINE. A command is accepted when its time has come, and the flags that wait for its acceptance fall; the only
accepted command that is queued becomes active; an active CPYF or bit-copying CPY of one row of its team's region performs
its positions: exactly the row's bytes change, to the fill pattern or the source's bytes, and the command is gone. -/
def Obligations.CopyEngine : Prop :=
  (∀ (s : State) (core k : Nat) (y : Command) (x : Team), s.cmd? core k = some y → s.team? y.team = some x → y.accepted = false →
    (s.core core).tileOps = [] → (s.core core).accs = [] → y.ready ≤ s.clkOf core → (∀ f, y.instr ≠ .catom f) → rising s.threads = true →
    ∃ u, exec (.commandAcceptance core k) s = .next u ∧ u.cmd? core k = some { y with accepted := true } ∧
      (∀ j, j ≠ k → u.cmd? core j = s.cmd? core j) ∧ u.teams = s.teams ∧ u.dev = s.dev ∧
      ∀ n t, s.thread? n = some t →
        ((t.core ≠ core ∨ t.flight = []) → u.thread? n = some t) ∧
        ∀ f, t.core = core → t.flight = [f] → f.wait = .accept k y.ready → f.sreg = none → ∃ v, u.thread? n = some v ∧ Landed t v f ∧ v.flight = []) ∧
  (∀ (s : State) (core k : Nat) (y : Command), (s.core core).cmds = [(k, y)] → y.state = .queued → y.accepted = true →
    (∀ f, y.instr ≠ .drainRoute f) →
    exec (.commandActivate core) s = .next (s.putCore core { s.core core with cmds := [(k, { y with state := .active })] })) ∧
  (∀ (s : State) (core k n : Nat) (y : Command) (x : Team) (f : FA128) (o : Nat),
    EngineRuns s core k y x → y.instr = .cpyf f → y.od = [(o : Int)] → RowOf x (snapAt y 0) o n →
    let off := regionOfTeam s x + baseOff (snapAt y 0).base + 4 * o
    ∃ u, exec (.positionPerformed core k) s = .next u ∧ Gone s u core k ∧
      ∀ b, mget (u.core core).pool b = if off ≤ b ∧ b < off + 4 * n then BitVec.ofNat 8 ((snapAt y 0).fill / 256 ^ ((b - off) % 4))
        else mget (s.core core).pool b) ∧
  ∀ (s : State) (core k n : Nat) (y : Command) (x : Team) (f : FA128) (o i : Nat),
    EngineRuns s core k y x → y.instr = .cpy f → y.od = [(o : Int)] → y.os = [(i : Int)] → RowOf x (snapAt y 0) o n →
    let d := snapAt y 0
    let r := snapAt y 1
    r.dims = 1 → r.sc = false → r.swz = 0 → baseMode r.base = 1 → baseTile r.base = false → i + n ≤ at0 r.ext 0 →
    permOf y.flds.x 1 = [0] → bitCopy r d (bitAt y.flds.mod 0) = true →
    let src := regionOfTeam s x + baseOff r.base + 4 * i
    let off := regionOfTeam s x + baseOff d.base + 4 * o
    (∀ b, src ≤ b → b < src + 4 * n → (b < off ∨ off + 4 * n ≤ b) ∧ poolBad s core b 1 = false) →
    ∃ u, exec (.positionPerformed core k) s = .next u ∧ Gone s u core k ∧
      ∀ b, mget (u.core core).pool b = if off ≤ b ∧ b < off + 4 * n then mget (s.core core).pool (src + (b - off))
        else mget (s.core core).pool b

/-- LINES LEAVE THE CACHES. An evicted modified home line without a release record is written to HBM4 in an encoding that,
read back and decrypted under its key, decodes into its bytes, with its poison, and is gone from the slice; one not modified is only gone. Serving
an epoch writes the dirty bytes of a line of that epoch back to its home, and WBE passes the epoch. -/
def Obligations.LinesLeave : Prop :=
  (∀ (s : State) (die line : Nat) (h : HomeMeta), homeDie (128 * line) = die → tfind s.dev.homeMeta line = some h → h.rv = false →
    Memory.wf s.dev.home = true → Memory.wf s.dev.hbm = true → rising s.dev.homeMeta = true →
    ∃ u, exec (.l2Eviction die line) s = .next u ∧ tfind u.dev.homeMeta line = none ∧
      (∀ k, k ≠ line → tfind u.dev.homeMeta k = tfind s.dev.homeMeta k) ∧
      (∀ a, mget u.dev.home a = if a / 128 = line then 0 else mget s.dev.home a) ∧
      (h.mod = false → u.dev.hbm = s.dev.hbm ∧ u.dev.hbmMeta = s.dev.hbmMeta) ∧
      (h.mod = true → ∃ m, tfind u.dev.hbmMeta line = some m ∧ m.poison = h.poison ∧
        lineFrom (keyValue s h.part h.key) line m.tag u.dev.hbm = mgets s.dev.home (128 * line) 128 ∧
        (h.poison = true ∨ h.rawPend = true ∨ h.nc = true → m.tag = 0))) ∧
  ∀ (s : State) (die part epoch line : Nat) (v : VisMeta) (h : HomeMeta), die < 4 → epoch < tget (s.die die).ep part 0 →
    (s.die die).visMeta = [(line, v)] → v.part = part → v.dirty ≠ 0 → v.dep ≤ epoch → tfind s.dev.homeMeta line = some h →
    Memory.wf s.dev.home = true → Memory.wf (s.die die).vis = true →
    ∃ u, exec (.epochServeRequest die part epoch) s = .next u ∧ (u.die die).visMeta = [(line, { v with dirty := 0 })] ∧
      (∀ a, mget u.dev.home a = if a / 128 = line ∧ v.dirty.getLsbD (a % 128) then mget (s.die die).vis a else mget s.dev.home a) ∧
      (∃ g, tfind u.dev.homeMeta line = some g ∧ g.mod = true ∧
        g.poison = if v.dirty = BitVec.allOnes 128 then v.poison else v.poison || h.poison) ∧
      tget (u.die die).wbe part 0 = max (tget (s.die die).wbe part 0) (epoch + 1) ∧ u.threads = s.threads

/-- A ROUTE'S TILES. A tile whose ready flag is set fires: the flag falls, and with NET 0 and one other member the tile lands in
that member's slot of this rank. When the other member's tile has landed whole and unpoisoned, the reduction leaves, in every
element of the result, rank 0's element joined with rank 1's. -/
def Obligations.RouteTiles : Prop :=
  ∀ (s : State) (team k h g tile : Nat) (x y : Team) (r q : Route), s.team? team = some x → s.team? k = some y → team ≠ k →
    rising s.teams = true → x.routing = true → x.grid = y.grid → y.state = .live → x.core ≠ y.core → x.cohort = 2 → y.idx / 2 = x.idx / 2 →
    (∀ e ∈ s.teams, e.2.grid = x.grid → e.1 = team ∨ e.1 = k) → y.idx ≠ x.idx →
    tfind x.routes h = some r → y.routes = [(g, q)] → r.failed = false → r.park = none →
    let t := rtabOf r.snap
    let o := rtabOf q.snap
    rtabBad x t false = false → rtabBad y o false = false → t.oneShot = true → o.tb = t.tb → o.n = t.n → o.oneShot = true →
    t.net = false → o.net = false → t.m = 2 → t.obase = o.obase → baseMode t.dbase = 1 → tile < t.n →
    Memory.wf (s.core x.core).pool = true → Memory.wf (s.core y.core).pool = true → (s.core x.core).poolPoison = [] →
    let p := r.round % 2
    let mine := regionOfTeam s x + baseOff t.obase
    let its := regionOfTeam s y + baseOff t.obase
    let slot (u : Nat) : Nat := t.tb * (u + 2 * (tile + t.n * p))
    (readyFlag s x t tile = true → (r.tile tile) = {} →
      ∃ u z w, exec (.tileFire team h tile) s = .next u ∧ u.team? team = some z ∧ tfind z.routes h = some w ∧ readyFlag u x t tile = false ∧
        (w.tile tile).fired = true ∧ (w.tile tile).sent = 1 ∧ w.round = r.round ∧ u.threads = s.threads ∧ u.dev = s.dev ∧
        ∀ b < t.tb, mget (u.core y.core).pool (its + slot t.rank + b) = mget (s.core x.core).pool (mine + slot t.rank + b)) ∧
    ((r.tile tile).fired = true → (r.tile tile).done = false → (r.tile tile).sent = 1 → (r.tile tile).bad = [] → (r.tile tile).badStage = [] →
      t.tb ≤ tget (r.tile tile).got (2 * (1 - t.rank) + p) 0 →
      ∃ u z w, exec (.slotCompleteReduce team h tile) s = .next u ∧ u.team? team = some z ∧ tfind z.routes h = some w ∧
        u.threads = s.threads ∧ u.dev = s.dev ∧
        w.round = (if ∀ n < t.n, n ≠ tile → (r.tile n).done = true then r.round + 1 else r.round) ∧
        let eb := fmtBits t.fmt / 8
        ∀ e < 1024, poolNat u x.core (regionOfTeam s x + baseOff t.dbase + t.tb * tile + eb * e) eb =
          t.join (poolNat s x.core (mine + slot 0 + eb * e) eb) (poolNat s x.core (mine + slot 1 + eb * e) eb))

/-- QUEUE REGISTERS. An enabled queue takes no write of QCTL but the one that clears EN; a disabled one takes its defined bits, EN
only where nothing refuses it. DOORBELL takes a TAIL at most a ring's length past HEAD. A write of QWDOG sets LIMIT, clears
FIRED where bit 32 is set, and stops the timer where LIMIT is 0. -/
def Sys2Proof.Machine.QueueRegisters : Prop :=
  ∀ (s : State) (q v : Nat), q < 4096 →
    let x := s.queue q
    let put (y : Queue) : State := { s with queues := tput s.queues q y }
    let enabled := x.qctl.getLsbD 0
    let refused := (v % 2 ^ 64 / 2 ^ 25 ≠ 0 ∨ v / 2 ^ 6 % 4 ≠ 0 ∨ v / 2 ^ 11 % 32 ≠ 0) ∨ 16 < v / 2 % 32 ∨ 16 < v / 2 ^ 20 % 32 ∨
      (s.part (v / 2 ^ 16 % 16)).exist = false ∨ x.fired = true
    (enabled = true → v % 2 = 1 → exec (.qctlWrite q v) s = .next s) ∧
    (enabled = true → v % 2 = 0 → exec (.qctlWrite q v) s = .next (put { x with qctl := BitVec.ofNat 64 (x.qctl.toNat - 1) })) ∧
    (enabled = false → v % 2 = 1 → ¬refused → exec (.qctlWrite q v) s = .next (put { x with
      qctl := BitVec.ofNat 64 (v % 2 ^ 64), prev := none, waited := 0 })) ∧
    (enabled = false → (v % 2 = 0 ∨ refused) → ∃ w : DWord, w.getLsbD 0 = false ∧
      (∀ i, i ≠ 0 → w.getLsbD i = (v.testBit i && (i < 6 || (8 ≤ i && i < 11) || (16 ≤ i && i < 25)))) ∧
      exec (.qctlWrite q v) s = .next (put { x with qctl := w, waited := 0 })) ∧
    (x.head < 2 ^ 32 →
      let ahead := (v % 2 ^ 32 + 2 ^ 32 - x.head) % 2 ^ 32
      exec (.doorbellWrite q v) s = .next (if ahead ≤ 2 ^ (x.qctl.toNat / 2 % 32) then put { x with doorbell := v % 2 ^ 32 } else s)) ∧
    (v % 2 ^ 32 ≠ 0 → exec (.qwdogWrite q v) s = .next (put { x with limit := v % 2 ^ 32, fired := x.fired && !v.testBit 32 })) ∧
    (v % 2 ^ 32 = 0 → exec (.qwdogWrite q v) s = .next (put { x with limit := 0, fired := x.fired && !v.testBit 32, timer := 0, bound := 0 }))

namespace Sys2Proof.Machine

/-- One more message on a connection, and its sender's counters apart nothing else of the queues and grids. -/
def Sends (s u : State) (conn : Nat) (m : Msg) : Prop := (u.conn conn).queue = (s.conn conn).queue ++ [m]

end Sys2Proof.Machine

/-- HOST RECORDS AND RECOVERY. The queue that is next gives its record at HEAD, which advances: an unreadable record brings a
REJECTED completion of status 0x0A, an acceptable one a grid. The expiry of a queue's watchdog disables the queue, kills its
grids and begins a recovery that asks every team of the partition to be saved, but those of cohorts that are over; when they are, RECOVERY_RESUME resets the
partition's cores and caches and counts the recovery. -/
def Obligations.HostRecords : Prop :=
  (∀ (s : State) (p q : Nat) (v : Queue), nextReader s = some p → nextQueue s p = some (q, v) → s.queue q = v → v.head < 2 ^ 32 →
    let r := ioRead p v.recordVa 256 (chargeRead p s)
    let took : State := { r.2 with queues := tput r.2.queues q { v with head := (v.head + 1) % 2 ^ 32, waited := 0 } }
    (r.1 = none → ∃ u m, exec (.hostRecordRead p) s = .next u ∧ (u.queue q).head = (v.head + 1) % 2 ^ 32 ∧ u.grids = s.grids ∧
      u.threads = s.threads ∧ u.teams = s.teams ∧ (u.queue q).cqsent = v.cqsent + 1 ∧ (u.queue q).bound = v.limit ∧ (u.queue q).timer = 0 ∧
      Sends r.2 u (v.cqconn.toNat % 2 ^ 16) m ∧ m.op = 0 ∧ m.len = 64 ∧ m.data.take 8 = bytesOf 4 2 ++ bytesOf 4 0x0A ∧
      (m.data.drop 12).take 4 = bytesOf 4 (q % 4096 * 2 ^ 20 + v.head % 2 ^ 20)) ∧
    (∀ bs, r.1 = some (bs, false) → (launchStatus p 1 (launchRecOf (leNat bs)) false none took).1 = 0 →
      let l := launchRecOf (leNat bs)
      ∃ u d, exec (.hostRecordRead p) s = .next u ∧ u.grid? s.fresh = some d ∧ (∀ k, k ≠ s.fresh → u.grid? k = s.grid? k) ∧
        (u.queue q).head = (v.head + 1) % 2 ^ 32 ∧ (u.queue q).prev = some s.fresh ∧ (u.queue q).cqsent = v.cqsent ∧
        d.part = p ∧ d.host = some v.head ∧ d.queue = q ∧ d.depth = 1 ∧ d.started = true ∧ d.placed = 0 ∧ d.launcher = none ∧
        d.teams = l.teams ∧ d.cohort = l.cohort ∧ d.threads = l.threads ∧ d.regs = l.regs ∧ d.entry = BitVec.ofNat 56 l.entry ∧
        d.gridId = BitVec.ofNat 32 ((s.part p).gridSeq % 2 ^ 22 * 1024 + d.entryNo) ∧ (∀ e ∈ s.grids, e.2.part = p → e.2.entryNo ≠ d.entryNo) ∧
        (u.part p).gridSeq = (s.part p).gridSeq + 1 ∧ u.threads = s.threads ∧ u.teams = s.teams)) ∧
  (∀ (s : State) (q : Nat), expired s (q, s.queue q) = true → rising s.queues = true → rising s.grids = true → rising s.teams = true →
    let p := (s.queue q).part
    ∃ u, exec (.watchdogExpiry q) s = .next u ∧ (u.queue q).fired = true ∧ (u.queue q).en = false ∧ (u.queue q).timer = 0 ∧
      (u.queue q).bound = 0 ∧ (∀ e ∈ u.grids, e.2.queue ≠ q) ∧ (∃ w, (u.part p).recovering = some (s.pkg.us, w) ∧ ∃ e ∈ w, e.1 = q) ∧
      (∀ e ∈ u.teams, e.2.part = p → (e.2.state = .live ∨ e.2.state = .turning ∨ e.2.state = .ended ∨ e.2.state = .killed) →
        (u.grid? e.2.grid).isSome = true → (∃ m ∈ cohortMates u e.2, teamOver u m = false) → e.2.saveReq = true) ∧
      (∀ k, k ≠ p → (u.part k).recovering = (s.part k).recovering)) ∧
  ∀ (s : State) (p start : Nat) (ws : List (Nat × Nat × Nat)), (s.part p).recovering = some (start, ws) →
    (drained s p = false → exec (.recoveryResume p) s = .next s) ∧
    (drained s p = true → rising s.teams = true → rising s.cores = true → rising s.clusters = true → rising s.dies = true →
      (∀ d < 4, rising (s.die d).visMeta = true ∧ rising (s.die d).ep = true ∧ rising (s.die d).wbe = true) →
      ∃ u, exec (.recoveryResume p) s = .next u ∧ (u.part p).recovering = none ∧ (u.part p).recov = ((s.part p).recov + 1) % 2 ^ 32 ∧
        (∀ e ∈ u.teams, e.2.part = p → e.2.state = .saved ∨ e.2.state = .released) ∧
        (∀ k x, s.team? k = some x → x.part ≠ p → u.team? k = some x) ∧
        (∀ c, (s.part p).clusters.getLsbD (clusterOf c) = true → (u.core c).cfg = {} ∧ (u.core c).grid = none ∧ (u.core c).pool = [] ∧
          (u.core c).icache = [] ∧ (u.core c).cmds = [] ∧ (u.core c).steps = [] ∧ (u.core c).gcache = []) ∧
        (∀ c < 12, (s.part p).clusters.getLsbD c = true → (u.cluster c).tlb = []) ∧
        (∀ d < 4, (∀ e ∈ (u.die d).visMeta, e.2.part ≠ p) ∧ tget (u.die d).ep p 0 = 0 ∧ tget (u.die d).wbe p 0 = 0) ∧
        (∀ e ∈ u.dev.homeMeta, e.2.part = p → e.2.rv = false) ∧ u.pkg = s.pkg ∧
        (s.dev.sectorErr = [] → (u.part p).fqsent = (s.part p).fqsent + ws.length + 1))

/-- PARTITION REGISTERS. A register write reaches PTROOT, XLCTL and the registers without behaviour with their defined bits, the
power limit by its bits [11:0] where those lie in its range (that the bits above make it no other value is the model's choice, log 126),
and no other. A shootdown that is not empty or too long is entered; the first entered drops every
translation and gather-cache block of its pages in the partition's clusters, and its completion advances SHOOTSEQ. PROMOFREE
enters a free block. -/
def Sys2Proof.Machine.PartitionRegisters : Prop :=
  (∀ (s : State) (p off v m : Nat), p < 12 → v < 2 ^ 64 →
    let at' (o : Nat) : Nat := 0x10000 + 0x1000 * p + o
    let put (y : Partition) : State := { s with parts := tput s.parts p y }
    exec (.registerWrite (at' 0) v) s = .next (put { s.part p with ptroot := BitVec.ofNat 64 (v &&& 0xFFFFFFFF00001) }) ∧
    exec (.registerWrite (at' 8) v) s = .next (put { s.part p with xlctl := BitVec.ofNat 64 (v % 4) }) ∧
    exec (.registerWrite 0x20 v) s = .next (if 600 ≤ v % 4096 ∧ v % 4096 ≤ 2400 then { s with pkg := { s.pkg with pwrlim := v % 4096 } } else s) ∧
    (off < 0x1000 → plainMask off = some m → dbgReserved off v = false →
      exec (.registerWrite (at' off) v) s = .next (put { s.part p with regs := tput (s.part p).regs off (BitVec.ofNat 64 (v &&& m)) })) ∧
    (off = 0x30 ∨ off = 0x58 ∨ off = 0x60 ∨ off = 0x78 → exec (.registerWrite (at' off) v) s = .next s)) ∧
  (∀ (s : State) (p v : Nat), p < 12 → v < 2 ^ 64 → rising s.cores = true →
    let first := (s.part p).reg 0x20 / 65536 % 2 ^ 40
    let entered : Partition := { s.part p with shootLen := BitVec.ofNat 64 v, shoots := (s.part p).shoots ++ [(first, v)] }
    (v = 0 ∨ 2 ^ 40 < v → exec (.shootdownStart p v) s = .next s) ∧
    (0 < v → v ≤ 2 ^ 40 → (s.part p).shoots ≠ [] → exec (.shootdownStart p v) s = .next { s with parts := tput s.parts p entered }) ∧
    (0 < v → v ≤ 2 ^ 40 → (s.part p).shoots = [] → ∃ u, exec (.shootdownStart p v) s = .next u ∧ u.part p = entered ∧
      u.threads = s.threads ∧ u.teams = s.teams ∧ u.dev = s.dev ∧
      (∀ c < 12, (s.part p).clusters.getLsbD c = true → ∀ e, e ∈ (u.cluster c).tlb ↔
        e ∈ (s.cluster c).tlb ∧ (let n := 2 ^ (pageBits e.2.level - 16); e.1 / n * n + n ≤ first ∨ first + v ≤ e.1 / n * n)) ∧
      (∀ k, (s.part p).clusters.getLsbD (clusterOf k) = true → ∀ b, b ∈ (u.core k).gcache ↔
        b ∈ (s.core k).gcache ∧ (b.vline / 512 < first ∨ first + v ≤ b.vline / 512)) ∧
      ∀ c, (s.part p).clusters.getLsbD c = false → (u.cluster c).tlb = (s.cluster c).tlb)) ∧
  (∀ (s : State) (p first n : Nat), (s.part p).shoots = [(first, n)] → rangeBusy s p first n = false →
    (∀ e ∈ s.teams, e.2.part = p → e.2.tx.lines = []) →
    exec (.shootdownComplete p) s = .next { s with parts := tput s.parts p { s.part p with shoots := [], shootSeq := (s.part p).shootSeq + 1 } }) ∧
  ∀ (s : State) (p v : Nat), p < 12 →
    exec (.promofreeWrite p v) s = .next { s with parts := tput s.parts p (if (s.part p).promoFree.length < 64
      then { s.part p with promoFree := (s.part p).promoFree ++ [v / 2 ^ 21 % 2 ^ 31 * 2 ^ 21] } else s.part p) }

/-- WRITES OF THE QUEUES' AND PARTITIONS' REGISTERS. -/
def Obligations.RegisterWrites : Prop :=
  QueueRegisters ∧ PartitionRegisters

/-- PROMOTIONS AND ANSWERED FAULTS. With promotion on and none in progress, PROMOTION_START of a region that qualifies takes the
first free block that fits; PROMOTION_COMPLETE copies the region's pages to their places in the block, turns the L2 entry
into a leaf of it, drops the region's translations and reports it. RESUME of a page makes a command stopped there active
again where the access is now allowed; FAIL of its record fails it. -/
def Obligations.PromotionsAndFaults : Prop :=
  (∀ (s : State) (p va : Nat) (r : Region), (s.part p).exist = true → (s.part p).xlctl.getLsbD 0 = true → (s.part p).xlctl.getLsbD 1 = false →
    (s.part p).promo = none → (regionAt p va s).1 = some r →
    (∀ a b more, (s.part p).promoFree = a ++ b :: more → (∀ x ∈ a, blockFits r x = false) → blockFits r b = true → b ∉ a →
      ∃ u, exec (.promotionStart p va) s = .next u ∧ (u.part p).promo = some (va, b, r.pages) ∧ (u.part p).promoFree = a ++ more ∧
        u.threads = s.threads ∧ u.teams = s.teams)) ∧
  (∀ (s : State) (p va b : Nat) (pages : List Nat) (r : Region), (s.part p).promo = some (va, b, pages) → rangeBusy s p (va / 65536) 32 = false →
    (regionAt p va s).1 = some r → r.pages = pages → b % 2 ^ 21 = 0 → va % 2 ^ 21 = 0 → (∀ f ∈ pages, f / 2 ^ 21 ≠ b / 2 ^ 21) →
    r.entry / 2 ^ 21 ≠ b / 2 ^ 21 → r.entry % 8 = 0 → r.leaf % 2 ^ 52 < 256 → r.leaf < 2 ^ 64 → b < 2 ^ 52 → (∀ d, (s.die d).visMeta = []) →
    (∀ f ∈ pages, ∀ k < 512, (tfind s.dev.homeMeta (f / 128 + k)).isSome = true) → Memory.wf s.dev.home = true → rising s.cores = true →
    ∃ u, exec (.promotionComplete p) s = .next u ∧ (u.part p).promo = none ∧
      ((List.range 8).map fun k => (mget u.dev.home (r.entry + k)).toNat * 256 ^ k).sum = r.leaf + b ∧
      (∀ i f, pages[i]? = some f → i < 32 → ∀ k < 65536, mget u.dev.home (b + 65536 * i + k) = mget s.dev.home (f + k)) ∧
      (u.part p).fqsent ≥ (s.part p).fqsent + 1 ∧
      ∀ c < 12, (s.part p).clusters.getLsbD c = true → ∀ e ∈ (u.cluster c).tlb,
        let n := 2 ^ (pageBits e.2.level - 16)
        e.1 / n * n + n ≤ va / 65536 ∨ va / 65536 + 32 ≤ e.1 / n * n) ∧
  ∀ (s : State) (p core k v : Nat) (y : Command) (x : Team) (q : Park), s.cores = [(core, s.core core)] → (s.core core).cmds = [(k, y)] →
    y.park = some q → s.teams = [(y.team, x)] → x.part = p → x.core = core → x.routes = [] → p < 12 → v < 2 ^ 64 → y.isRing = false → y.buoy = none →
    (∀ f, y.instr ≠ .drainRoute f) →
    let updates : Bool := match y.instr with | .catom _ => true | .cpys f => f.mod.toNat / 4 % 16 != 0 | .drainH f => f.x.getLsbD 25 | _ => false
    let kind : AccKind := if !q.write then .read else if updates then .rmw else .write
    let now := access (clusterOf core) p kind none q.va s
    (v / 2 ^ 60 = 1 → v / 2 ^ 56 % 16 = 0 → v % 65536 = 0 → q.va / 65536 = v / 65536 % 2 ^ 40 →
      (∀ t, now.1 = .ok t → ∃ u, exec (.faultrespResume p v) s = .next u ∧ (u.core core).cmds = [(k, { y with state := .active, park := none })] ∧
        u.threads = s.threads ∧ u.teams = s.teams) ∧
      (∀ f, now.1 = .error f → ∃ u id, exec (.faultrespResume p v) s = .next u ∧
        (u.core core).cmds = [(k, { y with park := some { q with kind := f.kind, level := f.level, id := id } })] ∧
        (u.part p).fqsent = (now.2.part p).fqsent + 1 ∧ u.threads = s.threads ∧ u.teams = s.teams)) ∧
    (v / 2 ^ 60 = 2 → v / 2 ^ 32 % 2 ^ 28 = 0 → q.id = v % 2 ^ 32 →
      ∃ u z, exec (.faultrespFail p v) s = .next u ∧ (u.core core).cmds = [] ∧ u.team? y.team = some z ∧ u.threads = s.threads ∧
        z.fails.getLast? = some { ticket := y.ticket, st := 4, reason := 1, c := y.c })

/-- KEYS AND GRANTS. KEYCTL runs a GEN of an empty slot and a CLEAR of a full one other than 0 and answers another with its
STATUS; a CLEAR takes the slot's lines out of every cache; at its end the slot holds a key, or none. A grant of blocks that
exist and that no other partition holds is taken; one that another holds is refused. SAVEREQ asks for the save of the team it names. -/
def Sys2Proof.Machine.KeysAndGrants : Prop :=
  (∀ (s : State) (p v : Nat), p < 12 → v < 2 ^ 64 → (s.part p).keyOp = 0 →
    let slot := v % 16
    let full : Prop := (tfind (s.part p).keys slot).isSome = true
    let ends (u : State) (st : Nat) : Prop := u.part p = { s.part p with keySlot := slot, keyStatus := st } ∧ u.dev = s.dev
    (v / 2 ^ 60 = 1 → ∃ u, exec (.keyctlGen p v) s = .next u ∧ u.threads = s.threads ∧ u.teams = s.teams ∧
      ((s.part p).recovering.isSome = true → ends u 3) ∧
      ((s.part p).recovering = none → full → ends u 1) ∧
      ((s.part p).recovering = none → ¬full → u.part p = { s.part p with keySlot := slot, keyOp := 1 } ∧ u.dev = s.dev)) ∧
    (v / 2 ^ 60 = 2 → ∃ u, exec (.keyctlClear p v) s = .next u ∧ u.threads = s.threads ∧ u.teams = s.teams ∧
      ((s.part p).recovering.isSome = true → ends u 3) ∧
      ((s.part p).recovering = none → slot = 0 → ends u 2) ∧
      ((s.part p).recovering = none → slot ≠ 0 → ¬full → ends u 1) ∧
      ((s.part p).recovering = none → slot ≠ 0 → full → (∀ d < 4, rising (s.die d).visMeta = true) → rising s.dev.homeMeta = true →
        (u.part p).keyOp = 2 ∧ (u.part p).keySlot = slot ∧ (u.part p).keys = (s.part p).keys ∧
        (∀ d < 4, ∀ e ∈ (u.die d).visMeta, ¬(e.2.part = p ∧ e.2.key = slot)) ∧
        ∀ e ∈ u.dev.homeMeta, ¬(e.2.part = p ∧ e.2.key = slot)))) ∧
  (∀ (s : State) (p : Nat), let x := s.part p
    (x.keyOp = 0 → exec (.keyOperationDone p) s = .next s) ∧
    (x.keyOp = 1 → ∃ u k, exec (.keyOperationDone p) s = .next u ∧
      u.part p = { x with keys := tput x.keys x.keySlot k, keyOp := 0, keyStatus := 0 } ∧ u.threads = s.threads ∧ u.dev = s.dev) ∧
    (x.keyOp = 2 → ∃ u, exec (.keyOperationDone p) s = .next u ∧
      u.part p = { x with keys := tdel x.keys x.keySlot, keyOp := 0, keyStatus := 0 } ∧ u.threads = s.threads ∧ u.dev = s.dev)) ∧
  (∀ (s : State) (p w v : Nat), p < 12 → w < 12 → v < 2 ^ 64 →
    let block (i : Nat) : Nat := 192 * (w / 3) + 64 * (w % 3) + i
    ((∃ i < 64, v.testBit i ∧ (135 ≤ block i % 192 ∨ ∃ q < 12, q ≠ p ∧ block i ∈ (s.part q).grant)) → exec (.pgrantWrite p w v) s = .next s) ∧
    ((∀ i < 64, v.testBit i = true → block i % 192 < 135 ∧ ∀ q < 12, q ≠ p → block i ∉ (s.part q).grant) →
      (∀ i < 64, block i ∈ (s.part p).grant → v.testBit i = true) →
      ∃ u, exec (.pgrantWrite p w v) s = .next u ∧ u.dev = s.dev ∧ u.threads = s.threads ∧
        ∀ b, b ∈ (u.part p).grant ↔ b ∈ (s.part p).grant ∨ ∃ i < 64, v.testBit i ∧ b = block i)) ∧
  ∀ (s : State) (p team v j : Nat) (x : Team) (g : Grid), p < 12 → v < 2 ^ 64 → s.team? team = some x → rising s.teams = true → x.part = p →
    x.state = .live → x.killReq = false → x.cohort = 1 → x.gridId.toNat = v % 2 ^ 32 → x.idx = v / 2 ^ 32 → (s.part p).recovering = none →
    (∀ e ∈ s.teams, e.1 ≠ team → ¬(e.2.part = p ∧ e.2.gridId = x.gridId ∧ e.2.idx = x.idx)) →
    (∀ e ∈ s.teams, e.1 ≠ team → ¬(e.2.grid = x.grid ∧ e.2.idx = x.idx)) →
    s.grid? x.grid = some g → g.saveBase ≠ 0 → j < g.saveSlots → (∀ e ∈ s.teams, e.2.grid = x.grid → e.2.image ≠ some j) →
    (∀ e ∈ s.teams, e.2.grid = x.grid → e.2.cohort = 1) →
    exec (.savereqWrite p v) s = .next { s with teams := tput s.teams team { x with saveReq := true } }

/-- PARTITIONS. PARTCTL runs a CREATE of an absent partition from clusters no other owns and a TEARDOWN of one that exists and is
idle, and answers another with its STATUS. A CREATE ends with the partition's clusters, NOCMP and a key in slot 0; a TEARDOWN
ends with a partition that does not exist, holds no key or grant, and whose clusters are gated. -/
def Sys2Proof.Machine.Partitions : Prop :=
  (∀ (s : State) (v : Nat), v < 2 ^ 64 → s.pkg.partOp = 0 →
    let p := v / 2 ^ 12 % 16
    let mask := v % 2 ^ 12
    let ends (st : Nat) : State := { s with pkg := { s.pkg with partBits := v % 2 ^ 17, partStatus := st } }
    let runs (op : Nat) : State := { s with pkg := { s.pkg with partBits := v % 2 ^ 17, partOp := op } }
    let free : Prop := p < 12 ∧ mask ≠ 0 ∧ ∀ c < 12, mask.testBit c = true → ∀ q < 12, ¬((s.part q).exist = true ∧ (s.part q).clusters.getLsbD c = true)
    let idle : Prop := (∀ e ∈ s.queues, ¬(e.2.qctl.getLsbD 0 = true ∧ e.2.qctl.toNat / 2 ^ 16 % 16 = p)) ∧ (∀ e ∈ s.grids, e.2.part ≠ p) ∧
      (s.part p).recovering = none
    (v / 2 ^ 60 = 1 →
      (s.pkg.recovery = true → exec (.partctlCreate v) s = .next (ends 4)) ∧
      (s.pkg.recovery = false → (s.part p).exist = true → exec (.partctlCreate v) s = .next (ends 1)) ∧
      (s.pkg.recovery = false → (s.part p).exist = false → ¬free → exec (.partctlCreate v) s = .next (ends 2)) ∧
      (s.pkg.recovery = false → (s.part p).exist = false → free → exec (.partctlCreate v) s = .next (runs 1))) ∧
    (v / 2 ^ 60 = 2 →
      (s.pkg.recovery = true → exec (.partctlTeardown v) s = .next (ends 4)) ∧
      (s.pkg.recovery = false → (s.part p).exist = false → exec (.partctlTeardown v) s = .next (ends 1)) ∧
      (s.pkg.recovery = false → (s.part p).exist = true → ¬idle → exec (.partctlTeardown v) s = .next (ends 3)) ∧
      (s.pkg.recovery = false → (s.part p).exist = true → idle → exec (.partctlTeardown v) s = .next (runs 2)))) ∧
  ∀ (s : State), let p := s.pkg.partBits / 2 ^ 12 % 16
    (s.pkg.partOp = 0 → exec .partitionOperationDone s = .next s) ∧
    (s.pkg.partOp = 1 → ∃ u k, exec .partitionOperationDone s = .next u ∧ u.pkg = { s.pkg with partOp := 0, partStatus := 0 } ∧
      u.part p = { s.part p with
        exist := true, noCmp := s.pkg.partBits.testBit 16, clusters := BitVec.ofNat 12 s.pkg.partBits, keys := tput (s.part p).keys 0 k } ∧
      (∀ q, q ≠ p → u.part q = s.part q) ∧ u.threads = s.threads ∧ u.dev = s.dev) ∧
    (s.pkg.partOp = 2 → (∀ e ∈ s.queues, ¬(e.2.qctl.getLsbD 0 = true ∧ e.2.qctl.toNat / 2 ^ 16 % 16 = p)) → (∀ e ∈ s.grids, e.2.part ≠ p) →
      (s.part p).recovering = none → ∃ u, exec .partitionOperationDone s = .next u ∧ u.pkg.partOp = 0 ∧ u.pkg.partStatus = 0 ∧
        u.part p = {} ∧ ∀ c < 12, (s.part p).clusters.getLsbD c = true → (u.cluster c).tlb = [] ∧ (u.cluster c).power = 2)

/-- PARTITIONS, KEYS, GRANTS AND SAVES ASKED FOR. -/
def Obligations.PartitionsAndKeys : Prop :=
  KeysAndGrants ∧ Partitions

/-- THE MANAGEMENT PORT. A read request with a right MAC and a SEQ above the last is answered with its words, or with the STATUS
that refuses it; a write request of one word performs that write, or answers the STATUS. Either wakes the package. A request
that is not taken changes nothing. -/
def Obligations.ManagementPort : Prop :=
  ∀ (s : State) (d : List Byte) (r : MgmtReq), mgmtReq d = some r →
    let owned := s.pkg.owner.isSome
    let word (i : Nat) : Nat := r.addr + 8 * i
    let taken : Prop := (∀ k, s.pkg.owner = some k → r.mac = bytesOf 32 (kmac k r.body).toNat) ∧ ∀ n, s.pkg.seq = some n → n < r.seq
    let w : State := { s with pkg := { s.pkg with power := 0, seq := some r.seq } }
    let refused : Prop := (owned = false ∧ ∃ i < r.count, ¬(if r.op = 1 then word i < 0x1000 else 0x40 ≤ word i ∧ word i < 0x60)) ∨
      (s.pkg.recovery = true ∧ ∃ i < r.count, 0x1000 ≤ word i ∧ ¬(0x800000 ≤ word i ∧ word i < 0x1000000) ∧ (siteOf (word i)).isSome = true)
    let outside : Prop := r.addr % 8 ≠ 0 ∨ ∃ i < r.count, siteOf (word i) = none
    let answer (u : State) (st : Nat) (data : List Byte) : State :=
      let b := bytesOf 4 r.seq ++ bytesOf 1 (r.op + 2) ++ bytesOf 1 r.count ++ bytesOf 2 st ++ bytesOf 8 r.addr ++ data
      { u with replies := u.replies ++ [{ kind := 4, conn := 0, bytes := b ++ match s.pkg.owner with
        | some k => bytesOf 32 (kmac k b).toNat
        | none => bytesOf 32 0 }] }
    let zeros := List.replicate (8 * r.count) (0 : Byte)
    (¬taken → exec (.mgmtReadRequest d) s = .next s ∧ exec (.mgmtWriteRequest d) s = .next s) ∧
    (taken → r.op = 1 →
      (refused → exec (.mgmtReadRequest d) s = .next (answer w 2 zeros)) ∧
      (¬refused → outside → exec (.mgmtReadRequest d) s = .next (answer w 1 zeros)) ∧
      (¬refused → ¬outside → exec (.mgmtReadRequest d) s =
        .next (answer w 0 ((List.range r.count).flatMap fun i => bytesOf 8 ((siteOf (word i)).elim 0 (readSite w)))))) ∧
    (taken → r.op = 2 → r.count = 1 →
      (refused → exec (.mgmtWriteRequest d) s = .next (answer w 2 [])) ∧
      (¬refused → outside → exec (.mgmtWriteRequest d) s = .next (answer w 1 [])) ∧
      (∀ x, ¬refused → ¬outside → siteOf r.addr = some x → s.pkg.owner.isSome = true →
        let t := writeSite x (leNat ((r.body.drop 16).take 8)) w
        exec (.mgmtWriteRequest d) s = .next (answer t.2 (if t.1 then 2 else 0) [])))

/-- THE PACKAGE. OWNERKEY's words burn a key once. PKGRESET with its code leaves fuses, flash and HBM4 and nothing else. COMMIT makes
the other firmware bank first at the next boot. BOOT of an accepted bank takes its version, raises the least accepted one
and withdraws the cores that fail; without one the package is in RECOVERY. Reports carry their nonce and are written to their
places. CONNCMD stores and loads contexts. -/
def Obligations.PackageControl : Prop :=
  (∀ (s : State) (w v : Nat), w < 4 → v < 2 ^ 64 →
    (s.pkg.owner.isSome = true → exec (.ownerkeyWrite w v) s = .next s) ∧
    (s.pkg.owner = none → w < 3 → exec (.ownerkeyWrite w v) s =
      .next { s with pkg := { s.pkg with ownerWords := tput s.pkg.ownerWords w (BitVec.ofNat 64 v) } }) ∧
    (s.pkg.owner = none → let x (i : Nat) : DWord := tget s.pkg.ownerWords i 0
      ∃ u, exec (.ownerkeyWrite 3 v) s = .next u ∧ u.pkg.owner = some (BitVec.ofNat 64 v ++ x 2 ++ x 1 ++ x 0) ∧ u.threads = s.threads)) ∧
  (∀ (s : State) (v : Nat), v < 2 ^ 64 →
    (v ≠ 0x0000096000000001 → exec (.pkgreset v) s = .next s) ∧
    ∃ u, exec (.pkgreset 0x0000096000000001) s = .next u ∧ u.threads = [] ∧ u.teams = [] ∧ u.grids = [] ∧ u.parts = [] ∧ u.cores = [] ∧
      u.queues = [] ∧ u.conns = [] ∧ u.dev.home = [] ∧ u.dev.hbm = s.dev.hbm ∧ u.dev.hbmMeta = s.dev.hbmMeta ∧ u.pkg.owner = s.pkg.owner ∧
      u.pkg.minVer = s.pkg.minVer ∧ u.pkg.bank0 = s.pkg.bank0 ∧ u.pkg.bank1 = s.pkg.bank1 ∧ u.pkg.booted = false ∧ u.pkg.seq = none ∧
      u.pkg.pwrlim = 2400) ∧
  (∀ (s : State) (v : Nat), exec (.fwctlCommit v) s = .next (if v.testBit 1 then { s with pkg := { s.pkg with commit := true } } else s)) ∧
  (∀ (s : State) (cores links : List Nat),
    ((s.pkg.booted = true ∨ s.pkg.recovery = true) → exec (.boot cores links) s = .next s) ∧
    (s.pkg.booted = false → s.pkg.recovery = false → let a := if s.pkg.commit then 1 - s.pkg.bank else s.pkg.bank
      (s.pkg.accepts a = false → s.pkg.accepts (1 - a) = false →
        exec (.boot cores links) s = .next { s with pkg := { s.pkg with recovery := true, commit := false } }) ∧
      (∀ b, ((b = a ∧ s.pkg.accepts a = true) ∨ (b = 1 - a ∧ s.pkg.accepts a = false ∧ s.pkg.accepts b = true)) →
        ∃ u, exec (.boot cores []) s = .next u ∧ u.pkg.booted = true ∧ u.pkg.bank = b ∧ u.pkg.commit = false ∧
          u.pkg.secver = leNat (s.pkg.flashes b 4 4) ∧ u.pkg.minVer = max s.pkg.minVer (leNat (s.pkg.flashes b 4 4)) ∧
          (∀ c ∈ cores, c < 768 → (u.core c).withdrawn = true) ∧ (∀ c, c ∉ cores → u.core c = s.core c) ∧ u.parts = s.parts))) ∧
  (∀ (s : State) (p v : Nat), p < 12 → v < 2 ^ 64 → rising s.cores = true →
    let nonce (t : Table DWord) (off : Nat) : List Byte := (List.range 4).flatMap fun i => bytesOf 8 (tget t (off + 8 * i) 0).toNat
    (v.testBit 0 = true → s.pkg.attBusy = false → ∃ u, exec (.packageReportStart v) s = .next u ∧ u.pkg.attBusy = true ∧
      u.pkg.attReport.take 8 = bytesOf 4 0x09600002 ++ bytesOf 4 1 ∧ (u.pkg.attReport.drop 8).take 32 = nonce s.pkg.regs 0x80) ∧
    (s.pkg.attBusy = true → ∃ u, exec (.reportWritten 12) s = .next u ∧ u.pkg.attBusy = false ∧
      ∀ k < s.pkg.attReport.length, mget u.pkg.report k = s.pkg.attReport.getD k 0) ∧
    ((s.part p).attBusy = false → ∃ u, exec (.partitionReportStart p v) s = .next u ∧ (u.part p).attBusy = true ∧ (u.part p).attErr = false ∧
      (u.part p).attPage = v / 4096 % 2 ^ 44 * 4096 ∧ ((u.part p).attReport.drop 8).take 32 = nonce (s.part p).regs 0x100) ∧
    ((s.part p).attBusy = true → ∃ u, exec (.reportWritten p) s = .next u ∧ (u.part p).attBusy = false ∧
      ((ioTargets p .write none [((s.part p).attPage, (s.part p).attReport.length)] s).1 = none → (u.part p).attErr = true))) ∧
  ∀ (s : State), let k := (tget s.pkg.regs 0x800 0).toNat
    (exec (.conncmdLoad 2) s = .next { s with pkg := { s.pkg with connCtx := (s.conn k).ctx, connStatus := 0 } }) ∧
    (s.pkg.connCtx.getLsbD 63 = true → (s.conn k).ctx.getLsbD 63 = true →
      exec (.conncmdStore 1) s = .next { s with pkg := { s.pkg with connStatus := 1 } }) ∧
    (s.pkg.connCtx.getLsbD 63 = true → (s.conn k).ctx.getLsbD 63 = false →
      let p := s.pkg.connCtx.toNat / 2 ^ 55 % 16
      let m := s.pkg.connCtx.toNat / 2 ^ 52 % 8
      ((s.part p).exist = false → exec (.conncmdStore 1) s = .next { s with pkg := { s.pkg with connStatus := 2 } }) ∧
      ((s.part p).exist = true → 3 ≤ m → m ≤ 5 → ∃ u, exec (.conncmdStore 1) s = .next u ∧ u.pkg.connStatus = 0 ∧
        (u.conn k).ctx = s.pkg.connCtx &&& BitVec.ofNat 512 ctxMask ∧ (u.conn k).sendPsn = s.pkg.connCtx.toNat / 2 ^ 20 % 2 ^ 24 ∧
        (u.conn k).recvPsn = s.pkg.connCtx.toNat / 2 ^ 20 % 2 ^ 24 ∧ (u.conn k).queue = (s.conn k).queue ∧ u.threads = s.threads))

/-- DEBUG REGISTERS. DBGCTL takes a write without reserved bits or contradictions, DET and TIDE only while the partition is idle. DBGCMD
halts and resumes the threads of the team that DBGTGT names, steps the halted threads of one address, lets a held partition
go, rolls it back to the tidemark it names, and arms a stop; without a target its STATUS is 1, in a wrong state 2, in a recovery 3. -/
def Obligations.DebugCommands : Prop :=
  (∀ (s : State) (p v : Nat), p < 12 → v < 2 ^ 64 →
    let x := s.part p
    let busy : Prop := (∃ e ∈ s.grids, e.2.part = p) ∨
      ∃ e ∈ s.queues, e.2.qctl.getLsbD 0 = true ∧ e.2.qctl.toNat / 2 ^ 16 % 16 = p ∧ e.2.head ≠ e.2.doorbell
    let bad : Prop := v / 2 ^ 5 % 8 ≠ 0 ∨ 2 ^ 13 ≤ v ∨ (v.testBit 1 = true ∧ v.testBit 0 = false) ∨
      ((v.testBit 0 ≠ x.det ∨ v.testBit 1 ≠ x.dbgctl.getLsbD 1) ∧ busy) ∨
      (v.testBit 3 = true ∧ (v / 2 ^ 8 % 32 < 4 ∨ 20 < v / 2 ^ 8 % 32))
    (bad → exec (.dbgctlWrite p v) s = .next s) ∧
    (¬bad → exec (.dbgctlWrite p v) s = .next { s with parts := tput s.parts p { x with det := v.testBit 0, dbgctl := BitVec.ofNat 64 v } })) ∧
  ∀ (s : State) (p team core : Nat) (y : Team), p < 12 →
    let x := s.part p
    let cmd (op low : Nat) : Nat := 2 ^ 60 * op + low
    let status (n : Nat) : State := { s with parts := tput s.parts p { x with dbgStatus := n } }
    let target := x.reg 0x1A0
    let named (e : Nat × Team) : Prop := e.2.part = p ∧ e.2.state ≠ .saved ∧ e.2.state ≠ .released ∧
      e.2.gridId.toNat = target % 2 ^ 32 ∧ e.2.idx = target / 2 ^ 32
    let found : Prop := s.team? team = some y ∧ named (team, y) ∧ ∀ e ∈ s.teams, named e → e.1 = team
    (x.recovering.isSome = true → exec (.dbgcmdHalt p (cmd 1 0)) s = .next (status 3) ∧ exec (.dbgcmdGo p (cmd 4 0)) s = .next (status 3)) ∧
    (x.recovering = none →
      ((∀ e ∈ s.teams, ¬named e) → exec (.dbgcmdHalt p (cmd 1 0)) s = .next (status 1) ∧ exec (.dbgcmdResume p (cmd 2 0)) s = .next (status 1) ∧
        exec (.dbgcmdStep p (cmd 3 0)) s = .next (status 1) ∧ exec (.dbgcmdArmstop p (cmd 6 0)) s = .next (status 1)) ∧
      (found → rising s.threads = true → rising s.teams = true →
        (∃ u, exec (.dbgcmdHalt p (cmd 1 0)) s = .next u ∧ (u.part p).dbgStatus = 0 ∧ u.team? team = some { y with haltAsked := true } ∧
          ∀ k t, s.thread? k = some t → u.thread? k = some (if t.team = team ∧ t.halted = .none then { t with haltNext := true } else t)) ∧
        (∃ u, exec (.dbgcmdResume p (cmd 2 0)) s = .next u ∧ (u.part p).dbgStatus = 0 ∧ u.teams = s.teams ∧
          ∀ k t, s.thread? k = some t → u.thread? k = some (if t.team = team ∧ t.halted ≠ .none ∧ t.stepping = false
            then { t with pastBreak := t.pastBreak || t.halted == .atBreak, halted := .none } else t)) ∧
        (∀ k t, s.thread? k = some t → t.team = team → t.num < 2048 → (∀ e ∈ s.threads, e.2.team = team → e.2.num = t.num → e.1 = k) →
          let armed : Partition := { x with stop := some (k, t.num, x.reg 0x1B8), dbgStatus := 0 }
          exec (.dbgcmdArmstop p (cmd 6 t.num)) s = .next { s with parts := tput s.parts p armed } ∧
          (t.halted = .none → exec (.dbgcmdStep p (cmd 3 t.num)) s = .next (status 2)) ∧
          (t.halted ≠ .none → t.stepping = false → t.conv = .run → t.lane.toNat < 32 → y.core = core →
            (∀ e ∈ s.threads, e.2.team = team → e.1 ≠ k → ¬(e.2.halted ≠ .none ∧ e.2.stepping = false ∧ e.2.conv = .run ∧ e.2.pc = t.pc)) →
            ∃ u, exec (.dbgcmdStep p (cmd 3 t.num)) s = .next u ∧ (u.part p).dbgStatus = 0 ∧ u.thread? k = some { t with stepping := true } ∧
              (∀ n, n ≠ k → u.thread? n = s.thread? n) ∧ u.teams = s.teams ∧
              (u.core core).stepSets = (s.core core).stepSets ++ [{ team := team, pc := t.pc, members := [k], mask := 2 ^ t.lane.toNat }]))) ∧
      (x.hold = false → exec (.dbgcmdGo p (cmd 4 0)) s = .next (status 2)) ∧
      (x.hold = true → exec (.dbgcmdGo p (cmd 4 0)) s = .next { s with parts := tput s.parts p { x with hold := false, dbgStatus := 0 } }) ∧
      ((x.dbgctl.getLsbD 1 = false ∨ tfind s.tides p = none) → x.tide < 2 ^ 32 → exec (.dbgcmdRollback p (cmd 5 (2 ^ 16 * x.tide))) s = .next (status 2)) ∧
      (∀ d, x.dbgctl.getLsbD 1 = true → x.tide < 2 ^ 32 → tfind s.tides p = some d → rising s.grids = true → rising s.teams = true →
        rising d.grids = true → rising d.teams = true → (∀ e ∈ d.grids, e.2.part = p) → (∀ e ∈ d.teams, e.2.part = p) →
        (∀ e ∈ d.grids, ∀ g, s.grid? e.1 = some g → g.part = p) → (∀ e ∈ d.teams, ∀ z, s.team? e.1 = some z → z.part = p) →
        ∃ u, exec (.dbgcmdRollback p (cmd 5 (2 ^ 16 * x.tide))) s = .next u ∧ (u.part p).hold = true ∧ (u.part p).dbgStatus = 0 ∧
          (u.part p).gridSeq = d.gridSeq ∧ (u.part p).tide = x.tide ∧
          (∀ k g, g.part = p → (u.grid? k = some g ↔ tfind d.grids k = some g)) ∧
          ∀ k z, z.part = p → (u.team? k = some z ↔ tfind d.teams k = some z)))

/-- POWER AND LINKS. A cluster that may take a deeper state takes it, and in PG keeps nothing but its counters; the package takes
the deepest state it may; WAKE and a thermal event bring it back. A clock sample notes the power and moves the step of one die;
over 105 C a die stands at step 8, and over 115 C the package is off. A flit that fails twice takes its link down. -/
def Obligations.PowerAndLinks : Prop :=
  (∀ (s : State) (c : Nat), c < 12 → let n := clusterDepth s c (packageDepth s)
    (n ≤ (s.cluster c).power → exec (.clusterIdleTimeout c) s = .next s) ∧
    ((s.cluster c).power < n → rising s.cores = true → ∃ u, exec (.clusterIdleTimeout c) s = .next u ∧ (u.cluster c).power = n ∧
      u.threads = s.threads ∧ u.teams = s.teams ∧ u.dev = s.dev ∧ (u.cluster c).counters = (s.cluster c).counters ∧
      (n = 1 → (u.cluster c).tlb = (s.cluster c).tlb ∧ u.cores = s.cores) ∧
      (n = 2 → (u.cluster c).tlb = [] ∧ ∀ k, clusterOf k = c → (u.core k).cfg = {} ∧ (u.core k).pool = [] ∧ (u.core k).tiles = [] ∧
        (u.core k).banks = [] ∧ (u.core k).icache = [] ∧ (u.core k).handles = []))) ∧
  (∀ (s : State) (n : Nat), 0 < n → n = packageDepth s → s.pkg.power = 0 →
    (∀ c < 12, (if n = 1 then 1 else 2) ≤ max (s.cluster c).power (clusterDepth s c n)) →
    (∀ c < 12, (s.cluster c).power ≤ clusterDepth s c n) →
    ∃ u, exec (.powerStateEntry n) s = .next u ∧ u.pkg.power = n ∧ (n < 3 → u.dev = s.dev) ∧ u.threads = s.threads) ∧
  (∀ (s : State) (reason : Nat), reason < 2 ^ 64 → exec (.wake reason) s = .next { s with pkg := { s.pkg with power := 0 } }) ∧
  (∀ (s : State) (d t : Nat), d < 4 →
    let w : State := { s with pkg := { s.pkg with power := 0 } }
    (t ≤ 105 → exec (.thermalEvent d t) s = .next { w with dies := tput s.dies d { s.die d with hot := false } }) ∧
    (105 < t → t ≤ 115 → exec (.thermalEvent d t) s = .next { w with dies := tput s.dies d { s.die d with hot := true, step := 8 } }) ∧
    (115 < t → ∃ u, exec (.thermalEvent d t) s = .next u ∧ u.off = true ∧ u.threads = [] ∧ u.dev = {} ∧ u.pkg.owner = s.pkg.owner ∧
      u.pkg.bank0 = s.pkg.bank0 ∧ u.pkg.bank1 = s.pkg.bank1)) ∧
  (∀ (s : State) (d : Nat), d < 4 → ∃ u w b, exec (.clockStep d) s = .next u ∧ u.pkg = { s.pkg with pwrest := w } ∧ w < 4096 ∧ b < 4 ∧
    u.threads = s.threads ∧ (∀ k, k ≠ d → u.die k = s.die k) ∧
    u.die d = { s.die d with
      step := if s.pkg.pwrlim < w then (if b = d then min 8 ((s.die d).step + 1) else (s.die d).step)
        else if 100 * w < 95 * s.pkg.pwrlim ∧ (s.die d).hot = false then (s.die d).step - 1 else (s.die d).step }) ∧
  ∀ (s : State) (l d : Nat), l < 8 → d < 4 → l ∉ s.pkg.linksDown →
    (∃ u, exec (.linkCrcFailure l d false) s = .next u ∧ u.pkg = s.pkg ∧ u.threads = s.threads ∧
      tget (u.die d).counters 0xB8 0 = tget (s.die d).counters 0xB8 0 + 1 ∧ ∀ p < 12, (s.part p).exist = true → (u.part p).perturb = true) ∧
    ∃ u, exec (.linkCrcFailure l d true) s = .next u ∧ (∀ k, k ∈ u.pkg.linksDown ↔ k ∈ s.pkg.linksDown ∨ k = l) ∧
      ∀ p < 12, (s.part p).exist = true → (s.part p).fqsent < (u.part p).fqsent

namespace Sys2Proof.Machine

/-- A request of a connection has been answered: one more answer, the power state and the expected PSN as an arrival leaves them. -/
def Answers (s u : State) (conn n kind : Nat) (bytes : List Byte) : Prop :=
  u.replies = s.replies ++ [{ kind := kind, conn := conn, bytes := bytes }] ∧ u.pkg.power = 0 ∧ u.threads = s.threads ∧
  (u.conn conn).recvPsn = ((s.conn conn).recvPsn + max 1 ((n + 128 * 2 ^ ((s.conn conn).ctx.toNat / 2 ^ 52 % 8) - 1) / (128 * 2 ^ ((s.conn conn).ctx.toNat / 2 ^ 52 % 8)))) % 2 ^ 24

/-- A request has been refused: it is answered by a NAK, and the connection is in error. -/
def Refused (s u : State) (conn n kind : Nat) : Prop := Answers s u conn n kind [] ∧ (u.conn conn).ctx.getLsbD 62 = true

end Sys2Proof.Machine

/-- INBOUND REQUESTS. A request on a connection that takes it is performed where its key and its range allow, and acknowledged or
answered; another is refused by the NAK that the rules name, which puts the connection in error. -/
def Obligations.InboundRequests : Prop :=
  ∀ (s : State) (k rkey addr : Nat) (data : List Byte), connTakes s k = true → (s.conn k).queue = [] →
    let p := (s.conn k).ctx.toNat / 2 ^ 55 % 16
    let kind := if rkey % 2 ^ 28 = (s.part p).reg 0x220 then rkey / 2 ^ 28 % 16 else 0
    let n := data.length
    let s1 := inbound k n s
    (∀ op < 256, ∃ u, exec (.invalidRequestIn k op) s = .next u ∧ Refused s u k 0 2) ∧
    (kind = 0 ∨ 4 ≤ kind → (∃ u, exec (.rdmaWriteIn k rkey addr data) s = .next u ∧ Refused s u k n 1) ∧
      ∃ u, exec (.rdmaReadIn k rkey addr n) s = .next u ∧ Refused s u k n 1) ∧
    (kind = 1 ∨ kind = 2 →
      ((addr % 8 ≠ 0 ∨ n % 8 ≠ 0) → ∃ u, exec (.rdmaWriteIn k rkey addr data) s = .next u ∧ Refused s u k n 2) ∧
      (addr % 8 = 0 → n % 8 = 0 → (if kind = 1 then 2 ^ 18 else 4096) < addr + n →
        ∃ u, exec (.rdmaWriteIn k rkey addr data) s = .next u ∧ Refused s u k n 1) ∧
      (addr % 8 = 0 → n % 8 = 0 → addr + n ≤ (if kind = 1 then 2 ^ 18 else 4096) → ∃ u, exec (.rdmaReadIn k rkey addr n) s = .next u ∧
        Answers s u k n 0 ((List.range (n / 8)).flatMap fun i => bytesOf 8 (windowRead kind p (addr + 8 * i) s1)))) ∧
    (kind = 1 → addr % 64 = 0x10 → n = 8 → addr < 2 ^ 18 → let q := addr / 64
      ∃ u, exec (.rdmaWriteIn k rkey addr data) s = .next u ∧ Answers s u k n 0 [] ∧
        u.queue q = if (s.queue q).qctl.toNat / 2 ^ 16 % 16 = p then (writeDoorbell q (leNat data) s).queue q else s.queue q) ∧
    (kind = 3 →
      ((inboundTargets p .write none addr n s1).1 = none → ∃ u, exec (.rdmaWriteIn k rkey addr data) s = .next u ∧ Refused s u k n 1) ∧
      (∀ pa a, (inboundTargets p .write none addr n s1).1 = some [(pa, a, n)] → 0 < n → pa % 128 + n ≤ 128 → Memory.wf s.dev.home = true →
        Memory.wf (inboundTargets p .write none addr n s1).2.dev.home = true →
        ∃ u, exec (.rdmaWriteIn k rkey addr data) s = .next u ∧ Answers s u k n 0 [] ∧
          (∀ i < n, mget u.dev.home (pa + i) = data.getD i 0) ∧ ∃ h, tfind u.dev.homeMeta (pa / 128) = some h ∧ h.mod = true) ∧
      ((inboundTargets p .read none addr n s1).1 = none → ∃ u, exec (.rdmaReadIn k rkey addr n) s = .next u ∧ Refused s u k n 1) ∧
      (∀ pa a h, (inboundTargets p .read none addr n s1).1 = some [(pa, a, n)] → 0 < n → pa % 128 + n ≤ 128 →
        tfind (inboundTargets p .read none addr n s1).2.dev.homeMeta (pa / 128) = some h →
        let held := mgets (inboundTargets p .read none addr n s1).2.dev.home pa n
        (h.poison = true → ∃ u, exec (.rdmaReadIn k rkey addr n) s = .next u ∧ Refused s u k n 3) ∧
        (h.poison = false → ∃ u, exec (.rdmaReadIn k rkey addr n) s = .next u ∧ Answers s u k n 0 held)))

/-- INBOUND ATOMICS, DOORBELLS AND LANDINGS. FETCH_ADD and CMP_SWAP answer the old 64 bits and leave the new; a batch of doorbells rings
each queue of the partition; a WRITE with immediate to a bound landing window is written, counted, and held while its team is
saved. -/
def Obligations.InboundAtomics : Prop :=
  ∀ (s : State) (k rkey addr : Nat) (data : List Byte), connTakes s k = true → (s.conn k).queue = [] →
    let p := (s.conn k).ctx.toNat / 2 ^ 55 % 16
    let kind := if rkey % 2 ^ 28 = (s.part p).reg 0x220 then rkey / 2 ^ 28 % 16 else 0
    let n := data.length
    (∀ v w, let s1 := inbound k 8 s
      let t := inboundTargets p .rmw (some 59) addr 8 s1
      ((kind = 1 ∨ kind = 2 ∨ (kind = 3 ∧ addr % 8 ≠ 0)) → (∃ u, exec (.fetchAddIn k rkey addr v) s = .next u ∧ Refused s u k 8 2) ∧
        ∃ u, exec (.cmpSwapIn k rkey addr v w) s = .next u ∧ Refused s u k 8 2) ∧
      ((kind = 0 ∨ 4 ≤ kind) → (∃ u, exec (.fetchAddIn k rkey addr v) s = .next u ∧ Refused s u k 8 1) ∧
        ∃ u, exec (.cmpSwapIn k rkey addr v w) s = .next u ∧ Refused s u k 8 1) ∧
      ∀ pa a h, kind = 3 → addr % 8 = 0 → t.1 = some [(pa, a, 8)] → pa % 8 = 0 → tfind t.2.dev.homeMeta (pa / 128) = some h →
        Memory.wf t.2.dev.home = true →
        let old := leNat (mgets t.2.dev.home pa 8)
        let leaves (u : State) (x : Nat) : Prop := ∀ i < 8, mget u.dev.home (pa + i) = BitVec.ofNat 8 (x / 256 ^ i)
        (h.poison = true → ∃ u, exec (.fetchAddIn k rkey addr v) s = .next u ∧ Refused s u k 8 3) ∧
        (h.poison = false → (∃ u, exec (.fetchAddIn k rkey addr v) s = .next u ∧ Answers s u k 8 0 (bytesOf 8 old) ∧ leaves u (old + v)) ∧
          ∃ u, exec (.cmpSwapIn k rkey addr v w) s = .next u ∧ Answers s u k 8 0 (bytesOf 8 old) ∧ leaves u (if old = v then w else old))) ∧
    (∀ q t : Nat, q < 4096 → t < 2 ^ 32 → data = bytesOf 8 (q + 2 ^ 32 * t) → (s.queue q).head < 2 ^ 32 →
      let x := s.queue q
      ∃ u, exec (.sendDoorbellBatch k data) s = .next u ∧ Answers s u k 8 0 [] ∧ (u.queue q).doorbell =
        if x.qctl.toNat / 2 ^ 16 % 16 = p ∧ (t + 2 ^ 32 - x.head) % 2 ^ 32 ≤ 2 ^ (x.qctl.toNat / 2 % 32) then t else x.doorbell) ∧
    ((n = 0 ∨ n % 8 ≠ 0 ∨ 64 < n) → ∃ u, exec (.sendDoorbellBatch k data) s = .next u ∧ Refused s u k n 2) ∧
    ∀ imm : Nat,
      (1 ≤ kind ∧ kind ≤ 3 → ∃ u, exec (.writeImmLanding k rkey addr imm data) s = .next u ∧ Refused s u k n 2) ∧
      (kind = 0 ∨ 5 ≤ kind → ∃ u, exec (.writeImmLanding k rkey addr imm data) s = .next u ∧ Refused s u k n 1) ∧
      ∀ team h x r pa a, kind = 4 → addr < 2 ^ 44 → let l := addr / 2 ^ 40
        let off := addr % 2 ^ 40
        let s1 := inbound k n s
        tfind (s.part p).lands l = some (team, h) → s.team? team = some x → tfind x.routes h = some r → off + n ≤ (rtabOf r.snap).landing →
        x.state = .saved → (tget (s.part p).pend l []).length < 65535 →
        (inboundTargets p .write none (baseOff (rtabOf r.snap).obase + off) n s1).1 = some [(pa, a, n)] → 0 < n → pa % 128 + n ≤ 128 →
        Memory.wf (inboundTargets p .write none (baseOff (rtabOf r.snap).obase + off) n s1).2.dev.home = true →
        ∃ u, exec (.writeImmLanding k rkey addr imm data) s = .next u ∧ Answers s u k n 0 [] ∧
          tget (u.part p).pend l [] = tget (s.part p).pend l [] ++ [(off, n, if imm.testBit 31 then 1 else 0)] ∧
          ∀ i < n, mget u.dev.home (pa + i) = data.getD i 0

/-- THE DEVICE'S OWN REQUESTS. An answer of the right length to the oldest request takes it out of the connection's line and
delivers it: a record is counted, a command has its bytes. The ack timeout, 4.096 us x 2^TIMEOUT after the oldest request was last sent, is a retry until the retries are spent; a fatal NAK puts
the connection in error and another asks again. A congestion notification halves the rate; pauses and link changes reach
their port. -/
def Obligations.OwnRequests : Prop :=
  (∀ (s : State) (k : Nat) (m : Msg) (rest : List Msg) (data : List Byte),
    let c := s.conn k
    connTakes s k = true → c.ctx.toNat / 2 ^ 120 % 8 ∉ (s.port (c.ctx.toNat / 2 ^ 59 % 8)).paused → c.queue = m :: rest →
    (data.length = (if m.op = 2 then m.len else if 3 ≤ m.op then 8 else 0) →
      (∀ o, m.what = .record 0 o → ∃ u, exec (.fabricResponse k data) s = .next u ∧ (u.conn k).queue = rest ∧ (u.conn k).retries = 0 ∧
        (u.part o).fqidx = (s.part o).fqidx + 1 ∧ u.threads = s.threads) ∧
      (∀ o, m.what = .record 1 o → ∃ u, exec (.fabricResponse k data) s = .next u ∧ (u.conn k).queue = rest ∧
        (u.queue o).cqidx = (s.queue o).cqidx + 1 ∧ u.threads = s.threads) ∧
      ∀ core key n y, m.what = .command core key n → m.op = 2 → s.cmd? core key = some y →
        ∃ u z, exec (.fabricResponse k data) s = .next u ∧ (u.conn k).queue = rest ∧ u.cmd? core key = some z ∧ z.waiting = false ∧
          z.c = y.c ∧ z.state = y.state ∧ (∀ i < data.length, tget z.got (m.va + i) 0 = data.getD i 0) ∧ u.threads = s.threads) ∧
    let late : Prop := 4096 * 2 ^ (c.ctx.toNat / 2 ^ 44 % 32) ≤ 1000 * (s.pkg.us - c.since)
    (¬late → exec (.ackTimeout k) s = .next s) ∧
    (late → c.retries < c.ctx.toNat / 2 ^ 49 % 8 → ∃ u, exec (.ackTimeout k) s = .next u ∧
      u.conn k = { c with retries := c.retries + 1, since := s.pkg.us } ∧ u.threads = s.threads ∧ u.parts = s.parts) ∧
    (late → c.ctx.toNat / 2 ^ 49 % 8 ≤ c.retries → ∃ u, exec (.ackTimeout k) s = .next u ∧ (u.conn k).ctx.getLsbD 62 = true ∧ u.threads = s.threads) ∧
    (∀ kind, 1 ≤ kind → kind ≤ 3 → ∃ u, exec (.rdmaNakReceived k kind) s = .next u ∧ (u.conn k).ctx.getLsbD 62 = true ∧ u.threads = s.threads) ∧
    (∀ kind, (kind = 0 ∨ 3 < kind) → ∃ u, exec (.rdmaNakReceived k kind) s = .next u ∧ u.conn k = { c with since := s.pkg.us } ∧
      (∀ n, n ≠ k → u.conn n = s.conn n) ∧ u.threads = s.threads)) ∧
  (∀ (s : State) (k : Nat), connTakes s k = true → let c := s.conn k
    exec (.cnpReceived k) s = .next { s with conns := tput s.conns k { c with rate := max 1 (c.rate / 2) } }) ∧
  ∀ (s : State) (port pr : Nat) (b : Bool), port < 8 → pr < 8 →
    (∃ u, exec (.pfcPauseFrame port pr b) s = .next u ∧ (∀ x, x ∈ (u.port port).paused ↔ (x ∈ (s.port port).paused ∧ x ≠ pr) ∨ (x = pr ∧ b = true)) ∧
      (∀ n, n ≠ port → u.port n = s.port n) ∧ u.conns = s.conns) ∧
    exec (.portLinkStateChange port b) s = .next { s with ports := tput s.ports port { s.port port with up := b } }

namespace Sys2Proof.Machine

/-- Task entries: E of a team, entry `i` of a team, and the entry that an identifier validly names (19 R392). -/
def taskAt (s : State) (x : Team) (i : Nat) : Task := tget (s.core x.core).tasks (x.slot * tasksPer (s.core x.core) + i) {}
def Names (s : State) (x : Team) (id i : Nat) : Prop :=
  i = id % 512 ∧ i < tasksPer (s.core x.core) ∧ id / 512 ≠ 0 ∧ (taskAt s x i).gen = id / 512 ∧ (taskAt s x i).state ≠ 0

/-- The place in the READY order of an entry that becomes READY now: that of the others of the same clk, whose order is their entry
index, else the next (19 R395). -/
def placeNow (s : State) (x : Team) : Nat :=
  if (s.core x.core).taskClk = some (s.clkOf x.core) then (s.core x.core).taskOrder - 1 else (s.core x.core).taskOrder

/-- An instruction of one thread that changes task entries of its core: its result, and what else stays. -/
structure Tasked (s u : State) (c : Ctx) (x : Team) (ws : List (Nat × Word)) (es : Nat → Task) : Prop where
  thread : u.thread? c.tid = some (c.after c.raised [c.result ws])
  beside : Beside s u c.tid c.t.team x.core
  team : u.team? c.t.team = some x
  entries : ∀ i, i < tasksPer (s.core x.core) → taskAt u x i = es i
  cmds : (u.core x.core).cmds = (s.core x.core).cmds ∧ (u.core x.core).pool = (s.core x.core).pool

/-- The state after a result and a change of a thread's team. -/
def wroteTeam (s : State) (c : Ctx) (ws : List (Nat × Word)) (y : Team) : State := { wrote s c ws with teams := tput s.teams c.t.team y }

end Sys2Proof.Machine

/-- TASK INSTRUCTIONS. TLEAD brings the leader's number or whether the thread leads; TARG brings a word of its task's arguments;
TQRY an entry's state and count; TDEP counts a waiting entry down and makes it READY at zero; both give the answers of R394 for
other identifiers, and TDEP of a POISONED entry traps. TSPAWN fills the lowest FREE entry and brings its identifier. TRACE
posts its record while tracing is on. TASK_THREAD_CREATE makes the first READY entry a thread in the lowest lane with a free
slot. -/
def Obligations.TaskInstructions : Prop :=
  (∀ (i : Instr) (s : State) (tid : Nat) (c : Ctx) (x : Team), Issues s tid i c → s.team? c.t.team = some x →
    let id := c.va.toNat
    let per := tasksPer (s.core x.core)
    (∀ f, i = .tlead f → ∀ l ∈ livesIn s c.t.team, (∀ e ∈ livesIn s c.t.team, e.1 ≠ l.1 → l.2.num < e.2.num) → rising s.threads = true →
      exec i s = .next (wrote s c (c.to32 (if c.m 0 then one32 (l.1 = tid) else BitVec.ofNat 32 l.2.num)))) ∧
    (∀ f, i = .targ f →
      (c.t.task = none → exec i s = .next (wrote s c (c.to32 0))) ∧
      ∀ k, c.t.task = some k →
        let e := tget (s.core x.core).tasks k {}
        exec i s = .next (wrote s c (c.to32 (if id < 16 then (e.args[id]?).getD 0
          else if id = 16 then BitVec.ofNat 32 (512 * e.gen + (k - x.slot * per)) else 0)))) ∧
    (∀ f, i = .tqry f →
      (∀ j, Names s x id j → exec i s = .next (wrote s c (c.to32 (BitVec.ofNat 32 (2 ^ 24 * (taskAt s x j).state + (taskAt s x j).count))))) ∧
      ((∀ j, ¬Names s x id j) → exec i s = .next (wrote s c (c.to32 0)))) ∧
    (∀ f, i = .tdep f →
      (∀ j, Names s x id j →
        let e := taskAt s x j
        (e.state = 4 → exec i s = .next { enterTrap tid c.pc c.next { cause := 0x0F, detail := 1, addr := e.entry } s with issue := [] }) ∧
        (e.state ≠ 1 → e.state ≠ 4 → exec i s = .next (wrote s c (c.to32 0xFFFFFFFF#32))) ∧
        (e.state = 1 → 1 < e.count → ∃ u, exec i s = .next u ∧ Tasked s u c x (c.to32 (BitVec.ofNat 32 (e.count - 1)))
          fun i => if i = j then { e with count := e.count - 1 } else taskAt s x i) ∧
        (e.state = 1 → e.count ≤ 1 → ∃ u, exec i s = .next u ∧ (u.core x.core).taskOrder = placeNow s x + 1 ∧
          (u.core x.core).taskClk = some (s.clkOf x.core) ∧
          Tasked s u c x (c.to32 0) fun i => if i = j then { e with state := 2, count := 0, order := placeNow s x } else taskAt s x i)) ∧
      ((∀ j, ¬Names s x id j) → exec i s = .next (wrote s c (c.to32 0xFFFFFFFF#32)))) ∧
    (∀ f, i = .tspawn f → spadFits x c.vb.toNat 64 → Memory.wf (s.core x.core).pool = true →
      let entry : VAddr := (c.p c.f.va).setWidth 56
      let off := regionOfTeam s x + c.vb.toNat
      (∀ ws, heldBlock s x.core (blockNo entry) = some ws → entry.toNat % 4 = 0 → entry.toNat / 4 % 8 ∈ startsFrom 8 0 ws →
        (poolBad s x.core off 64 = true → exec i s = .next (wrote s c (c.to32 3))) ∧
        (poolBad s x.core off 64 = false → ∀ j, Names s x c.ve.toNat j → (taskAt s x j).state = 4 →
          exec i s = .next { enterTrap tid c.pc c.next { cause := 0x0F, detail := 2, addr := (taskAt s x j).entry } s with issue := [] }) ∧
        (poolBad s x.core off 64 = false → (∀ j, Names s x c.ve.toNat j → (taskAt s x j).state ≠ 4) →
          ((∀ k < per, (taskAt s x k).state ≠ 0) → exec i s = .next (wrote s c (c.to32 1))) ∧
          ∀ k < per, (taskAt s x k).state = 0 → (∀ n < k, (taskAt s x n).state ≠ 0) →
            let g := if 2 ^ 23 - 1 ≤ (taskAt s x k).gen then 1 else (taskAt s x k).gen + 1
            let ready := c.vc.toNat % 65536 = 0
            ∃ u, exec i s = .next u ∧ Tasked s u c x (c.to32 (BitVec.ofNat 32 (512 * g + k))) fun n => if n ≠ k then taskAt s x n else
              { gen := g, state := if ready then 2 else 1, count := c.vc.toNat % 65536, entry := entry.setWidth 64, notify := c.ve.toNat,
                args := (List.range 16).map fun w => BitVec.ofNat 32 (poolNat s x.core (off + 4 * w) 4),
                order := if ready then placeNow s x else 0 }))) ∧
    (∀ f, i = .trace f →
      ((s.part x.part).dbgctl.getLsbD 4 = false → exec i s = .next (wrote s c (c.to32 0))) ∧
      ((s.part x.part).dbgctl.getLsbD 4 = true → ∃ u, exec i s = .next u ∧
        u.thread? tid = some (c.after c.raised [c.result (c.to32 1)]) ∧ (u.part x.part).dbgsent = (s.part x.part).dbgsent + 1 ∧
        (∀ k, k ≠ tid → u.thread? k = s.thread? k) ∧ u.teams = s.teams ∧ u.grids = s.grids ∧ u.dev = s.dev ∧
        ∀ k, (u.core k).pool = (s.core k).pool))) ∧
  ∀ (s : State) (core k team slot lane ls : Nat) (x : Team) (e : Task) (g : Grid), rising (s.core core).tasks = true → rising s.teams = true →
    tfind (s.core core).tasks k = some e → e.state = 2 → (∀ o ∈ (s.core core).tasks, o.1 ≠ k → o.2.state ≠ 2) →
    slot = k / tasksPer (s.core core) → s.team? team = some x → x.core = core → x.slot = slot → x.state = .live → x.killReq = false →
    (∀ o ∈ s.teams, o.1 ≠ team → o.2.core = core → o.2.slot ≠ slot) → s.grid? x.grid = some g →
    let waves := (s.core core).cfg.waves
    let free (l n : Nat) : Prop := ∀ t ∈ s.threads, ¬(t.2.core = core ∧ t.2.lane.toNat = l ∧ t.2.laneSlot = n)
    lane < 32 → slot * waves ≤ ls → ls < slot * waves + waves → free lane ls → (∀ n, slot * waves ≤ n → n < ls → ¬free lane n) →
    (∀ l < lane, ∀ n, slot * waves ≤ n → n < slot * waves + waves → ¬free l n) → ¬lane ∈ (s.core core).taskLanes →
    ∃ u t, exec (.taskThreadCreate core) s = .next u ∧ u.thread? s.fresh = some t ∧ (∀ n, n ≠ s.fresh → u.thread? n = s.thread? n) ∧
      t.team = team ∧ t.core = core ∧ t.num = 1024 + (k - slot * tasksPer (s.core core)) ∧ t.pc = e.entry.setWidth 56 ∧ t.task = some k ∧
      t.lane = BitVec.ofNat 32 lane ∧ t.wave = BitVec.ofNat 32 (ls - slot * waves) ∧ t.laneSlot = ls ∧ t.regs = [] ∧ t.flags = [] ∧
      t.trapCause = 0 ∧ t.retired = 0 ∧ t.conv = .run ∧ t.depth = BitVec.ofNat 32 g.depth ∧ t.seq = (s.core core).nextSeq ∧
      tfind (u.core core).tasks k = some { e with state := 3, lane := lane, laneSlot := ls } ∧ u.teams = s.teams ∧ u.dev = s.dev

/-- LAUNCHES AND TRIGGERS. A leader's LAUNCH or LAUNCH.J of a record that is accepted enters a child grid of depth one more,
that waits for the team's commands, and for its earlier children when it is a continuation; a refused record brings its status.
CHILD_START and CONTINUATION_START let a grid place teams once what it waits for is past. The first TRIGGER of a team fixes
its trigger set and brings 0, a later one 1; TRIGGER_POINT takes place when the set is gone. -/
def Obligations.LaunchesAndTriggers : Prop :=
  (∀ (i : Instr) (j : Bool) (s : State) (tid : Nat) (c : Ctx) (x : Team) (g : Grid), Issues s tid i c → s.team? c.t.team = some x →
    s.grid? x.grid = some g → ((∃ f, i = .launch f ∧ j = false) ∨ ∃ f, i = .launchJ f ∧ j = true) → spadFits x c.va.toNat 256 →
    Memory.wf (s.core x.core).pool = true →
    let off := regionOfTeam s x + c.va.toNat
    let r := launchRecOf (poolNat s x.core off 256)
    (poolBad s x.core off 256 = true → exec i s = .next (wrote s c (c.to64 9))) ∧
    (poolBad s x.core off 256 = false → (r.bad = true ∨ r.order ≠ 0) → exec i s = .next (wrote s c (c.to64 2))) ∧
    (poolBad s x.core off 256 = false → r.bad = false → r.order = 0 →
      (10 ≤ g.depth → exec i s = .next (wrote s c (c.to64 3))) ∧
      (g.depth < 10 → rising s.threads = true →
        ((∃ e ∈ livesIn s c.t.team, e.2.num < c.t.num) → exec i s = .next (wrote s c (c.to64 8))) ∧
        ((∀ e ∈ livesIn s c.t.team, e.1 ≠ tid → c.t.num < e.2.num) → c.t.task = none →
          let grids := s.grids.filter fun e => e.2.part == x.part
          (1024 ≤ grids.length → exec i s = .next (wrote s c (c.to64 7))) ∧
          (grids.length < 1024 → r.config = none → exec i s = .next (wrote s c (c.to64 1))) ∧
          ((launchStatus x.part (g.depth + 1) r false (some true) (moved s c)).1 = 0 → s.grid? s.fresh = none →
            ∃ u n, exec i s = .next u ∧ n < 1024 ∧ (∀ e ∈ grids, e.2.entryNo ≠ n) ∧ (∀ k < n, ∃ e ∈ grids, e.2.entryNo = k) ∧
            ∃ key d id, (∀ k, k ≠ key → u.grid? k = s.grid? k) ∧ s.grid? key = none ∧ u.grid? key = some d ∧
              id = BitVec.ofNat 32 ((s.part x.part).gridSeq % 2 ^ 22 * 1024 + n) ∧
              u.thread? tid = some (c.after c.raised [c.result [(c.f.vd, 0), (c.f.vd + 1, id)]]) ∧
              (∀ k, k ≠ tid → u.thread? k = s.thread? k) ∧
              d.gridId = id ∧ d.part = x.part ∧ d.depth = g.depth + 1 ∧ d.rank = g.rank ∧ d.queue = g.queue ∧ d.host = none ∧
              d.launcher = some (c.t.team, x.grid) ∧ d.started = false ∧ d.placed = 0 ∧ d.teams = r.teams ∧ d.cohort = r.cohort ∧
              d.entry = BitVec.ofNat 56 r.entry ∧ d.handler = BitVec.ofNat 56 r.handler ∧ d.threads = r.threads ∧ d.regs = r.regs ∧
              d.waitCmds = some (c.t.team, ((s.core x.core).cmds.filter fun e => e.2.team == c.t.team).map (·.1)) ∧
              d.waitGrids = (if j then x.children.filter fun k => (s.grid? k).isSome else []) ∧
              u.team? c.t.team = some { x with children := x.children ++ [key] } ∧
              (u.part x.part).gridSeq = (s.part x.part).gridSeq + 1))))) ∧
  (∀ (f : FA128) (s : State) (tid : Nat) (c : Ctx) (x : Team), Issues s tid (.trigger f) c → s.team? c.t.team = some x →
    let t (v : Word) : Thread := c.after c.raised [{ c.result (c.to32 v) with wait := .accept 0 (c.clk + 4) }]
    (x.trigger = none → exec (.trigger f) s = .next { issued s c (t 0) with
      teams := tput s.teams c.t.team { x with trigger := some (((s.core x.core).cmds.filter fun e => e.2.team == c.t.team).map (·.1)) } }) ∧
    (x.trigger.isSome = true → exec (.trigger f) s = .next (issued s c (t 1)))) ∧
  (∀ (s : State) (team : Nat) (x : Team) (ks : List Nat), s.team? team = some x → x.trigger = some ks → x.triggered = false →
    x.state ≠ .saved → (∀ e ∈ (s.core x.core).cmds, e.2.team = team → ¬e.1 ∈ ks) → (∀ d < 4, rising (s.die d).visMeta = true) →
    ∃ u, exec (.triggerPoint team) s = .next u ∧ u.team? team = some { x with triggered := true, trigDone := true } ∧
      u.threads = s.threads ∧
      (∀ g, s.grid? x.grid = some g → u.grid? x.grid = some { g with trigs := g.trigs + if x.trigDone then 0 else 1 }) ∧
      ∀ d < 4, ∀ e ∈ (u.die d).visMeta, e.2.part = x.part → e.2.dirty ≠ 0 → (tget (u.die d).ep x.part 0) ≤ e.2.dep) ∧
  ∀ (s : State) (k team : Nat) (g : Grid) (ks : List Nat), s.grid? k = some g → g.started = false → g.waitCmds = some (team, ks) →
    (∀ x, s.team? team = some x → x.state ≠ .saved ∧ ∀ e ∈ (s.core x.core).cmds, e.2.team = team → ¬e.1 ∈ ks) →
    (∀ n ∈ g.waitGrids, s.grid? n = none) →
    ∃ u, exec (if g.waitGrids = [] then .childStart k else .continuationStart k) s = .next u ∧ u.threads = s.threads ∧ u.teams = s.teams ∧
      u.grid? k = some { g with started := true, waitCmds := none, waitGrids := [] } ∧ ∀ n, n ≠ k → u.grid? n = s.grid? n

namespace Sys2Proof.Machine

/-- What holds of the package registers in every state that a step can reach from one in which it holds: the power limit lies in
its range, the power state is one of four, links that are down are links, the firmware has not both booted and failed to,
and PARTCTL runs no operation but a CREATE or a TEARDOWN (23 R437, R438, R452, R457). -/
def PackageInv (s : State) : Prop :=
  600 ≤ s.pkg.pwrlim ∧ s.pkg.pwrlim ≤ 2400 ∧ s.pkg.power ≤ 3 ∧ (∀ l ∈ s.pkg.linksDown, l < 8) ∧
  ¬(s.pkg.booted = true ∧ s.pkg.recovery = true) ∧ s.pkg.partOp ≤ 2

end Sys2Proof.Machine

/-- RESET. Right after reset there is no thread, team, grid or partition; every byte of device memory reads zero through its
image; the registers of every window read their reset values; and the invariant of the package registers holds. The values
of the windows' registers are the manual's; that unlisted storage reads zero is the model's choice (log 3, 7). -/
def Obligations.ResetState : Prop :=
  let s := State.reset
  s.threads = [] ∧ s.teams = [] ∧ s.grids = [] ∧ s.off = false ∧ PackageInv s ∧ s.pkg.pwrlim = 2400 ∧ s.pkg.owner = none ∧ s.pkg.seq = none ∧
  (∀ p, (s.part p).exist = false ∧ (s.part p).keys = [] ∧ (s.part p).grant = []) ∧
  (∀ p off, readPart s p off = if off = 0x40 then 1 else 0) ∧
  (∀ q off, readQueueReg s q off = 0) ∧ (∀ c, partOfCluster s c = none) ∧
  (∀ d, (s.die d).clk = 0 ∧ (s.die d).step = 0) ∧ ∀ c, (s.core c).cfg = {} ∧ (s.core c).cmds = [] ∧ (s.core c).withdrawn = false

/-- THE PACKAGE REGISTERS STAY LEGAL. Every step from a state in which they are legal leads to one in which they are. -/
def Obligations.PackageInvariant : Prop :=
  ∀ s u : State, PackageInv s → step s = .next u → PackageInv u

/-- FUSES STAY. No step changes an owner key that is burned, lowers the least accepted firmware version, or touches a byte of the
active firmware bank; and the SEQ of management requests never falls while no step resets the package. -/
def Obligations.FusesStay : Prop :=
  ∀ s u : State, step s = .next u →
    (∀ k, s.pkg.owner = some k → u.pkg.owner = some k) ∧ s.pkg.minVer ≤ u.pkg.minVer ∧
    (if s.pkg.bank = 0 then u.pkg.bank0 = s.pkg.bank0 else u.pkg.bank1 = s.pkg.bank1) ∧
    (u.pkg.booted = true → s.pkg.booted = true → ∀ n, s.pkg.seq = some n → ∃ m, u.pkg.seq = some m ∧ n ≤ m)
end

