-- ==== Sys2Proof/Laws/Aes.lean ====
section
/-! SUPPORT. Decryption undoes encryption: each operation of AES, the cipher, a data unit, and a line's sectors (17 R355). -/

namespace Sys2Proof.Machine

open Sys2Proof

theorem sbox_table_undone : (List.range 256).all (fun n => sboxTable.idxOf (sboxTable.getD n 0) == n && decide (sboxTable.getD n 0 < 256)) = true := by
  decide +kernel

theorem unsubByte_subByte (v : Byte) : unsubByte (subByte v) = v := by
  have h := List.all_eq_true.mp sbox_table_undone v.toNat (List.mem_range.mpr v.isLt)
  simp only [Bool.and_eq_true, beq_iff_eq, decide_eq_true_eq] at h
  have hn : (BitVec.ofNat 8 (sboxTable.getD v.toNat 0)).toNat = sboxTable.getD v.toNat 0 := by
    rw [BitVec.toNat_ofNat]; exact Nat.mod_eq_of_lt h.2
  simp only [unsubByte, subByte, hn, h.1, BitVec.ofNat_toNat, BitVec.setWidth_eq]

theorem xor_cancel (v w : Byte) : v ^^^ (v ^^^ w) = w := by
  rw [← BitVec.xor_assoc, BitVec.xor_self, BitVec.zero_xor]

theorem xor_swap (u v w : Byte) : u ^^^ (v ^^^ w) = v ^^^ (u ^^^ w) := by
  rw [← BitVec.xor_assoc, BitVec.xor_comm u v, BitVec.xor_assoc]

theorem xtime_xor (v w : Byte) : xtime (v ^^^ w) = xtime v ^^^ xtime w := by
  simp only [xtime, BitVec.shiftLeft_xor_distrib, BitVec.msb_xor]
  generalize v <<< 1 = a
  generalize w <<< 1 = b
  cases v.msb <;> cases w.msb <;> simp [BitVec.xor_assoc, xor_cancel, BitVec.xor_comm b]

theorem xtime_zero : xtime 0 = 0 := rfl

theorem AesCol.mix_xor (x y : AesCol) : (x.xor y).mix = x.mix.xor y.mix := by
  simp only [AesCol.mix, AesCol.xor, times3, xtime_xor, AesCol.mk.injEq]
  refine ⟨?_, ?_, ?_, ?_⟩ <;> ac_rfl

theorem AesCol.unmix_xor (x y : AesCol) : (x.xor y).unmix = x.unmix.xor y.unmix := by
  simp only [AesCol.unmix, AesCol.xor, times9, times11, times13, times14, xtime_xor, AesCol.mk.injEq]
  refine ⟨?_, ?_, ?_, ?_⟩ <;> ac_rfl

/-- A column whose bytes but one are zero. -/
theorem AesCol.unmix_mix_one (v : Byte) :
    (AesCol.mk v 0 0 0).mix.unmix = AesCol.mk v 0 0 0 ∧ (AesCol.mk 0 v 0 0).mix.unmix = AesCol.mk 0 v 0 0
      ∧ (AesCol.mk 0 0 v 0).mix.unmix = AesCol.mk 0 0 v 0 ∧ (AesCol.mk 0 0 0 v).mix.unmix = AesCol.mk 0 0 0 v := by
  have z (w : Byte) : w ^^^ 0 = w := BitVec.xor_zero
  have z' (w : Byte) : 0 ^^^ w = w := BitVec.zero_xor
  simp only [AesCol.mix, AesCol.unmix, times3, times9, times11, times13, times14, xtime_xor, xtime_zero, z, z', AesCol.mk.injEq]
  generalize xtime (xtime (xtime (xtime v))) = v4
  generalize xtime (xtime (xtime v)) = v3
  generalize xtime (xtime v) = v2
  generalize xtime v = v1
  simp only [BitVec.xor_assoc, BitVec.xor_comm, xor_swap, xor_cancel, BitVec.xor_self]
  simp

theorem AesCol.unmix_mix (x : AesCol) : x.mix.unmix = x := by
  have h : x = (((AesCol.mk x.a 0 0 0).xor (AesCol.mk 0 x.b 0 0)).xor (AesCol.mk 0 0 x.c 0)).xor (AesCol.mk 0 0 0 x.d) := by
    cases x; simp [AesCol.xor]
  rw [h]
  simp only [AesCol.mix_xor, AesCol.unmix_xor, (AesCol.unmix_mix_one _).1, (AesCol.unmix_mix_one _).2.1,
    (AesCol.unmix_mix_one _).2.2.1, (AesCol.unmix_mix_one _).2.2.2]

theorem AesCol.xor_xor (x y : AesCol) : (x.xor y).xor y = x := by
  cases x; cases y; simp [AesCol.xor, BitVec.xor_assoc]

theorem AesBlock.xor_xor (x y : AesBlock) : (x.xor y).xor y = x := by
  cases x; cases y; simp [AesBlock.xor, AesCol.xor_xor]

theorem AesBlock.unshift_shift (x : AesBlock) : x.shift.unshift = x := rfl

theorem AesBlock.unmix_mix (x : AesBlock) : (x.map AesCol.mix).map AesCol.unmix = x := by
  cases x; simp [AesBlock.map, AesCol.unmix_mix]

theorem AesBlock.unsub_sub (x : AesBlock) : (x.map (·.map subByte)).map (·.map unsubByte) = x := by
  cases x with | mk p q r s => cases p; cases q; cases r; cases s; simp [AesBlock.map, AesCol.map, unsubByte_subByte]

theorem aesUnrounds_aesRounds (ks : List AesBlock) (x : AesBlock) : aesUnrounds ks (aesRounds ks x) = x := by
  induction ks generalizing x with
  | nil => rfl
  | cons k r ih =>
    cases r with
    | nil => simp only [aesRounds, aesUnrounds, AesBlock.xor_xor, AesBlock.unshift_shift, AesBlock.unsub_sub]
    | cons k' r' =>
      rw [aesRounds, aesUnrounds, ih, AesBlock.xor_xor, AesBlock.unmix_mix, AesBlock.unshift_shift, AesBlock.unsub_sub]
      all_goals simp

/-- Decrypting a block under its round keys gives it back. -/
theorem aesDecrypt_aesEncrypt (ks : List AesBlock) (x : AesBlock) : aesDecrypt ks (aesEncrypt ks x) = x := by
  cases ks with
  | nil => rfl
  | cons k r => simp only [aesEncrypt, aesDecrypt, aesUnrounds_aesRounds, AesBlock.xor_xor]

theorem AesBlock.length_bytes (x : AesBlock) : x.bytes.length = 16 := rfl

theorem aesBlock_bytes (x : AesBlock) (r : List Byte) : aesBlock (x.bytes ++ r) = x := rfl

theorem bytes_aesBlock (bs : List Byte) (h : 16 ≤ bs.length) : (aesBlock bs).bytes ++ bs.drop 16 = bs := by
  rcases bs with _ | ⟨b0, _ | ⟨b1, _ | ⟨b2, _ | ⟨b3, _ | ⟨b4, _ | ⟨b5, _ | ⟨b6, _ | ⟨b7, _ | ⟨b8, _ | ⟨b9, _ | ⟨b10, _ | ⟨b11,
    _ | ⟨b12, _ | ⟨b13, _ | ⟨b14, _ | ⟨b15, r⟩⟩⟩⟩⟩⟩⟩⟩⟩⟩⟩⟩⟩⟩⟩⟩
  case cons => rfl
  all_goals simp at h

theorem xtsBlocks_length (f : AesBlock → AesBlock) (n : Nat) (t : BitVec 128) (bs : List Byte) (h : bs.length = 16 * n) :
    (xtsBlocks f n t bs).length = 16 * n := by
  induction n generalizing t bs with
  | zero => exact h
  | succ n ih =>
    have hd : (bs.drop 16).length = 16 * n := by rw [List.length_drop]; omega
    simp only [xtsBlocks, List.length_append, AesBlock.length_bytes, ih _ _ hd]; omega

theorem xtsBlocks_undone (f g : AesBlock → AesBlock) (hg : ∀ x, g (f x) = x) (n : Nat) (t : BitVec 128) (bs : List Byte)
    (h : bs.length = 16 * n) : xtsBlocks g n t (xtsBlocks f n t bs) = bs := by
  induction n generalizing t bs with
  | zero => rfl
  | succ n ih =>
    have hd : (bs.drop 16).length = 16 * n := by rw [List.length_drop]; omega
    simp only [xtsBlocks, aesBlock_bytes, AesBlock.xor_xor, hg]
    rw [List.drop_left' (AesBlock.length_bytes _), ih _ _ hd, bytes_aesBlock _ (by omega)]

/-- Decrypting a data unit of whole blocks under its key and number gives it back. -/
theorem xtsDecrypt_xtsEncrypt (key : BitVec 512) (unit : Nat) (bs : List Byte) (h : bs.length % 16 = 0) :
    xtsDecrypt key unit (xtsEncrypt key unit bs) = bs := by
  have hl : bs.length = 16 * (bs.length / 16) := by omega
  simp only [xtsDecrypt, xtsEncrypt, xtsBlocks_length _ _ _ _ hl, Nat.mul_div_cancel_left _ (show 0 < 16 by decide)]
  exact xtsBlocks_undone _ _ (aesDecrypt_aesEncrypt _) _ _ _ hl

theorem xtsEncrypt_length (key : BitVec 512) (unit : Nat) (bs : List Byte) (h : bs.length % 16 = 0) :
    (xtsEncrypt key unit bs).length = bs.length := by
  have hl : bs.length = 16 * (bs.length / 16) := by omega
  simp only [xtsEncrypt, xtsBlocks_length _ _ _ _ hl]; omega

/-- What an HBM4 write stores for a line reads as its payload, with zero bytes behind it (17 R355). -/
theorem decrypted_encrypted (k : Option (BitVec 512)) (line : Nat) (p : List Byte) (h : p.length % 16 = 0) :
    decrypted k line (encrypted k line p) = p := by
  cases k with
  | none => rfl
  | some k => exact xtsDecrypt_xtsEncrypt _ _ _ h

end Sys2Proof.Machine
end

