-- ==== Sys2Proof/Laws/State.lean ====
section
/-! SUPPORT. What each update of the state leaves of every field: one lemma per field and update. -/

namespace Sys2Proof.Machine

open Sys2Proof

@[simp] theorem State.putThread_teams (s : State) (k : Nat) (t : Thread) : (s.putThread k t).teams = s.teams := rfl
@[simp] theorem State.putThread_cores (s : State) (k : Nat) (t : Thread) : (s.putThread k t).cores = s.cores := rfl
@[simp] theorem State.putThread_clusters (s : State) (k : Nat) (t : Thread) : (s.putThread k t).clusters = s.clusters := rfl
@[simp] theorem State.putThread_dies (s : State) (k : Nat) (t : Thread) : (s.putThread k t).dies = s.dies := rfl
@[simp] theorem State.putThread_parts (s : State) (k : Nat) (t : Thread) : (s.putThread k t).parts = s.parts := rfl
@[simp] theorem State.putThread_dev (s : State) (k : Nat) (t : Thread) : (s.putThread k t).dev = s.dev := rfl
@[simp] theorem State.putThread_agenda (s : State) (k : Nat) (t : Thread) : (s.putThread k t).agenda = s.agenda := rfl
@[simp] theorem State.putThread_issue (s : State) (k : Nat) (t : Thread) : (s.putThread k t).issue = s.issue := rfl
@[simp] theorem State.putThread_count (s : State) (k : Nat) (t : Thread) : (s.putThread k t).count = s.count := rfl
@[simp] theorem State.putThread_fresh (s : State) (k : Nat) (t : Thread) : (s.putThread k t).fresh = s.fresh := rfl
@[simp] theorem State.putThread_grids (s : State) (k : Nat) (t : Thread) : (s.putThread k t).grids = s.grids := rfl
@[simp] theorem State.putThread_queues (s : State) (k : Nat) (t : Thread) : (s.putThread k t).queues = s.queues := rfl
@[simp] theorem State.putThread_conns (s : State) (k : Nat) (t : Thread) : (s.putThread k t).conns = s.conns := rfl
@[simp] theorem State.putThread_ports (s : State) (k : Nat) (t : Thread) : (s.putThread k t).ports = s.ports := rfl
@[simp] theorem State.putThread_pkg (s : State) (k : Nat) (t : Thread) : (s.putThread k t).pkg = s.pkg := rfl
@[simp] theorem State.putThread_tides (s : State) (k : Nat) (t : Thread) : (s.putThread k t).tides = s.tides := rfl
@[simp] theorem State.putThread_replies (s : State) (k : Nat) (t : Thread) : (s.putThread k t).replies = s.replies := rfl
@[simp] theorem State.putThread_off (s : State) (k : Nat) (t : Thread) : (s.putThread k t).off = s.off := rfl

@[simp] theorem State.putTeam_threads (s : State) (k : Nat) (t : Team) : (s.putTeam k t).threads = s.threads := rfl
@[simp] theorem State.putTeam_cores (s : State) (k : Nat) (t : Team) : (s.putTeam k t).cores = s.cores := rfl
@[simp] theorem State.putTeam_clusters (s : State) (k : Nat) (t : Team) : (s.putTeam k t).clusters = s.clusters := rfl
@[simp] theorem State.putTeam_dies (s : State) (k : Nat) (t : Team) : (s.putTeam k t).dies = s.dies := rfl
@[simp] theorem State.putTeam_parts (s : State) (k : Nat) (t : Team) : (s.putTeam k t).parts = s.parts := rfl
@[simp] theorem State.putTeam_dev (s : State) (k : Nat) (t : Team) : (s.putTeam k t).dev = s.dev := rfl
@[simp] theorem State.putTeam_agenda (s : State) (k : Nat) (t : Team) : (s.putTeam k t).agenda = s.agenda := rfl
@[simp] theorem State.putTeam_issue (s : State) (k : Nat) (t : Team) : (s.putTeam k t).issue = s.issue := rfl
@[simp] theorem State.putTeam_count (s : State) (k : Nat) (t : Team) : (s.putTeam k t).count = s.count := rfl
@[simp] theorem State.putTeam_fresh (s : State) (k : Nat) (t : Team) : (s.putTeam k t).fresh = s.fresh := rfl
@[simp] theorem State.putTeam_grids (s : State) (k : Nat) (t : Team) : (s.putTeam k t).grids = s.grids := rfl
@[simp] theorem State.putTeam_queues (s : State) (k : Nat) (t : Team) : (s.putTeam k t).queues = s.queues := rfl
@[simp] theorem State.putTeam_conns (s : State) (k : Nat) (t : Team) : (s.putTeam k t).conns = s.conns := rfl
@[simp] theorem State.putTeam_ports (s : State) (k : Nat) (t : Team) : (s.putTeam k t).ports = s.ports := rfl
@[simp] theorem State.putTeam_pkg (s : State) (k : Nat) (t : Team) : (s.putTeam k t).pkg = s.pkg := rfl
@[simp] theorem State.putTeam_tides (s : State) (k : Nat) (t : Team) : (s.putTeam k t).tides = s.tides := rfl
@[simp] theorem State.putTeam_replies (s : State) (k : Nat) (t : Team) : (s.putTeam k t).replies = s.replies := rfl
@[simp] theorem State.putTeam_off (s : State) (k : Nat) (t : Team) : (s.putTeam k t).off = s.off := rfl

@[simp] theorem State.putCore_threads (s : State) (k : Nat) (t : Core) : (s.putCore k t).threads = s.threads := rfl
@[simp] theorem State.putCore_teams (s : State) (k : Nat) (t : Core) : (s.putCore k t).teams = s.teams := rfl
@[simp] theorem State.putCore_clusters (s : State) (k : Nat) (t : Core) : (s.putCore k t).clusters = s.clusters := rfl
@[simp] theorem State.putCore_dies (s : State) (k : Nat) (t : Core) : (s.putCore k t).dies = s.dies := rfl
@[simp] theorem State.putCore_parts (s : State) (k : Nat) (t : Core) : (s.putCore k t).parts = s.parts := rfl
@[simp] theorem State.putCore_dev (s : State) (k : Nat) (t : Core) : (s.putCore k t).dev = s.dev := rfl
@[simp] theorem State.putCore_agenda (s : State) (k : Nat) (t : Core) : (s.putCore k t).agenda = s.agenda := rfl
@[simp] theorem State.putCore_issue (s : State) (k : Nat) (t : Core) : (s.putCore k t).issue = s.issue := rfl
@[simp] theorem State.putCore_count (s : State) (k : Nat) (t : Core) : (s.putCore k t).count = s.count := rfl
@[simp] theorem State.putCore_fresh (s : State) (k : Nat) (t : Core) : (s.putCore k t).fresh = s.fresh := rfl
@[simp] theorem State.putCore_grids (s : State) (k : Nat) (t : Core) : (s.putCore k t).grids = s.grids := rfl
@[simp] theorem State.putCore_queues (s : State) (k : Nat) (t : Core) : (s.putCore k t).queues = s.queues := rfl
@[simp] theorem State.putCore_conns (s : State) (k : Nat) (t : Core) : (s.putCore k t).conns = s.conns := rfl
@[simp] theorem State.putCore_ports (s : State) (k : Nat) (t : Core) : (s.putCore k t).ports = s.ports := rfl
@[simp] theorem State.putCore_pkg (s : State) (k : Nat) (t : Core) : (s.putCore k t).pkg = s.pkg := rfl
@[simp] theorem State.putCore_tides (s : State) (k : Nat) (t : Core) : (s.putCore k t).tides = s.tides := rfl
@[simp] theorem State.putCore_replies (s : State) (k : Nat) (t : Core) : (s.putCore k t).replies = s.replies := rfl
@[simp] theorem State.putCore_off (s : State) (k : Nat) (t : Core) : (s.putCore k t).off = s.off := rfl

@[simp] theorem State.putDie_threads (s : State) (k : Nat) (t : Die) : (s.putDie k t).threads = s.threads := rfl
@[simp] theorem State.putDie_teams (s : State) (k : Nat) (t : Die) : (s.putDie k t).teams = s.teams := rfl
@[simp] theorem State.putDie_cores (s : State) (k : Nat) (t : Die) : (s.putDie k t).cores = s.cores := rfl
@[simp] theorem State.putDie_clusters (s : State) (k : Nat) (t : Die) : (s.putDie k t).clusters = s.clusters := rfl
@[simp] theorem State.putDie_parts (s : State) (k : Nat) (t : Die) : (s.putDie k t).parts = s.parts := rfl
@[simp] theorem State.putDie_dev (s : State) (k : Nat) (t : Die) : (s.putDie k t).dev = s.dev := rfl
@[simp] theorem State.putDie_agenda (s : State) (k : Nat) (t : Die) : (s.putDie k t).agenda = s.agenda := rfl
@[simp] theorem State.putDie_issue (s : State) (k : Nat) (t : Die) : (s.putDie k t).issue = s.issue := rfl
@[simp] theorem State.putDie_count (s : State) (k : Nat) (t : Die) : (s.putDie k t).count = s.count := rfl
@[simp] theorem State.putDie_fresh (s : State) (k : Nat) (t : Die) : (s.putDie k t).fresh = s.fresh := rfl
@[simp] theorem State.putDie_grids (s : State) (k : Nat) (t : Die) : (s.putDie k t).grids = s.grids := rfl
@[simp] theorem State.putDie_queues (s : State) (k : Nat) (t : Die) : (s.putDie k t).queues = s.queues := rfl
@[simp] theorem State.putDie_conns (s : State) (k : Nat) (t : Die) : (s.putDie k t).conns = s.conns := rfl
@[simp] theorem State.putDie_ports (s : State) (k : Nat) (t : Die) : (s.putDie k t).ports = s.ports := rfl
@[simp] theorem State.putDie_pkg (s : State) (k : Nat) (t : Die) : (s.putDie k t).pkg = s.pkg := rfl
@[simp] theorem State.putDie_tides (s : State) (k : Nat) (t : Die) : (s.putDie k t).tides = s.tides := rfl
@[simp] theorem State.putDie_replies (s : State) (k : Nat) (t : Die) : (s.putDie k t).replies = s.replies := rfl
@[simp] theorem State.putDie_off (s : State) (k : Nat) (t : Die) : (s.putDie k t).off = s.off := rfl

@[simp] theorem State.putCluster_threads (s : State) (k : Nat) (t : Cluster) : (s.putCluster k t).threads = s.threads := rfl
@[simp] theorem State.putCluster_teams (s : State) (k : Nat) (t : Cluster) : (s.putCluster k t).teams = s.teams := rfl
@[simp] theorem State.putCluster_cores (s : State) (k : Nat) (t : Cluster) : (s.putCluster k t).cores = s.cores := rfl
@[simp] theorem State.putCluster_dies (s : State) (k : Nat) (t : Cluster) : (s.putCluster k t).dies = s.dies := rfl
@[simp] theorem State.putCluster_parts (s : State) (k : Nat) (t : Cluster) : (s.putCluster k t).parts = s.parts := rfl
@[simp] theorem State.putCluster_dev (s : State) (k : Nat) (t : Cluster) : (s.putCluster k t).dev = s.dev := rfl
@[simp] theorem State.putCluster_agenda (s : State) (k : Nat) (t : Cluster) : (s.putCluster k t).agenda = s.agenda := rfl
@[simp] theorem State.putCluster_issue (s : State) (k : Nat) (t : Cluster) : (s.putCluster k t).issue = s.issue := rfl
@[simp] theorem State.putCluster_count (s : State) (k : Nat) (t : Cluster) : (s.putCluster k t).count = s.count := rfl
@[simp] theorem State.putCluster_fresh (s : State) (k : Nat) (t : Cluster) : (s.putCluster k t).fresh = s.fresh := rfl
@[simp] theorem State.putCluster_grids (s : State) (k : Nat) (t : Cluster) : (s.putCluster k t).grids = s.grids := rfl
@[simp] theorem State.putCluster_queues (s : State) (k : Nat) (t : Cluster) : (s.putCluster k t).queues = s.queues := rfl
@[simp] theorem State.putCluster_conns (s : State) (k : Nat) (t : Cluster) : (s.putCluster k t).conns = s.conns := rfl
@[simp] theorem State.putCluster_ports (s : State) (k : Nat) (t : Cluster) : (s.putCluster k t).ports = s.ports := rfl
@[simp] theorem State.putCluster_pkg (s : State) (k : Nat) (t : Cluster) : (s.putCluster k t).pkg = s.pkg := rfl
@[simp] theorem State.putCluster_tides (s : State) (k : Nat) (t : Cluster) : (s.putCluster k t).tides = s.tides := rfl
@[simp] theorem State.putCluster_replies (s : State) (k : Nat) (t : Cluster) : (s.putCluster k t).replies = s.replies := rfl
@[simp] theorem State.putCluster_off (s : State) (k : Nat) (t : Cluster) : (s.putCluster k t).off = s.off := rfl

@[simp] theorem State.putPart_threads (s : State) (k : Nat) (t : Partition) : (s.putPart k t).threads = s.threads := rfl
@[simp] theorem State.putPart_teams (s : State) (k : Nat) (t : Partition) : (s.putPart k t).teams = s.teams := rfl
@[simp] theorem State.putPart_cores (s : State) (k : Nat) (t : Partition) : (s.putPart k t).cores = s.cores := rfl
@[simp] theorem State.putPart_clusters (s : State) (k : Nat) (t : Partition) : (s.putPart k t).clusters = s.clusters := rfl
@[simp] theorem State.putPart_dies (s : State) (k : Nat) (t : Partition) : (s.putPart k t).dies = s.dies := rfl
@[simp] theorem State.putPart_dev (s : State) (k : Nat) (t : Partition) : (s.putPart k t).dev = s.dev := rfl
@[simp] theorem State.putPart_agenda (s : State) (k : Nat) (t : Partition) : (s.putPart k t).agenda = s.agenda := rfl
@[simp] theorem State.putPart_issue (s : State) (k : Nat) (t : Partition) : (s.putPart k t).issue = s.issue := rfl
@[simp] theorem State.putPart_count (s : State) (k : Nat) (t : Partition) : (s.putPart k t).count = s.count := rfl
@[simp] theorem State.putPart_fresh (s : State) (k : Nat) (t : Partition) : (s.putPart k t).fresh = s.fresh := rfl
@[simp] theorem State.putPart_grids (s : State) (k : Nat) (t : Partition) : (s.putPart k t).grids = s.grids := rfl
@[simp] theorem State.putPart_queues (s : State) (k : Nat) (t : Partition) : (s.putPart k t).queues = s.queues := rfl
@[simp] theorem State.putPart_conns (s : State) (k : Nat) (t : Partition) : (s.putPart k t).conns = s.conns := rfl
@[simp] theorem State.putPart_ports (s : State) (k : Nat) (t : Partition) : (s.putPart k t).ports = s.ports := rfl
@[simp] theorem State.putPart_pkg (s : State) (k : Nat) (t : Partition) : (s.putPart k t).pkg = s.pkg := rfl
@[simp] theorem State.putPart_tides (s : State) (k : Nat) (t : Partition) : (s.putPart k t).tides = s.tides := rfl
@[simp] theorem State.putPart_replies (s : State) (k : Nat) (t : Partition) : (s.putPart k t).replies = s.replies := rfl
@[simp] theorem State.putPart_off (s : State) (k : Nat) (t : Partition) : (s.putPart k t).off = s.off := rfl

@[simp] theorem State.putConn_threads (s : State) (k : Nat) (t : Conn) : (s.putConn k t).threads = s.threads := rfl
@[simp] theorem State.putConn_teams (s : State) (k : Nat) (t : Conn) : (s.putConn k t).teams = s.teams := rfl
@[simp] theorem State.putConn_cores (s : State) (k : Nat) (t : Conn) : (s.putConn k t).cores = s.cores := rfl
@[simp] theorem State.putConn_clusters (s : State) (k : Nat) (t : Conn) : (s.putConn k t).clusters = s.clusters := rfl
@[simp] theorem State.putConn_dies (s : State) (k : Nat) (t : Conn) : (s.putConn k t).dies = s.dies := rfl
@[simp] theorem State.putConn_parts (s : State) (k : Nat) (t : Conn) : (s.putConn k t).parts = s.parts := rfl
@[simp] theorem State.putConn_dev (s : State) (k : Nat) (t : Conn) : (s.putConn k t).dev = s.dev := rfl
@[simp] theorem State.putConn_agenda (s : State) (k : Nat) (t : Conn) : (s.putConn k t).agenda = s.agenda := rfl
@[simp] theorem State.putConn_issue (s : State) (k : Nat) (t : Conn) : (s.putConn k t).issue = s.issue := rfl
@[simp] theorem State.putConn_count (s : State) (k : Nat) (t : Conn) : (s.putConn k t).count = s.count := rfl
@[simp] theorem State.putConn_fresh (s : State) (k : Nat) (t : Conn) : (s.putConn k t).fresh = s.fresh := rfl
@[simp] theorem State.putConn_grids (s : State) (k : Nat) (t : Conn) : (s.putConn k t).grids = s.grids := rfl
@[simp] theorem State.putConn_queues (s : State) (k : Nat) (t : Conn) : (s.putConn k t).queues = s.queues := rfl
@[simp] theorem State.putConn_ports (s : State) (k : Nat) (t : Conn) : (s.putConn k t).ports = s.ports := rfl
@[simp] theorem State.putConn_pkg (s : State) (k : Nat) (t : Conn) : (s.putConn k t).pkg = s.pkg := rfl
@[simp] theorem State.putConn_tides (s : State) (k : Nat) (t : Conn) : (s.putConn k t).tides = s.tides := rfl
@[simp] theorem State.putConn_replies (s : State) (k : Nat) (t : Conn) : (s.putConn k t).replies = s.replies := rfl
@[simp] theorem State.putConn_off (s : State) (k : Nat) (t : Conn) : (s.putConn k t).off = s.off := rfl

@[simp] theorem State.modQueue_threads (s : State) (k : Nat) (f : Queue → Queue) : (s.modQueue k f).threads = s.threads := rfl
@[simp] theorem State.modQueue_teams (s : State) (k : Nat) (f : Queue → Queue) : (s.modQueue k f).teams = s.teams := rfl
@[simp] theorem State.modQueue_cores (s : State) (k : Nat) (f : Queue → Queue) : (s.modQueue k f).cores = s.cores := rfl
@[simp] theorem State.modQueue_clusters (s : State) (k : Nat) (f : Queue → Queue) : (s.modQueue k f).clusters = s.clusters := rfl
@[simp] theorem State.modQueue_dies (s : State) (k : Nat) (f : Queue → Queue) : (s.modQueue k f).dies = s.dies := rfl
@[simp] theorem State.modQueue_parts (s : State) (k : Nat) (f : Queue → Queue) : (s.modQueue k f).parts = s.parts := rfl
@[simp] theorem State.modQueue_dev (s : State) (k : Nat) (f : Queue → Queue) : (s.modQueue k f).dev = s.dev := rfl
@[simp] theorem State.modQueue_agenda (s : State) (k : Nat) (f : Queue → Queue) : (s.modQueue k f).agenda = s.agenda := rfl
@[simp] theorem State.modQueue_issue (s : State) (k : Nat) (f : Queue → Queue) : (s.modQueue k f).issue = s.issue := rfl
@[simp] theorem State.modQueue_count (s : State) (k : Nat) (f : Queue → Queue) : (s.modQueue k f).count = s.count := rfl
@[simp] theorem State.modQueue_fresh (s : State) (k : Nat) (f : Queue → Queue) : (s.modQueue k f).fresh = s.fresh := rfl
@[simp] theorem State.modQueue_grids (s : State) (k : Nat) (f : Queue → Queue) : (s.modQueue k f).grids = s.grids := rfl
@[simp] theorem State.modQueue_conns (s : State) (k : Nat) (f : Queue → Queue) : (s.modQueue k f).conns = s.conns := rfl
@[simp] theorem State.modQueue_ports (s : State) (k : Nat) (f : Queue → Queue) : (s.modQueue k f).ports = s.ports := rfl
@[simp] theorem State.modQueue_pkg (s : State) (k : Nat) (f : Queue → Queue) : (s.modQueue k f).pkg = s.pkg := rfl
@[simp] theorem State.modQueue_tides (s : State) (k : Nat) (f : Queue → Queue) : (s.modQueue k f).tides = s.tides := rfl
@[simp] theorem State.modQueue_replies (s : State) (k : Nat) (f : Queue → Queue) : (s.modQueue k f).replies = s.replies := rfl
@[simp] theorem State.modQueue_off (s : State) (k : Nat) (f : Queue → Queue) : (s.modQueue k f).off = s.off := rfl

@[simp] theorem State.modPort_threads (s : State) (k : Nat) (f : Port → Port) : (s.modPort k f).threads = s.threads := rfl
@[simp] theorem State.modPort_teams (s : State) (k : Nat) (f : Port → Port) : (s.modPort k f).teams = s.teams := rfl
@[simp] theorem State.modPort_cores (s : State) (k : Nat) (f : Port → Port) : (s.modPort k f).cores = s.cores := rfl
@[simp] theorem State.modPort_clusters (s : State) (k : Nat) (f : Port → Port) : (s.modPort k f).clusters = s.clusters := rfl
@[simp] theorem State.modPort_dies (s : State) (k : Nat) (f : Port → Port) : (s.modPort k f).dies = s.dies := rfl
@[simp] theorem State.modPort_parts (s : State) (k : Nat) (f : Port → Port) : (s.modPort k f).parts = s.parts := rfl
@[simp] theorem State.modPort_dev (s : State) (k : Nat) (f : Port → Port) : (s.modPort k f).dev = s.dev := rfl
@[simp] theorem State.modPort_agenda (s : State) (k : Nat) (f : Port → Port) : (s.modPort k f).agenda = s.agenda := rfl
@[simp] theorem State.modPort_issue (s : State) (k : Nat) (f : Port → Port) : (s.modPort k f).issue = s.issue := rfl
@[simp] theorem State.modPort_count (s : State) (k : Nat) (f : Port → Port) : (s.modPort k f).count = s.count := rfl
@[simp] theorem State.modPort_fresh (s : State) (k : Nat) (f : Port → Port) : (s.modPort k f).fresh = s.fresh := rfl
@[simp] theorem State.modPort_grids (s : State) (k : Nat) (f : Port → Port) : (s.modPort k f).grids = s.grids := rfl
@[simp] theorem State.modPort_queues (s : State) (k : Nat) (f : Port → Port) : (s.modPort k f).queues = s.queues := rfl
@[simp] theorem State.modPort_conns (s : State) (k : Nat) (f : Port → Port) : (s.modPort k f).conns = s.conns := rfl
@[simp] theorem State.modPort_pkg (s : State) (k : Nat) (f : Port → Port) : (s.modPort k f).pkg = s.pkg := rfl
@[simp] theorem State.modPort_tides (s : State) (k : Nat) (f : Port → Port) : (s.modPort k f).tides = s.tides := rfl
@[simp] theorem State.modPort_replies (s : State) (k : Nat) (f : Port → Port) : (s.modPort k f).replies = s.replies := rfl
@[simp] theorem State.modPort_off (s : State) (k : Nat) (f : Port → Port) : (s.modPort k f).off = s.off := rfl

@[simp] theorem State.modCore_threads (s : State) (k : Nat) (f : Core → Core) : (s.modCore k f).threads = s.threads := rfl
@[simp] theorem State.modCore_teams (s : State) (k : Nat) (f : Core → Core) : (s.modCore k f).teams = s.teams := rfl
@[simp] theorem State.modCore_clusters (s : State) (k : Nat) (f : Core → Core) : (s.modCore k f).clusters = s.clusters := rfl
@[simp] theorem State.modCore_dies (s : State) (k : Nat) (f : Core → Core) : (s.modCore k f).dies = s.dies := rfl
@[simp] theorem State.modCore_parts (s : State) (k : Nat) (f : Core → Core) : (s.modCore k f).parts = s.parts := rfl
@[simp] theorem State.modCore_dev (s : State) (k : Nat) (f : Core → Core) : (s.modCore k f).dev = s.dev := rfl
@[simp] theorem State.modCore_agenda (s : State) (k : Nat) (f : Core → Core) : (s.modCore k f).agenda = s.agenda := rfl
@[simp] theorem State.modCore_issue (s : State) (k : Nat) (f : Core → Core) : (s.modCore k f).issue = s.issue := rfl
@[simp] theorem State.modCore_count (s : State) (k : Nat) (f : Core → Core) : (s.modCore k f).count = s.count := rfl
@[simp] theorem State.modCore_fresh (s : State) (k : Nat) (f : Core → Core) : (s.modCore k f).fresh = s.fresh := rfl
@[simp] theorem State.modCore_grids (s : State) (k : Nat) (f : Core → Core) : (s.modCore k f).grids = s.grids := rfl
@[simp] theorem State.modCore_queues (s : State) (k : Nat) (f : Core → Core) : (s.modCore k f).queues = s.queues := rfl
@[simp] theorem State.modCore_conns (s : State) (k : Nat) (f : Core → Core) : (s.modCore k f).conns = s.conns := rfl
@[simp] theorem State.modCore_ports (s : State) (k : Nat) (f : Core → Core) : (s.modCore k f).ports = s.ports := rfl
@[simp] theorem State.modCore_pkg (s : State) (k : Nat) (f : Core → Core) : (s.modCore k f).pkg = s.pkg := rfl
@[simp] theorem State.modCore_tides (s : State) (k : Nat) (f : Core → Core) : (s.modCore k f).tides = s.tides := rfl
@[simp] theorem State.modCore_replies (s : State) (k : Nat) (f : Core → Core) : (s.modCore k f).replies = s.replies := rfl
@[simp] theorem State.modCore_off (s : State) (k : Nat) (f : Core → Core) : (s.modCore k f).off = s.off := rfl

@[simp] theorem State.modDie_threads (s : State) (k : Nat) (f : Die → Die) : (s.modDie k f).threads = s.threads := rfl
@[simp] theorem State.modDie_teams (s : State) (k : Nat) (f : Die → Die) : (s.modDie k f).teams = s.teams := rfl
@[simp] theorem State.modDie_cores (s : State) (k : Nat) (f : Die → Die) : (s.modDie k f).cores = s.cores := rfl
@[simp] theorem State.modDie_clusters (s : State) (k : Nat) (f : Die → Die) : (s.modDie k f).clusters = s.clusters := rfl
@[simp] theorem State.modDie_parts (s : State) (k : Nat) (f : Die → Die) : (s.modDie k f).parts = s.parts := rfl
@[simp] theorem State.modDie_dev (s : State) (k : Nat) (f : Die → Die) : (s.modDie k f).dev = s.dev := rfl
@[simp] theorem State.modDie_agenda (s : State) (k : Nat) (f : Die → Die) : (s.modDie k f).agenda = s.agenda := rfl
@[simp] theorem State.modDie_issue (s : State) (k : Nat) (f : Die → Die) : (s.modDie k f).issue = s.issue := rfl
@[simp] theorem State.modDie_count (s : State) (k : Nat) (f : Die → Die) : (s.modDie k f).count = s.count := rfl
@[simp] theorem State.modDie_fresh (s : State) (k : Nat) (f : Die → Die) : (s.modDie k f).fresh = s.fresh := rfl
@[simp] theorem State.modDie_grids (s : State) (k : Nat) (f : Die → Die) : (s.modDie k f).grids = s.grids := rfl
@[simp] theorem State.modDie_queues (s : State) (k : Nat) (f : Die → Die) : (s.modDie k f).queues = s.queues := rfl
@[simp] theorem State.modDie_conns (s : State) (k : Nat) (f : Die → Die) : (s.modDie k f).conns = s.conns := rfl
@[simp] theorem State.modDie_ports (s : State) (k : Nat) (f : Die → Die) : (s.modDie k f).ports = s.ports := rfl
@[simp] theorem State.modDie_pkg (s : State) (k : Nat) (f : Die → Die) : (s.modDie k f).pkg = s.pkg := rfl
@[simp] theorem State.modDie_tides (s : State) (k : Nat) (f : Die → Die) : (s.modDie k f).tides = s.tides := rfl
@[simp] theorem State.modDie_replies (s : State) (k : Nat) (f : Die → Die) : (s.modDie k f).replies = s.replies := rfl
@[simp] theorem State.modDie_off (s : State) (k : Nat) (f : Die → Die) : (s.modDie k f).off = s.off := rfl

@[simp] theorem State.modCluster_threads (s : State) (k : Nat) (f : Cluster → Cluster) : (s.modCluster k f).threads = s.threads := rfl
@[simp] theorem State.modCluster_teams (s : State) (k : Nat) (f : Cluster → Cluster) : (s.modCluster k f).teams = s.teams := rfl
@[simp] theorem State.modCluster_cores (s : State) (k : Nat) (f : Cluster → Cluster) : (s.modCluster k f).cores = s.cores := rfl
@[simp] theorem State.modCluster_dies (s : State) (k : Nat) (f : Cluster → Cluster) : (s.modCluster k f).dies = s.dies := rfl
@[simp] theorem State.modCluster_parts (s : State) (k : Nat) (f : Cluster → Cluster) : (s.modCluster k f).parts = s.parts := rfl
@[simp] theorem State.modCluster_dev (s : State) (k : Nat) (f : Cluster → Cluster) : (s.modCluster k f).dev = s.dev := rfl
@[simp] theorem State.modCluster_agenda (s : State) (k : Nat) (f : Cluster → Cluster) : (s.modCluster k f).agenda = s.agenda := rfl
@[simp] theorem State.modCluster_issue (s : State) (k : Nat) (f : Cluster → Cluster) : (s.modCluster k f).issue = s.issue := rfl
@[simp] theorem State.modCluster_count (s : State) (k : Nat) (f : Cluster → Cluster) : (s.modCluster k f).count = s.count := rfl
@[simp] theorem State.modCluster_fresh (s : State) (k : Nat) (f : Cluster → Cluster) : (s.modCluster k f).fresh = s.fresh := rfl
@[simp] theorem State.modCluster_grids (s : State) (k : Nat) (f : Cluster → Cluster) : (s.modCluster k f).grids = s.grids := rfl
@[simp] theorem State.modCluster_queues (s : State) (k : Nat) (f : Cluster → Cluster) : (s.modCluster k f).queues = s.queues := rfl
@[simp] theorem State.modCluster_conns (s : State) (k : Nat) (f : Cluster → Cluster) : (s.modCluster k f).conns = s.conns := rfl
@[simp] theorem State.modCluster_ports (s : State) (k : Nat) (f : Cluster → Cluster) : (s.modCluster k f).ports = s.ports := rfl
@[simp] theorem State.modCluster_pkg (s : State) (k : Nat) (f : Cluster → Cluster) : (s.modCluster k f).pkg = s.pkg := rfl
@[simp] theorem State.modCluster_tides (s : State) (k : Nat) (f : Cluster → Cluster) : (s.modCluster k f).tides = s.tides := rfl
@[simp] theorem State.modCluster_replies (s : State) (k : Nat) (f : Cluster → Cluster) : (s.modCluster k f).replies = s.replies := rfl
@[simp] theorem State.modCluster_off (s : State) (k : Nat) (f : Cluster → Cluster) : (s.modCluster k f).off = s.off := rfl

@[simp] theorem State.modPart_threads (s : State) (k : Nat) (f : Partition → Partition) : (s.modPart k f).threads = s.threads := rfl
@[simp] theorem State.modPart_teams (s : State) (k : Nat) (f : Partition → Partition) : (s.modPart k f).teams = s.teams := rfl
@[simp] theorem State.modPart_cores (s : State) (k : Nat) (f : Partition → Partition) : (s.modPart k f).cores = s.cores := rfl
@[simp] theorem State.modPart_clusters (s : State) (k : Nat) (f : Partition → Partition) : (s.modPart k f).clusters = s.clusters := rfl
@[simp] theorem State.modPart_dies (s : State) (k : Nat) (f : Partition → Partition) : (s.modPart k f).dies = s.dies := rfl
@[simp] theorem State.modPart_dev (s : State) (k : Nat) (f : Partition → Partition) : (s.modPart k f).dev = s.dev := rfl
@[simp] theorem State.modPart_agenda (s : State) (k : Nat) (f : Partition → Partition) : (s.modPart k f).agenda = s.agenda := rfl
@[simp] theorem State.modPart_issue (s : State) (k : Nat) (f : Partition → Partition) : (s.modPart k f).issue = s.issue := rfl
@[simp] theorem State.modPart_count (s : State) (k : Nat) (f : Partition → Partition) : (s.modPart k f).count = s.count := rfl
@[simp] theorem State.modPart_fresh (s : State) (k : Nat) (f : Partition → Partition) : (s.modPart k f).fresh = s.fresh := rfl
@[simp] theorem State.modPart_grids (s : State) (k : Nat) (f : Partition → Partition) : (s.modPart k f).grids = s.grids := rfl
@[simp] theorem State.modPart_queues (s : State) (k : Nat) (f : Partition → Partition) : (s.modPart k f).queues = s.queues := rfl
@[simp] theorem State.modPart_conns (s : State) (k : Nat) (f : Partition → Partition) : (s.modPart k f).conns = s.conns := rfl
@[simp] theorem State.modPart_ports (s : State) (k : Nat) (f : Partition → Partition) : (s.modPart k f).ports = s.ports := rfl
@[simp] theorem State.modPart_pkg (s : State) (k : Nat) (f : Partition → Partition) : (s.modPart k f).pkg = s.pkg := rfl
@[simp] theorem State.modPart_tides (s : State) (k : Nat) (f : Partition → Partition) : (s.modPart k f).tides = s.tides := rfl
@[simp] theorem State.modPart_replies (s : State) (k : Nat) (f : Partition → Partition) : (s.modPart k f).replies = s.replies := rfl
@[simp] theorem State.modPart_off (s : State) (k : Nat) (f : Partition → Partition) : (s.modPart k f).off = s.off := rfl

@[simp] theorem State.modConn_threads (s : State) (k : Nat) (f : Conn → Conn) : (s.modConn k f).threads = s.threads := rfl
@[simp] theorem State.modConn_teams (s : State) (k : Nat) (f : Conn → Conn) : (s.modConn k f).teams = s.teams := rfl
@[simp] theorem State.modConn_cores (s : State) (k : Nat) (f : Conn → Conn) : (s.modConn k f).cores = s.cores := rfl
@[simp] theorem State.modConn_clusters (s : State) (k : Nat) (f : Conn → Conn) : (s.modConn k f).clusters = s.clusters := rfl
@[simp] theorem State.modConn_dies (s : State) (k : Nat) (f : Conn → Conn) : (s.modConn k f).dies = s.dies := rfl
@[simp] theorem State.modConn_parts (s : State) (k : Nat) (f : Conn → Conn) : (s.modConn k f).parts = s.parts := rfl
@[simp] theorem State.modConn_dev (s : State) (k : Nat) (f : Conn → Conn) : (s.modConn k f).dev = s.dev := rfl
@[simp] theorem State.modConn_agenda (s : State) (k : Nat) (f : Conn → Conn) : (s.modConn k f).agenda = s.agenda := rfl
@[simp] theorem State.modConn_issue (s : State) (k : Nat) (f : Conn → Conn) : (s.modConn k f).issue = s.issue := rfl
@[simp] theorem State.modConn_count (s : State) (k : Nat) (f : Conn → Conn) : (s.modConn k f).count = s.count := rfl
@[simp] theorem State.modConn_fresh (s : State) (k : Nat) (f : Conn → Conn) : (s.modConn k f).fresh = s.fresh := rfl
@[simp] theorem State.modConn_grids (s : State) (k : Nat) (f : Conn → Conn) : (s.modConn k f).grids = s.grids := rfl
@[simp] theorem State.modConn_queues (s : State) (k : Nat) (f : Conn → Conn) : (s.modConn k f).queues = s.queues := rfl
@[simp] theorem State.modConn_ports (s : State) (k : Nat) (f : Conn → Conn) : (s.modConn k f).ports = s.ports := rfl
@[simp] theorem State.modConn_pkg (s : State) (k : Nat) (f : Conn → Conn) : (s.modConn k f).pkg = s.pkg := rfl
@[simp] theorem State.modConn_tides (s : State) (k : Nat) (f : Conn → Conn) : (s.modConn k f).tides = s.tides := rfl
@[simp] theorem State.modConn_replies (s : State) (k : Nat) (f : Conn → Conn) : (s.modConn k f).replies = s.replies := rfl
@[simp] theorem State.modConn_off (s : State) (k : Nat) (f : Conn → Conn) : (s.modConn k f).off = s.off := rfl

@[simp] theorem State.modPkg_threads (s : State) (f : Pkg → Pkg) : (s.modPkg f).threads = s.threads := rfl
@[simp] theorem State.modPkg_teams (s : State) (f : Pkg → Pkg) : (s.modPkg f).teams = s.teams := rfl
@[simp] theorem State.modPkg_cores (s : State) (f : Pkg → Pkg) : (s.modPkg f).cores = s.cores := rfl
@[simp] theorem State.modPkg_clusters (s : State) (f : Pkg → Pkg) : (s.modPkg f).clusters = s.clusters := rfl
@[simp] theorem State.modPkg_dies (s : State) (f : Pkg → Pkg) : (s.modPkg f).dies = s.dies := rfl
@[simp] theorem State.modPkg_parts (s : State) (f : Pkg → Pkg) : (s.modPkg f).parts = s.parts := rfl
@[simp] theorem State.modPkg_dev (s : State) (f : Pkg → Pkg) : (s.modPkg f).dev = s.dev := rfl
@[simp] theorem State.modPkg_agenda (s : State) (f : Pkg → Pkg) : (s.modPkg f).agenda = s.agenda := rfl
@[simp] theorem State.modPkg_issue (s : State) (f : Pkg → Pkg) : (s.modPkg f).issue = s.issue := rfl
@[simp] theorem State.modPkg_count (s : State) (f : Pkg → Pkg) : (s.modPkg f).count = s.count := rfl
@[simp] theorem State.modPkg_fresh (s : State) (f : Pkg → Pkg) : (s.modPkg f).fresh = s.fresh := rfl
@[simp] theorem State.modPkg_grids (s : State) (f : Pkg → Pkg) : (s.modPkg f).grids = s.grids := rfl
@[simp] theorem State.modPkg_queues (s : State) (f : Pkg → Pkg) : (s.modPkg f).queues = s.queues := rfl
@[simp] theorem State.modPkg_conns (s : State) (f : Pkg → Pkg) : (s.modPkg f).conns = s.conns := rfl
@[simp] theorem State.modPkg_ports (s : State) (f : Pkg → Pkg) : (s.modPkg f).ports = s.ports := rfl
@[simp] theorem State.modPkg_tides (s : State) (f : Pkg → Pkg) : (s.modPkg f).tides = s.tides := rfl
@[simp] theorem State.modPkg_replies (s : State) (f : Pkg → Pkg) : (s.modPkg f).replies = s.replies := rfl
@[simp] theorem State.modPkg_off (s : State) (f : Pkg → Pkg) : (s.modPkg f).off = s.off := rfl

@[simp] theorem State.bumpCore_threads (s : State) (k o n : Nat) : (s.bumpCore k o n).threads = s.threads := rfl
@[simp] theorem State.bumpCore_teams (s : State) (k o n : Nat) : (s.bumpCore k o n).teams = s.teams := rfl
@[simp] theorem State.bumpCore_clusters (s : State) (k o n : Nat) : (s.bumpCore k o n).clusters = s.clusters := rfl
@[simp] theorem State.bumpCore_dies (s : State) (k o n : Nat) : (s.bumpCore k o n).dies = s.dies := rfl
@[simp] theorem State.bumpCore_parts (s : State) (k o n : Nat) : (s.bumpCore k o n).parts = s.parts := rfl
@[simp] theorem State.bumpCore_dev (s : State) (k o n : Nat) : (s.bumpCore k o n).dev = s.dev := rfl
@[simp] theorem State.bumpCore_agenda (s : State) (k o n : Nat) : (s.bumpCore k o n).agenda = s.agenda := rfl
@[simp] theorem State.bumpCore_issue (s : State) (k o n : Nat) : (s.bumpCore k o n).issue = s.issue := rfl
@[simp] theorem State.bumpCore_count (s : State) (k o n : Nat) : (s.bumpCore k o n).count = s.count := rfl
@[simp] theorem State.bumpCore_fresh (s : State) (k o n : Nat) : (s.bumpCore k o n).fresh = s.fresh := rfl
@[simp] theorem State.bumpCore_grids (s : State) (k o n : Nat) : (s.bumpCore k o n).grids = s.grids := rfl
@[simp] theorem State.bumpCore_queues (s : State) (k o n : Nat) : (s.bumpCore k o n).queues = s.queues := rfl
@[simp] theorem State.bumpCore_conns (s : State) (k o n : Nat) : (s.bumpCore k o n).conns = s.conns := rfl
@[simp] theorem State.bumpCore_ports (s : State) (k o n : Nat) : (s.bumpCore k o n).ports = s.ports := rfl
@[simp] theorem State.bumpCore_pkg (s : State) (k o n : Nat) : (s.bumpCore k o n).pkg = s.pkg := rfl
@[simp] theorem State.bumpCore_tides (s : State) (k o n : Nat) : (s.bumpCore k o n).tides = s.tides := rfl
@[simp] theorem State.bumpCore_replies (s : State) (k o n : Nat) : (s.bumpCore k o n).replies = s.replies := rfl
@[simp] theorem State.bumpCore_off (s : State) (k o n : Nat) : (s.bumpCore k o n).off = s.off := rfl

@[simp] theorem State.bumpDie_threads (s : State) (k o n : Nat) : (s.bumpDie k o n).threads = s.threads := rfl
@[simp] theorem State.bumpDie_teams (s : State) (k o n : Nat) : (s.bumpDie k o n).teams = s.teams := rfl
@[simp] theorem State.bumpDie_cores (s : State) (k o n : Nat) : (s.bumpDie k o n).cores = s.cores := rfl
@[simp] theorem State.bumpDie_clusters (s : State) (k o n : Nat) : (s.bumpDie k o n).clusters = s.clusters := rfl
@[simp] theorem State.bumpDie_parts (s : State) (k o n : Nat) : (s.bumpDie k o n).parts = s.parts := rfl
@[simp] theorem State.bumpDie_dev (s : State) (k o n : Nat) : (s.bumpDie k o n).dev = s.dev := rfl
@[simp] theorem State.bumpDie_agenda (s : State) (k o n : Nat) : (s.bumpDie k o n).agenda = s.agenda := rfl
@[simp] theorem State.bumpDie_issue (s : State) (k o n : Nat) : (s.bumpDie k o n).issue = s.issue := rfl
@[simp] theorem State.bumpDie_count (s : State) (k o n : Nat) : (s.bumpDie k o n).count = s.count := rfl
@[simp] theorem State.bumpDie_fresh (s : State) (k o n : Nat) : (s.bumpDie k o n).fresh = s.fresh := rfl
@[simp] theorem State.bumpDie_grids (s : State) (k o n : Nat) : (s.bumpDie k o n).grids = s.grids := rfl
@[simp] theorem State.bumpDie_queues (s : State) (k o n : Nat) : (s.bumpDie k o n).queues = s.queues := rfl
@[simp] theorem State.bumpDie_conns (s : State) (k o n : Nat) : (s.bumpDie k o n).conns = s.conns := rfl
@[simp] theorem State.bumpDie_ports (s : State) (k o n : Nat) : (s.bumpDie k o n).ports = s.ports := rfl
@[simp] theorem State.bumpDie_pkg (s : State) (k o n : Nat) : (s.bumpDie k o n).pkg = s.pkg := rfl
@[simp] theorem State.bumpDie_tides (s : State) (k o n : Nat) : (s.bumpDie k o n).tides = s.tides := rfl
@[simp] theorem State.bumpDie_replies (s : State) (k o n : Nat) : (s.bumpDie k o n).replies = s.replies := rfl
@[simp] theorem State.bumpDie_off (s : State) (k o n : Nat) : (s.bumpDie k o n).off = s.off := rfl

@[simp] theorem State.modThread_teams (s : State) (k : Nat) (f : Thread → Thread) : (s.modThread k f).teams = s.teams := by
  unfold State.modThread; split <;> rfl
@[simp] theorem State.modThread_cores (s : State) (k : Nat) (f : Thread → Thread) : (s.modThread k f).cores = s.cores := by
  unfold State.modThread; split <;> rfl
@[simp] theorem State.modThread_clusters (s : State) (k : Nat) (f : Thread → Thread) : (s.modThread k f).clusters = s.clusters := by
  unfold State.modThread; split <;> rfl
@[simp] theorem State.modThread_dies (s : State) (k : Nat) (f : Thread → Thread) : (s.modThread k f).dies = s.dies := by
  unfold State.modThread; split <;> rfl
@[simp] theorem State.modThread_parts (s : State) (k : Nat) (f : Thread → Thread) : (s.modThread k f).parts = s.parts := by
  unfold State.modThread; split <;> rfl
@[simp] theorem State.modThread_dev (s : State) (k : Nat) (f : Thread → Thread) : (s.modThread k f).dev = s.dev := by
  unfold State.modThread; split <;> rfl
@[simp] theorem State.modThread_agenda (s : State) (k : Nat) (f : Thread → Thread) : (s.modThread k f).agenda = s.agenda := by
  unfold State.modThread; split <;> rfl
@[simp] theorem State.modThread_issue (s : State) (k : Nat) (f : Thread → Thread) : (s.modThread k f).issue = s.issue := by
  unfold State.modThread; split <;> rfl
@[simp] theorem State.modThread_count (s : State) (k : Nat) (f : Thread → Thread) : (s.modThread k f).count = s.count := by
  unfold State.modThread; split <;> rfl
@[simp] theorem State.modThread_fresh (s : State) (k : Nat) (f : Thread → Thread) : (s.modThread k f).fresh = s.fresh := by
  unfold State.modThread; split <;> rfl
@[simp] theorem State.modThread_grids (s : State) (k : Nat) (f : Thread → Thread) : (s.modThread k f).grids = s.grids := by
  unfold State.modThread; split <;> rfl
@[simp] theorem State.modThread_queues (s : State) (k : Nat) (f : Thread → Thread) : (s.modThread k f).queues = s.queues := by
  unfold State.modThread; split <;> rfl
@[simp] theorem State.modThread_conns (s : State) (k : Nat) (f : Thread → Thread) : (s.modThread k f).conns = s.conns := by
  unfold State.modThread; split <;> rfl
@[simp] theorem State.modThread_ports (s : State) (k : Nat) (f : Thread → Thread) : (s.modThread k f).ports = s.ports := by
  unfold State.modThread; split <;> rfl
@[simp] theorem State.modThread_pkg (s : State) (k : Nat) (f : Thread → Thread) : (s.modThread k f).pkg = s.pkg := by
  unfold State.modThread; split <;> rfl
@[simp] theorem State.modThread_tides (s : State) (k : Nat) (f : Thread → Thread) : (s.modThread k f).tides = s.tides := by
  unfold State.modThread; split <;> rfl
@[simp] theorem State.modThread_replies (s : State) (k : Nat) (f : Thread → Thread) : (s.modThread k f).replies = s.replies := by
  unfold State.modThread; split <;> rfl
@[simp] theorem State.modThread_off (s : State) (k : Nat) (f : Thread → Thread) : (s.modThread k f).off = s.off := by
  unfold State.modThread; split <;> rfl

@[simp] theorem State.modTeam_threads (s : State) (k : Nat) (f : Team → Team) : (s.modTeam k f).threads = s.threads := by
  unfold State.modTeam; split <;> rfl
@[simp] theorem State.modTeam_cores (s : State) (k : Nat) (f : Team → Team) : (s.modTeam k f).cores = s.cores := by
  unfold State.modTeam; split <;> rfl
@[simp] theorem State.modTeam_clusters (s : State) (k : Nat) (f : Team → Team) : (s.modTeam k f).clusters = s.clusters := by
  unfold State.modTeam; split <;> rfl
@[simp] theorem State.modTeam_dies (s : State) (k : Nat) (f : Team → Team) : (s.modTeam k f).dies = s.dies := by
  unfold State.modTeam; split <;> rfl
@[simp] theorem State.modTeam_parts (s : State) (k : Nat) (f : Team → Team) : (s.modTeam k f).parts = s.parts := by
  unfold State.modTeam; split <;> rfl
@[simp] theorem State.modTeam_dev (s : State) (k : Nat) (f : Team → Team) : (s.modTeam k f).dev = s.dev := by
  unfold State.modTeam; split <;> rfl
@[simp] theorem State.modTeam_agenda (s : State) (k : Nat) (f : Team → Team) : (s.modTeam k f).agenda = s.agenda := by
  unfold State.modTeam; split <;> rfl
@[simp] theorem State.modTeam_issue (s : State) (k : Nat) (f : Team → Team) : (s.modTeam k f).issue = s.issue := by
  unfold State.modTeam; split <;> rfl
@[simp] theorem State.modTeam_count (s : State) (k : Nat) (f : Team → Team) : (s.modTeam k f).count = s.count := by
  unfold State.modTeam; split <;> rfl
@[simp] theorem State.modTeam_fresh (s : State) (k : Nat) (f : Team → Team) : (s.modTeam k f).fresh = s.fresh := by
  unfold State.modTeam; split <;> rfl
@[simp] theorem State.modTeam_grids (s : State) (k : Nat) (f : Team → Team) : (s.modTeam k f).grids = s.grids := by
  unfold State.modTeam; split <;> rfl
@[simp] theorem State.modTeam_queues (s : State) (k : Nat) (f : Team → Team) : (s.modTeam k f).queues = s.queues := by
  unfold State.modTeam; split <;> rfl
@[simp] theorem State.modTeam_conns (s : State) (k : Nat) (f : Team → Team) : (s.modTeam k f).conns = s.conns := by
  unfold State.modTeam; split <;> rfl
@[simp] theorem State.modTeam_ports (s : State) (k : Nat) (f : Team → Team) : (s.modTeam k f).ports = s.ports := by
  unfold State.modTeam; split <;> rfl
@[simp] theorem State.modTeam_pkg (s : State) (k : Nat) (f : Team → Team) : (s.modTeam k f).pkg = s.pkg := by
  unfold State.modTeam; split <;> rfl
@[simp] theorem State.modTeam_tides (s : State) (k : Nat) (f : Team → Team) : (s.modTeam k f).tides = s.tides := by
  unfold State.modTeam; split <;> rfl
@[simp] theorem State.modTeam_replies (s : State) (k : Nat) (f : Team → Team) : (s.modTeam k f).replies = s.replies := by
  unfold State.modTeam; split <;> rfl
@[simp] theorem State.modTeam_off (s : State) (k : Nat) (f : Team → Team) : (s.modTeam k f).off = s.off := by
  unfold State.modTeam; split <;> rfl

@[simp] theorem State.modGrid_threads (s : State) (k : Nat) (f : Grid → Grid) : (s.modGrid k f).threads = s.threads := by
  unfold State.modGrid; split <;> rfl
@[simp] theorem State.modGrid_teams (s : State) (k : Nat) (f : Grid → Grid) : (s.modGrid k f).teams = s.teams := by
  unfold State.modGrid; split <;> rfl
@[simp] theorem State.modGrid_cores (s : State) (k : Nat) (f : Grid → Grid) : (s.modGrid k f).cores = s.cores := by
  unfold State.modGrid; split <;> rfl
@[simp] theorem State.modGrid_clusters (s : State) (k : Nat) (f : Grid → Grid) : (s.modGrid k f).clusters = s.clusters := by
  unfold State.modGrid; split <;> rfl
@[simp] theorem State.modGrid_dies (s : State) (k : Nat) (f : Grid → Grid) : (s.modGrid k f).dies = s.dies := by
  unfold State.modGrid; split <;> rfl
@[simp] theorem State.modGrid_parts (s : State) (k : Nat) (f : Grid → Grid) : (s.modGrid k f).parts = s.parts := by
  unfold State.modGrid; split <;> rfl
@[simp] theorem State.modGrid_dev (s : State) (k : Nat) (f : Grid → Grid) : (s.modGrid k f).dev = s.dev := by
  unfold State.modGrid; split <;> rfl
@[simp] theorem State.modGrid_agenda (s : State) (k : Nat) (f : Grid → Grid) : (s.modGrid k f).agenda = s.agenda := by
  unfold State.modGrid; split <;> rfl
@[simp] theorem State.modGrid_issue (s : State) (k : Nat) (f : Grid → Grid) : (s.modGrid k f).issue = s.issue := by
  unfold State.modGrid; split <;> rfl
@[simp] theorem State.modGrid_count (s : State) (k : Nat) (f : Grid → Grid) : (s.modGrid k f).count = s.count := by
  unfold State.modGrid; split <;> rfl
@[simp] theorem State.modGrid_fresh (s : State) (k : Nat) (f : Grid → Grid) : (s.modGrid k f).fresh = s.fresh := by
  unfold State.modGrid; split <;> rfl
@[simp] theorem State.modGrid_queues (s : State) (k : Nat) (f : Grid → Grid) : (s.modGrid k f).queues = s.queues := by
  unfold State.modGrid; split <;> rfl
@[simp] theorem State.modGrid_conns (s : State) (k : Nat) (f : Grid → Grid) : (s.modGrid k f).conns = s.conns := by
  unfold State.modGrid; split <;> rfl
@[simp] theorem State.modGrid_ports (s : State) (k : Nat) (f : Grid → Grid) : (s.modGrid k f).ports = s.ports := by
  unfold State.modGrid; split <;> rfl
@[simp] theorem State.modGrid_pkg (s : State) (k : Nat) (f : Grid → Grid) : (s.modGrid k f).pkg = s.pkg := by
  unfold State.modGrid; split <;> rfl
@[simp] theorem State.modGrid_tides (s : State) (k : Nat) (f : Grid → Grid) : (s.modGrid k f).tides = s.tides := by
  unfold State.modGrid; split <;> rfl
@[simp] theorem State.modGrid_replies (s : State) (k : Nat) (f : Grid → Grid) : (s.modGrid k f).replies = s.replies := by
  unfold State.modGrid; split <;> rfl
@[simp] theorem State.modGrid_off (s : State) (k : Nat) (f : Grid → Grid) : (s.modGrid k f).off = s.off := by
  unfold State.modGrid; split <;> rfl

end Sys2Proof.Machine
end

