-- ==== Sys2Proof/Laws/Table.lean ====
section
/-! SUPPORT. What a table and a memory hold after an update, and that the memory operations keep the canonical form. -/

namespace Sys2Proof.Machine

open Sys2Proof

theorem tfind_tput_self {α : Type} (m : List (Nat × α)) (k : Nat) (v : α) : tfind (tput m k v) k = some v := by
  induction m with
  | nil => simp [tput, tfind]
  | cons e r ih =>
    obtain ⟨j, w⟩ := e
    by_cases h : j = k
    · simp [tput, tfind, h]
    · by_cases h2 : k < j
      · simp [tput, tfind, h, h2]
      · simp [tput, tfind, h, h2, ih]

theorem tfind_tput_ne {α : Type} (m : List (Nat × α)) (k i : Nat) (v : α) (hi : i ≠ k) :
    tfind (tput m k v) i = tfind m i := by
  induction m with
  | nil => simp [tput, tfind, Ne.symm hi]
  | cons e r ih =>
    obtain ⟨j, w⟩ := e
    by_cases h : j = k
    · subst h; simp only [tput, ↓reduceIte, tfind, Ne.symm hi]
    · by_cases h2 : k < j
      · simp only [tput, h, h2, ↓reduceIte, tfind, Ne.symm hi]
        by_cases h3 : i < k
        · have h4 : j ≠ i := by omega
          have h5 : i < j := by omega
          simp [h3, h4, h5]
        · simp [h3]
      · simp only [tput, h, h2, ↓reduceIte, tfind, ih]

@[simp] theorem tget_tput_self {α : Type} (m : List (Nat × α)) (k : Nat) (v d : α) : tget (tput m k v) k d = v := by
  simp [tget, tfind_tput_self]

theorem tget_tput_ne {α : Type} (m : List (Nat × α)) (k i : Nat) (v d : α) (hi : i ≠ k) :
    tget (tput m k v) i d = tget m i d := by
  simp [tget, tfind_tput_ne m k i v hi]

theorem tput_tput {α : Type} (m : List (Nat × α)) (k : Nat) (v w : α) : tput (tput m k v) k w = tput m k w := by
  induction m with
  | nil => simp [tput]
  | cons e r ih =>
    obtain ⟨j, x⟩ := e
    by_cases h : j = k
    · simp [tput, h]
    · by_cases h2 : k < j
      · simp [tput, h, h2]
      · simp [tput, h, h2, ih]

theorem risingFrom_mono {α : Type} (m : List (Nat × α)) (a b : Nat) (h : a ≤ b) (hr : risingFrom b m = true) :
    risingFrom a m = true := by
  cases m with
  | nil => rfl
  | cons e r => simp only [risingFrom, Bool.and_eq_true, decide_eq_true_eq] at *; exact ⟨by omega, hr.2⟩

theorem risingFrom_tput {α : Type} (m : List (Nat × α)) (b k : Nat) (v : α) (hb : b ≤ k) (h : risingFrom b m = true) :
    risingFrom b (tput m k v) = true := by
  induction m generalizing b with
  | nil => simp [tput, risingFrom, hb]
  | cons e r ih =>
    obtain ⟨j, w⟩ := e
    simp only [risingFrom, Bool.and_eq_true, decide_eq_true_eq] at h
    by_cases h1 : j = k
    · subst h1; simp [tput, risingFrom, h.1, h.2]
    · by_cases h2 : k < j
      · simp only [tput, h1, h2, ↓reduceIte, risingFrom, Bool.and_eq_true, decide_eq_true_eq]
        exact ⟨hb, by omega, h.2⟩
      · simp only [tput, h1, h2, ↓reduceIte, risingFrom, Bool.and_eq_true, decide_eq_true_eq]
        exact ⟨h.1, ih (j + 1) (by omega) h.2⟩

theorem risingFrom_tdel {α : Type} (m : List (Nat × α)) (b k : Nat) (h : risingFrom b m = true) :
    risingFrom b (tdel m k) = true := by
  induction m generalizing b with
  | nil => simp [tdel, risingFrom]
  | cons e r ih =>
    obtain ⟨j, w⟩ := e
    simp only [risingFrom, Bool.and_eq_true, decide_eq_true_eq] at h
    by_cases h1 : j = k
    · simp only [tdel, h1, ↓reduceIte]; exact risingFrom_mono r b (j + 1) (by omega) h.2
    · by_cases h2 : k < j
      · simp [tdel, h1, h2, risingFrom, h.1, h.2]
      · simp only [tdel, h1, h2, ↓reduceIte, risingFrom, Bool.and_eq_true, decide_eq_true_eq]
        exact ⟨h.1, ih (j + 1) h.2⟩

theorem rising_tput {α : Type} (m : List (Nat × α)) (k : Nat) (v : α) (h : rising m = true) : rising (tput m k v) = true :=
  risingFrom_tput m 0 k v (Nat.zero_le k) h

theorem mem_tput {α : Type} (m : List (Nat × α)) (k : Nat) (v : α) (e : Nat × α) (h : e ∈ tput m k v) : e = (k, v) ∨ e ∈ m := by
  induction m with
  | nil => simp [tput] at h; exact .inl h
  | cons x r ih =>
    obtain ⟨j, w⟩ := x
    by_cases h1 : j = k
    · simp only [tput, h1, ↓reduceIte, List.mem_cons] at h
      exact h.imp id (List.mem_cons_of_mem _)
    · by_cases h2 : k < j
      · simp only [tput, h1, h2, ↓reduceIte, List.mem_cons] at h
        simpa only [List.mem_cons] using h
      · simp only [tput, h1, h2, ↓reduceIte, List.mem_cons] at h
        rcases h with h | h
        · exact .inr (h ▸ List.mem_cons_self)
        · exact (ih h).imp id (List.mem_cons_of_mem _)

theorem mem_tdel {α : Type} (m : List (Nat × α)) (k : Nat) (e : Nat × α) (h : e ∈ tdel m k) : e ∈ m := by
  induction m with
  | nil => simp [tdel] at h
  | cons x r ih =>
    obtain ⟨j, w⟩ := x
    by_cases h1 : j = k
    · simp only [tdel, h1, ↓reduceIte] at h; exact List.mem_cons_of_mem _ h
    · by_cases h2 : k < j
      · simpa only [tdel, h1, h2, ↓reduceIte] using h
      · simp only [tdel, h1, h2, ↓reduceIte, List.mem_cons] at h
        rcases h with h | h
        · exact h ▸ List.mem_cons_self
        · exact List.mem_cons_of_mem _ (ih h)

/-- Writing a byte keeps the canonical form. -/
theorem mput_wf (m : Memory) (a : Nat) (b : Byte) (h : Memory.wf m = true) : Memory.wf (mput m a b) = true := by
  simp only [Memory.wf, Bool.and_eq_true, List.all_eq_true, bne_iff_ne] at *
  unfold mput
  split
  · exact ⟨risingFrom_tdel m 0 a h.1, fun e he => h.2 e (mem_tdel m a e he)⟩
  · refine ⟨risingFrom_tput m 0 a b (Nat.zero_le a) h.1, fun e he => ?_⟩
    rcases mem_tput m a b e he with rfl | he
    · assumption
    · exact h.2 e he

theorem tfind_lt {α : Type} (m : List (Nat × α)) (b k : Nat) (h : risingFrom b m = true) (hk : k < b) : tfind m k = none := by
  cases m with
  | nil => rfl
  | cons e r =>
    obtain ⟨j, w⟩ := e
    simp only [risingFrom, Bool.and_eq_true, decide_eq_true_eq] at h
    have h1 : j ≠ k := by omega
    have h2 : k < j := by omega
    simp [tfind, h1, h2]

theorem tfind_tdel {α : Type} (m : List (Nat × α)) (b k i : Nat) (h : risingFrom b m = true) :
    tfind (tdel m k) i = if i = k then none else tfind m i := by
  induction m generalizing b with
  | nil => simp [tdel, tfind]
  | cons e r ih =>
    obtain ⟨j, w⟩ := e
    simp only [risingFrom, Bool.and_eq_true, decide_eq_true_eq] at h
    by_cases h1 : j = k
    · subst h1
      simp only [tdel, ↓reduceIte, tfind]
      by_cases h2 : i = j
      · subst h2; simp [tfind_lt r (i + 1) i h.2 (by omega)]
      · by_cases h3 : i < j
        · simp [h2, h3, Ne.symm h2, tfind_lt r (j + 1) i h.2 (by omega)]
        · simp [h2, h3, Ne.symm h2]
    · by_cases h2 : k < j
      · simp only [tdel, h1, h2, ↓reduceIte]
        by_cases h3 : i = k
        · subst h3; simp [tfind, h1, h2]
        · simp [h3]
      · simp only [tdel, h1, h2, ↓reduceIte, tfind, ih (j + 1) h.2]
        by_cases h3 : i = k
        · subst h3; simp [h1, h2]
        · simp [h3]

/-- A byte read after a write of one byte. -/
theorem mget_mput (m : Memory) (a i : Nat) (b : Byte) (h : Memory.wf m = true) :
    mget (mput m a b) i = if i = a then b else mget m i := by
  simp only [Memory.wf, Bool.and_eq_true] at h
  unfold mput
  split
  · rename_i hb
    simp only [mget, tget, tfind_tdel m 0 a i h.1]
    split <;> simp [hb]
  · split
    · rename_i h2; subst h2; simp [mget]
    · rename_i h2; exact tget_tput_ne m a i b 0 h2

theorem risingFrom_filter {α : Type} (p : Nat × α → Bool) (m : List (Nat × α)) (b : Nat) (h : risingFrom b m = true) :
    risingFrom b (m.filter p) = true := by
  induction m generalizing b with
  | nil => rfl
  | cons e r ih =>
    simp only [risingFrom, Bool.and_eq_true, decide_eq_true_eq] at h
    simp only [List.filter_cons]
    split
    · simp only [risingFrom, Bool.and_eq_true, decide_eq_true_eq]; exact ⟨h.1, ih _ h.2⟩
    · exact risingFrom_mono _ b (e.1 + 1) (by omega) (ih _ h.2)

/-- Dropping the cells of any addresses keeps the canonical form. -/
theorem filter_wf (p : Nat × Byte → Bool) (m : Memory) (h : Memory.wf m = true) : Memory.wf (m.filter p) = true := by
  simp only [Memory.wf, Bool.and_eq_true, List.all_eq_true, bne_iff_ne] at *
  exact ⟨risingFrom_filter p m 0 h.1, fun e he => h.2 e (List.mem_filter.1 he).1⟩

theorem risingFrom_append {α : Type} (m n : List (Nat × α)) (b c : Nat) (hm : risingFrom b m = true)
    (hn : risingFrom c n = true) (hbc : b ≤ c) (hlt : ∀ e ∈ m, e.1 < c) : risingFrom b (m ++ n) = true := by
  induction m generalizing b with
  | nil => exact risingFrom_mono n b c hbc hn
  | cons e r ih =>
    simp only [risingFrom, Bool.and_eq_true, decide_eq_true_eq, List.cons_append] at *
    refine ⟨hm.1, ih (e.1 + 1) hm.2 ?_ fun x hx => hlt x (List.mem_cons_of_mem _ hx)⟩
    exact hlt e List.mem_cons_self

theorem risingFrom_of_le {α : Type} (m : List (Nat × α)) (b c : Nat) (h : risingFrom b m = true) (hc : ∀ e ∈ m, c ≤ e.1) :
    risingFrom c m = true := by
  cases m with
  | nil => rfl
  | cons e r =>
    simp only [risingFrom, Bool.and_eq_true, decide_eq_true_eq] at *
    exact ⟨hc e List.mem_cons_self, h.2⟩

/-- Writing a range with cells of that range keeps the canonical form. -/
theorem mpatch_wf (m : Memory) (a n : Nat) (cells : Memory) (h : Memory.wf m = true) (hc : Memory.wf cells = true)
    (hin : ∀ e ∈ cells, a ≤ e.1 ∧ e.1 < a + n) : Memory.wf (mpatch m a n cells) = true := by
  simp only [Memory.wf, Bool.and_eq_true, List.all_eq_true, bne_iff_ne] at *
  have hi : risingFrom (a + n) (m.filter fun c => decide (a + n ≤ c.1)) = true :=
    risingFrom_of_le _ 0 (a + n) (risingFrom_filter _ m 0 h.1) fun e he => by simpa using (List.mem_filter.1 he).2
  have mid : risingFrom a (cells ++ m.filter fun c => decide (a + n ≤ c.1)) = true :=
    risingFrom_append _ _ a (a + n) (risingFrom_of_le _ 0 a hc.1 fun e he => (hin e he).1) hi (by omega) fun e he => (hin e he).2
  refine ⟨?_, fun e he => ?_⟩
  · unfold mpatch rising
    rw [List.append_assoc]
    exact risingFrom_append _ _ 0 a (risingFrom_filter _ m 0 h.1) mid (Nat.zero_le a) fun e he => by
      simpa using (List.mem_filter.1 he).2
  · unfold mpatch at he
    simp only [List.mem_append, List.mem_filter] at he
    rcases he with (he | he) | he
    · exact h.2 e he.1
    · exact hc.2 e he
    · exact h.2 e he.1

theorem cellsOf_in (a : Nat) (bs : List Byte) : ∀ e ∈ cellsOf a bs, a ≤ e.1 ∧ e.1 < a + bs.length := by
  induction bs generalizing a with
  | nil => simp [cellsOf]
  | cons b r ih =>
    intro e he
    unfold cellsOf at he
    split at he
    · have := ih (a + 1) e he; simp only [List.length_cons]; omega
    · rcases List.mem_cons.1 he with rfl | he
      · simp
      · have := ih (a + 1) e he; simp only [List.length_cons]; omega

theorem cellsOf_wf (a : Nat) (bs : List Byte) : Memory.wf (cellsOf a bs) = true := by
  have key : ∀ a, risingFrom a (cellsOf a bs) = true ∧ ∀ e ∈ cellsOf a bs, e.2 ≠ 0 := by
    induction bs with
    | nil => simp [cellsOf, risingFrom]
    | cons b r ih =>
      intro a
      unfold cellsOf
      split
      · exact ⟨risingFrom_mono _ a (a + 1) (by omega) (ih (a + 1)).1, (ih (a + 1)).2⟩
      · rename_i hb
        refine ⟨by simp [risingFrom, (ih (a + 1)).1], fun e he => ?_⟩
        rcases List.mem_cons.1 he with rfl | he
        · exact hb
        · exact (ih (a + 1)).2 e he
  simp only [Memory.wf, Bool.and_eq_true, List.all_eq_true, bne_iff_ne]
  exact ⟨risingFrom_mono _ 0 a (Nat.zero_le a) (key a).1, (key a).2⟩

/-- Writing bytes keeps the canonical form. -/
theorem mputs_wf (m : Memory) (a : Nat) (bs : List Byte) (h : Memory.wf m = true) : Memory.wf (mputs m a bs) = true :=
  mpatch_wf m a bs.length _ h (cellsOf_wf a bs) (cellsOf_in a bs)

theorem mzero_wf (m : Memory) (a n : Nat) (h : Memory.wf m = true) : Memory.wf (mzero m a n) = true :=
  mpatch_wf m a n [] h rfl (by simp)

theorem tfind_filter {α : Type} (p : Nat → Bool) (m : List (Nat × α)) (b i : Nat) (h : risingFrom b m = true) :
    tfind (m.filter fun e => p e.1) i = if p i then tfind m i else none := by
  induction m generalizing b with
  | nil => simp [tfind]
  | cons e r ih =>
    obtain ⟨j, w⟩ := e
    simp only [risingFrom, Bool.and_eq_true, decide_eq_true_eq] at h
    simp only [List.filter_cons]
    by_cases hp : p j = true
    · simp only [hp, ↓reduceIte, tfind, ih (j + 1) h.2]
      by_cases h1 : j = i
      · subst h1; simp [hp]
      · by_cases h2 : i < j <;> simp [h1, h2]
    · simp only [hp, Bool.false_eq_true, ↓reduceIte, tfind, ih (j + 1) h.2]
      by_cases h1 : j = i
      · subst h1; simp [hp]
      · by_cases h2 : i < j
        · simp [h1, h2, tfind_lt r (j + 1) i h.2 (by omega)]
        · simp [h1, h2]

theorem mem_of_tfind {α : Type} (m : List (Nat × α)) (k : Nat) (v : α) (h : tfind m k = some v) : (k, v) ∈ m := by
  induction m with
  | nil => simp [tfind] at h
  | cons e r ih =>
    obtain ⟨j, w⟩ := e
    simp only [tfind] at h
    split at h
    · rename_i h1; subst h1; simp only [Option.some.injEq] at h; subst h; exact List.mem_cons_self
    · split at h
      · simp at h
      · exact List.mem_cons_of_mem _ (ih h)

theorem tfind_of_mem {α : Type} (m : List (Nat × α)) (b k : Nat) (v : α) (h : risingFrom b m = true) (hm : (k, v) ∈ m) :
    tfind m k = some v := by
  induction m generalizing b with
  | nil => simp at hm
  | cons e r ih =>
    obtain ⟨j, w⟩ := e
    simp only [risingFrom, Bool.and_eq_true, decide_eq_true_eq] at h
    rcases List.mem_cons.1 hm with he | he
    · obtain ⟨rfl, rfl⟩ := Prod.mk.inj he; simp [tfind]
    · have hf := ih (j + 1) h.2 he
      have h1 : ¬ k < j + 1 := fun hlt => by rw [tfind_lt r (j + 1) k h.2 hlt] at hf; simp at hf
      have h2 : j ≠ k := by omega
      have h3 : ¬ k < j := by omega
      simp only [tfind, h2, h3, ↓reduceIte, hf]

/-- A rising table is its entries. -/
theorem tfind_iff_mem {α : Type} (m : List (Nat × α)) (k : Nat) (v : α) (h : rising m = true) :
    tfind m k = some v ↔ (k, v) ∈ m :=
  ⟨mem_of_tfind m k v, tfind_of_mem m 0 k v h⟩

/-- A range that is written leaves every byte outside it. -/
theorem mget_mpatch_out (m : Memory) (a n i : Nat) (cells : Memory) (h : Memory.wf m = true) (hc : Memory.wf cells = true)
    (hin : ∀ e ∈ cells, a ≤ e.1 ∧ e.1 < a + n) (hi : i < a ∨ a + n ≤ i) : mget (mpatch m a n cells) i = mget m i := by
  have hw := mpatch_wf m a n cells h hc hin
  simp only [Memory.wf, Bool.and_eq_true] at h hw
  unfold mget tget
  congr 1
  apply Option.ext
  intro v
  rw [tfind_iff_mem _ i v hw.1, tfind_iff_mem m i v h.1]
  unfold mpatch
  simp only [List.mem_append, List.mem_filter, decide_eq_true_eq]
  constructor
  · rintro ((he | he) | he)
    · exact he.1
    · have := hin _ he; omega
    · exact he.1
  · intro he
    rcases hi with hi | hi
    · exact .inl (.inl ⟨he, hi⟩)
    · exact .inr ⟨he, hi⟩

/-- A byte in a range that is written is the byte of the cells. -/
theorem mget_mpatch_in (m : Memory) (a n i : Nat) (cells : Memory) (h : Memory.wf m = true) (hc : Memory.wf cells = true)
    (hin : ∀ e ∈ cells, a ≤ e.1 ∧ e.1 < a + n) (hi : a ≤ i ∧ i < a + n) : mget (mpatch m a n cells) i = mget cells i := by
  have hw := mpatch_wf m a n cells h hc hin
  simp only [Memory.wf, Bool.and_eq_true] at hc hw
  unfold mget tget
  congr 1
  apply Option.ext
  intro v
  rw [tfind_iff_mem _ i v hw.1, tfind_iff_mem cells i v hc.1]
  unfold mpatch
  simp only [List.mem_append, List.mem_filter, decide_eq_true_eq]
  constructor
  · rintro ((he | he) | he)
    · omega
    · exact he
    · omega
  · exact fun he => .inl (.inr he)

/-- A store of bytes leaves every byte outside the stored ones. -/
theorem mget_mputs_out (m : Memory) (a i : Nat) (bs : List Byte) (h : Memory.wf m = true) (hi : i < a ∨ a + bs.length ≤ i) :
    mget (mputs m a bs) i = mget m i :=
  mget_mpatch_out m a bs.length i _ h (cellsOf_wf a bs) (cellsOf_in a bs) hi

theorem mget_cellsOf (a : Nat) (bs : List Byte) (k : Nat) (hk : k < bs.length) : mget (cellsOf a bs) (a + k) = bs.getD k 0 := by
  induction bs generalizing a k with
  | nil => simp at hk
  | cons b r ih =>
    have step : ∀ j, j < r.length → mget (cellsOf (a + 1) r) (a + (j + 1)) = r.getD j 0 := fun j hj => by
      have := ih (a + 1) j hj; rwa [show a + 1 + j = a + (j + 1) by omega] at this
    have low : mget (cellsOf (a + 1) r) a = 0 := by
      have hw := cellsOf_wf (a + 1) r
      simp only [Memory.wf, Bool.and_eq_true] at hw
      unfold mget tget
      rw [tfind_lt _ (a + 1) a (risingFrom_of_le _ 0 (a + 1) hw.1 fun e he => (cellsOf_in (a + 1) r e he).1) (by omega)]
      rfl
    unfold cellsOf
    cases k with
    | zero =>
      split
      · rename_i hb; simpa [hb] using low
      · simp [mget, tget, tfind]
    | succ j =>
      have hj : j < r.length := by simpa using hk
      split
      · simpa using step j hj
      · have h1 : a ≠ a + (j + 1) := by omega
        have h2 : ¬ a + (j + 1) < a := by omega
        have := step j hj
        simpa only [mget, tget, tfind, h1, h2, ↓reduceIte, List.getD_cons_succ] using this

/-- A store of bytes puts each in its place. -/
theorem mget_mputs_in (m : Memory) (a k : Nat) (bs : List Byte) (h : Memory.wf m = true) (hk : k < bs.length) :
    mget (mputs m a bs) (a + k) = bs.getD k 0 := by
  unfold mputs
  rw [mget_mpatch_in m a bs.length (a + k) _ h (cellsOf_wf a bs) (cellsOf_in a bs) (by omega), mget_cellsOf a bs k hk]

end Sys2Proof.Machine
end

