-- ==== Sys2Proof/Laws/Issue.lean ====
section
/-! SUPPORT. What the issue of an instruction does: one law for each shared operation of Machine/Ops.lean. -/

namespace Sys2Proof.Machine

open Sys2Proof

theorem State.thread?_putThread (s : State) (k : Nat) (t : Thread) : (s.putThread k t).thread? k = some t :=
  tfind_tput_self _ _ _

theorem State.thread?_putThread_ne (s : State) (k j : Nat) (t : Thread) (h : j ≠ k) :
    (s.putThread k t).thread? j = s.thread? j :=
  tfind_tput_ne _ _ _ _ h

theorem State.modThread_some (s : State) (k : Nat) (t : Thread) (f : Thread → Thread) (h : s.thread? k = some t) :
    s.modThread k f = s.putThread k (f t) := by
  simp [State.modThread, h]

theorem State.core_putThread (s : State) (k c : Nat) (t : Thread) : (s.putThread k t).core c = s.core c := rfl

/-- The retired state: the thread moves on and the core counts it. -/
theorem retireIn_eq (s : State) (c : Ctx) (flag : Option Nat) (h : s.thread? c.tid = some c.t) :
    retireIn c flag s = { issued s c (c.after flag []) with issue := s.issue } := by
  simp only [retireIn, State.modThread_some s c.tid c.t _ h, State.bumpCore, State.modCore, State.putCore, State.putThread,
    bumpAt, issued, Ctx.after, Thread.retire, List.append_nil]
  rfl

theorem Issues.retired {s : State} {tid : Nat} {i : Instr} {c : Ctx} (h : Issues s tid i c) : retireIn c c.raised s = moved s c := by
  have ht : c.tid = tid := by obtain ⟨_, _, sh, _, hc, _⟩ := h; rw [hc]; rfl
  exact retireIn_eq s c c.raised (by rw [ht]; exact h.there)

theorem moved_thread (s : State) (c : Ctx) : (moved s c).thread? c.tid = some (c.after c.raised []) := tfind_tput_self _ _ _

/-- A result put in flight after the retirement. -/
theorem write_retireIn (s : State) (c : Ctx) (flag : Option Nat) (ws : List (Nat × Word)) (h : s.thread? c.tid = some c.t) :
    c.write ws (retireIn c flag s) = { issued s c (c.after flag [c.result ws]) with issue := s.issue } := by
  have ht : (retireIn c flag s).thread? c.tid = some (c.after flag []) := by
    rw [retireIn_eq s c flag h]; exact tfind_tput_self _ _ _
  simp only [Ctx.write, Ctx.fly, State.modThread_some _ _ _ _ ht]
  rw [retireIn_eq s c flag h]
  simp only [State.putThread, issued, tput_tput, Ctx.after, Ctx.result, List.append_nil, storable]
  congr

/-- A set of one thread that comes to its operation: the operation decides. -/
theorem issueEach_ok {s : State} {tid : Nat} {i : Instr} {c : Ctx} {body : Body} {u : State} (h : Issues s tid i c)
    (hb : body c (retireIn c c.raised s) = .ok u) : issueEach i body s = .next { u with issue := [] } := by
  obtain ⟨ha, ht, sh, hs, hc, hk, hp⟩ := h
  have hcls : c.cls = sh.cls := by rw [hc]; rfl
  simp only [issueEach, ha, List.foldl_cons, List.foldl_nil, issueOne, ht, hs, hk, hp]
  rw [← hc]
  simp only [Ctx.raised, hcls] at hb
  rw [hb]

/-- A set of one thread whose operation traps takes the trap. -/
theorem issueEach_error {s : State} {tid : Nat} {i : Instr} {c : Ctx} {body : Body} {tr : Trap} (h : Issues s tid i c)
    (hb : body c (retireIn c c.raised s) = .error tr) :
    issueEach i body s = .next { enterTrap tid c.pc c.next tr s with issue := [] } := by
  obtain ⟨ha, ht, sh, hs, hc, hk, hp⟩ := h
  have hcls : c.cls = sh.cls := by rw [hc]; rfl
  have hpc : c.pc = c.t.pc := by rw [hc]; rfl
  simp only [issueEach, ha, List.foldl_cons, List.foldl_nil, issueOne, ht, hs, hk, hp]
  rw [← hc, hpc]
  simp only [Ctx.raised, hcls] at hb
  rw [hb]

theorem Issues.tid_eq {s : State} {tid : Nat} {i : Instr} {c : Ctx} (h : Issues s tid i c) : c.tid = tid := by
  obtain ⟨_, _, sh, _, hc, _⟩ := h
  rw [hc]; rfl

theorem Issues.f_eq {s : State} {tid : Nat} {i : Instr} {c : Ctx} (h : Issues s tid i c) : c.f = fldsOf i := by
  obtain ⟨_, _, sh, _, hc, _⟩ := h
  rw [hc]; rfl

/-- A meaning that writes registers and does nothing else. -/
theorem issueEach_write {s : State} {tid : Nat} {i : Instr} {c : Ctx} {body : Body} {ws : List (Nat × Word)}
    (h : Issues s tid i c) (hb : ∀ u, body c u = .ok (c.write ws u)) : issueEach i body s = .next (wrote s c ws) := by
  have ht : s.thread? c.tid = some c.t := by rw [h.tid_eq]; exact h.there
  rw [issueEach_ok h (hb _), write_retireIn s c c.raised ws ht]
  rfl

theorem issueEach_put32 {s : State} {tid : Nat} {i : Instr} {c : Ctx} {g : Ctx → Word} (h : Issues s tid i c) :
    issueEach i (put32 g) s = .next (wrote s c (c.to32 (g c))) :=
  issueEach_write h fun _ => rfl

theorem issueEach_put64 {s : State} {tid : Nat} {i : Instr} {c : Ctx} {g : Ctx → DWord} (h : Issues s tid i c) :
    issueEach i (put64 g) s = .next (wrote s c (c.to64 (g c))) :=
  issueEach_write h fun _ => rfl

/-- A guard that is false: the thread moves on and nothing else happens. -/
theorem issueEach_skip {s : State} {tid : Nat} {i : Instr} {c : Ctx} {body : Body} (h : Skips s tid i c) :
    issueEach i body s = .next (issued s c (c.after none [])) := by
  obtain ⟨ha, ht, sh, hs, hc, hk⟩ := h
  have htid : c.tid = tid := by rw [hc]; rfl
  simp only [issueEach, ha, List.foldl_cons, List.foldl_nil, issueOne, ht, hs, hk]
  rw [← hc, retireIn_eq s c none (by rw [htid]; exact ht)]
  rfl

end Sys2Proof.Machine
end

