-- ==== Sys2Proof/Laws/Fetch.lean ====
section
/-! SUPPORT. What reading device memory, walking tables and fetching code leave alone: a part of the state that the home
copies, the dies, the partitions' record counts, the connections and the cores' code caches are no part of. -/

namespace Sys2Proof.Machine

open Sys2Proof

/-- A part of the state that a fetch cannot change. -/
structure Blind {α : Type} (π : State → α) : Prop where
  dev : ∀ (s : State) (x : DevMem), π { s with dev := x } = π s
  dies : ∀ (s : State) (x : Table Die), π { s with dies := x } = π s
  parts : ∀ (s : State) (x : Table Partition), π { s with parts := x } = π s
  conns : ∀ (s : State) (x : Table Conn), π { s with conns := x } = π s
  icache : ∀ (s : State) (k : Nat) (x : Table (List Word)), π (s.putCore k { s.core k with icache := x }) = π s
  tlb : ∀ (s : State) (k : Nat) (x : Table TlbEntry), π (s.putCore k { s.core k with fetchTlb := x }) = π s
  count : ∀ (s : State) (x : Nat), π { s with count := x } = π s
  loop : ∀ (s : State) (k : Nat) (x : Table (List Word)), π (s.putCore k { s.core k with loopBuf := x }) = π s

theorem blind_threads : Blind State.threads := ⟨fun _ _ => rfl, fun _ _ => rfl, fun _ _ => rfl, fun _ _ => rfl,
  fun _ _ _ => rfl, fun _ _ _ => rfl, fun _ _ => rfl, fun _ _ _ => rfl⟩
theorem blind_teams : Blind State.teams := ⟨fun _ _ => rfl, fun _ _ => rfl, fun _ _ => rfl, fun _ _ => rfl,
  fun _ _ _ => rfl, fun _ _ _ => rfl, fun _ _ => rfl, fun _ _ _ => rfl⟩
theorem blind_issue : Blind State.issue := ⟨fun _ _ => rfl, fun _ _ => rfl, fun _ _ => rfl, fun _ _ => rfl,
  fun _ _ _ => rfl, fun _ _ _ => rfl, fun _ _ => rfl, fun _ _ _ => rfl⟩
theorem blind_grids : Blind State.grids := ⟨fun _ _ => rfl, fun _ _ => rfl, fun _ _ => rfl, fun _ _ => rfl,
  fun _ _ _ => rfl, fun _ _ _ => rfl, fun _ _ => rfl, fun _ _ _ => rfl⟩

/-- The storage of a core that programs use. -/
def storage (k : Nat) (s : State) : Memory × Memory × Memory × Memory × Table Nat × Table Command :=
  ((s.core k).pool, (s.core k).tiles, (s.core k).sideBand, (s.core k).banks, (s.core k).tags, (s.core k).cmds)

theorem State.core_putCore_self (s : State) (k : Nat) (v : Core) : (s.putCore k v).core k = v := tget_tput_self _ _ _ _

theorem State.core_putCore_ne (s : State) (k j : Nat) (v : Core) (h : j ≠ k) : (s.putCore k v).core j = s.core j :=
  tget_tput_ne _ _ _ _ _ h

theorem blind_storage (k : Nat) : Blind (storage k) := by
  refine ⟨fun _ _ => rfl, fun _ _ => rfl, fun _ _ => rfl, fun _ _ => rfl, ?_, ?_, fun _ _ => rfl, ?_⟩ <;>
  · intro s j x
    by_cases h : k = j
    · subst h; simp only [storage, State.core_putCore_self]
    · simp only [storage, State.core_putCore_ne _ _ _ _ h]

section
variable {α : Type} {π : State → α}

theorem Blind.conn (h : Blind π) (s : State) (c : Nat) (f : Conn → Conn) : π (s.modConn c f) = π s := h.conns s _
theorem Blind.part (h : Blind π) (s : State) (p : Nat) (f : Partition → Partition) : π (s.modPart p f) = π s := h.parts s _
theorem Blind.die (h : Blind π) (s : State) (d : Nat) (f : Die → Die) : π (s.modDie d f) = π s := h.dies s _
theorem Blind.bump (h : Blind π) (s : State) (d o n : Nat) : π (s.bumpDie d o n) = π s := h.dies s _

theorem Blind.postFault (h : Blind π) (p : Nat) (ws : List DWord) (s : State) : π (postFault p ws s) = π s := by
  unfold Machine.postFault sendRecord sendMsg
  simp only
  repeat' split
  all_goals simp only [h.conn, h.part]

theorem Blind.perturb (h : Blind π) (p : Option Nat) (s : State) : π (perturb p s) = π s := by
  unfold Machine.perturb
  repeat' split
  all_goals simp only [h.part]

theorem Blind.postLineError (h : Blind π) (l : Nat) (s : State) : π (postLineError l s) = π s := by
  unfold Machine.postLineError
  split
  · rfl
  · simp only [h.postFault, h.die]

theorem Blind.takeFree (h : Blind π) (s : State) : π s.takeFree.2 = π s := h.count _ _

theorem Blind.homeFill (h : Blind π) (a : Acc) (l : Nat) (s : State) : π (homeFill a l s) = π s := by
  unfold Machine.homeFill
  simp only
  repeat' split
  all_goals simp only [h.postLineError, h.perturb, h.bump, h.dev]

theorem Blind.homeTouch (h : Blind π) (a : Acc) (l : Nat) (s : State) : π (homeTouch a l s) = π s := by
  unfold Machine.homeTouch
  split
  · rfl
  · exact h.homeFill a l s

theorem Blind.staleEntry (h : Blind π) (d p va lvl pa : Nat) (s : State) : π (staleEntry d p va lvl pa s).2 = π s := by
  unfold Machine.staleEntry
  simp only [State.takeFree]
  repeat' split
  all_goals first | rfl | exact h.count _ _

theorem Blind.walkFrom (h : Blind π) (d p va fuel lvl t : Nat) (s : State) : π (walkFrom d p va fuel lvl t s).2 = π s := by
  induction fuel generalizing lvl t s with
  | zero => rfl
  | succ n ih =>
    have hs := h.staleEntry d p va lvl (t + 8 * walkIndex lvl va) s
    unfold Machine.walkFrom
    split
    · rfl
    · simp only
      split <;> rename_i heq <;> rw [heq] at hs
      · exact (ih _ _ _).trans hs
      · repeat' split
        all_goals simp only [ih, h.die, h.homeTouch, ← hs]

theorem Blind.walk (h : Blind π) (d p va : Nat) (s : State) : π (walk d p va s).2 = π s := by
  unfold Machine.walk
  simp only
  split
  · rfl
  · exact h.walkFrom _ _ _ _ _ _ _

theorem Blind.fetchTranslate (h : Blind π) (c p va : Nat) (s : State) : π (fetchTranslate c p va s).2 = π s := by
  have hw := h.walk (dieOf c) p va s
  unfold Machine.fetchTranslate
  split
  · rfl
  · split <;> rename_i heq
    · rw [heq] at hw; exact hw
    · rw [heq] at hw; exact (h.tlb _ _ _).trans hw

theorem Blind.visFill (h : Blind π) (d : Nat) (a : Acc) (l : Nat) (s : State) : π (visFill d a l s) = π s := by
  unfold Machine.visFill
  simp only [h.die, h.bump, h.homeTouch]

theorem Blind.devTouch (h : Blind π) (d : Nat) (a : Acc) (l : Nat) (s : State) : π (devTouch d a l s) = π s := by
  unfold Machine.devTouch
  repeat' split
  · exact h.homeTouch _ _ _
  · rfl
  · exact h.visFill _ _ _ _

theorem Blind.fold (f : State → Nat → State) (hf : ∀ s l, π (f s l) = π s) (ls : List Nat) (s : State) :
    π (ls.foldl f s) = π s := by
  induction ls generalizing s with
  | nil => rfl
  | cons l r ih => rw [List.foldl_cons, ih, hf]

theorem Blind.devRead (h : Blind π) (d : Nat) (a : Acc) (pa n : Nat) (s : State) : π (devRead d a pa n s).2 = π s :=
  Blind.fold _ (fun s l => h.devTouch d a l s) _ s

theorem Blind.readBlock (h : Blind π) (c b : Nat) (s : State) : π (readBlock c b s).2 = π s := by
  unfold Machine.readBlock
  split
  · rfl
  · rename_i p _
    have ht := h.fetchTranslate c p (32 * b) s
    split <;> rename_i heq <;> rw [heq] at ht
    · exact ht
    · split
      · split
        · exact ht
        · split
          · exact ht
          · simp only
            split <;> exact (h.devRead _ _ _ _ _).trans ht
      · exact ht

theorem Blind.cacheBlock (h : Blind π) (c b : Nat) (w : List Word) (s : State) : π (cacheBlock c b w s) = π s := by
  unfold Machine.cacheBlock
  simp only [State.takeFree]
  split
  · exact h.icache _ _ _
  · exact (h.icache _ _ _).trans (h.count _ _)

theorem Blind.fetchBlock (h : Blind π) (c b : Nat) (s : State) : π (fetchBlock c b s).2 = π s := by
  have hr := h.readBlock c b s
  unfold Machine.fetchBlock
  split
  · rfl
  · split <;> rename_i heq <;> rw [heq] at hr
    · exact hr
    · exact (h.cacheBlock _ _ _ _).trans hr

theorem Blind.checkTarget (h : Blind π) (c : Nat) (a : VAddr) (s : State) : π (checkTarget c a s).2 = π s := by
  have hf := h.fetchBlock c (blockNo a) s
  unfold Machine.checkTarget
  simp only
  split
  · split <;> rename_i heq <;> rw [heq] at hf <;> exact hf
  · split <;> rename_i heq <;> rw [heq] at hf
    · exact hf
    · split <;> exact hf

theorem Blind.loopBlocks (h : Blind π) (c : Nat) (bs : List Nat) (s : State) : π (loopBlocks c bs s).2 = π s := by
  induction bs generalizing s with
  | nil => rfl
  | cons b r ih =>
    have hf := h.fetchBlock c b s
    unfold Machine.loopBlocks
    split <;> rename_i heq <;> rw [heq] at hf
    · exact (ih _).trans hf
    · exact (ih _).trans hf

theorem Blind.loadLoop (h : Blind π) (c : Nat) (p t : VAddr) (s : State) : π (loadLoop c p t s) = π s := by
  unfold Machine.loadLoop
  simp only
  split
  · exact (h.loop _ _ _).trans (h.loopBlocks _ _ _)
  · rfl

end

end Sys2Proof.Machine
end

