-- ==== Sys2Proof/Tests/Slice0.lean ====
section
/-! SUPPORT. Tests: instructions the manual writes out, decoded; one ill-formed term for each check; single steps whose results
the manual gives; and, for each statement that has hypotheses, states that meet them. -/

namespace Sys2Proof.Tests

set_option Elab.async false

open Sys2Proof Sys2Proof.Machine

/-! Decoding. The words are the manual's (chapter in the name). -/

theorem test_decode_ch16_bfe :
    decodeWords 8 [0xBC00084C, 0xA1011] = .instr (.bfe { wait := 0, dist := 1, set := 15, mod := 0x200, vb := 10, va := 16, vd := 17 }) 2 := by decide +kernel
theorem test_decode_ch06_gets :
    decodeWords 8 [0x3C0000EC, 0x10000014] = .instr (.gets { wait := 0, dist := 0, set := 15, mod := 0x10, vb := 0, va := 0, vd := 20 }) 2 := by decide +kernel
theorem test_decode_ch06_eret :
    decodeWords 8 [0x3C0000F8, 0x0] = .instr (.eret { wait := 0, dist := 0, set := 15, mod := 0, vb := 0, va := 0, vd := 0 }) 2 := by decide +kernel
theorem test_decode_ch16_ret :
    decodeWords 8 [0x3C0000E0, 0x1C00] = .instr (.ret { wait := 0, dist := 0, set := 15, mod := 0, vb := 0, va := 28, vd := 0 }) 2 := by decide +kernel
theorem test_decode_ch06_trap :
    decodeWords 8 [0x140, 0x2A0000] = .instr (.trap { wait := 0, dist := 0, m := 0, imm := 0x2A, va := 0, vd := 0 }) 2 := by decide +kernel
theorem test_decode_ch14_ffma_c64 :
    decodeWords 8 [0x1A20, 0xC0003] = .instr (.ffmaC64 { wait := 0, dist := 3, mod := 0, bank := 0, woff := 12, va := 0, vd := 3 }) 2 := by decide +kernel
theorem test_decode_ch14_ffma_i96 :
    decodeWords 8 [0x3C001E1D, 0x7F000202, 0x3DCCCCCD] = .instr (.ffmaI96 { wait := 0, dist := 3, set := 15, mod := 0, pol := 0, guard := 127, vb := 0, va := 2, vd := 2, lit := 0x3DCCCCCD }) 3 := by decide +kernel
theorem test_decode_ch20_imul_i96 :
    decodeWords 8 [0x3C000605, 0x7F00000F, 0x9E3779B9] = .instr (.imulI96 { wait := 0, dist := 0, set := 15, mod := 0, pol := 0, guard := 127, vb := 0, va := 0, vd := 15, lit := 0x9E3779B9 }) 3 := by decide +kernel
theorem test_decode_ch20_sel :
    decodeWords 8 [0x3C000511, 0x60809, 0x7F01] = .instr (.sel { wait := 0, dist := 0, set := 15, mod := 0, vb := 6, va := 8, vd := 9, pol := 0, guard := 127, vc := 1 }) 3 := by decide +kernel
theorem test_decode_ch16_fshl :
    decodeWords 8 [0x3C060519, 0xD0C10, 0x7F0F] = .instr (.fshl { wait := 0x18, dist := 0, set := 15, mod := 0, vb := 13, va := 12, vd := 16, pol := 0, guard := 127, vc := 15 }) 3 := by decide +kernel
theorem test_decode_ch08_lds :
    decodeWords 8 [0x10000B00, 0x100060A] = .instr (.lds { wait := 0, dist := 1, set := 4, mod := 0, off := 0x100, va := 6, vd := 10 }) 2 := by decide +kernel
theorem test_decode_ch08_sts :
    decodeWords 8 [0x3C000B08, 0x180060B] = .instr (.sts { wait := 0, dist := 1, set := 15, mod := 0, off := 0x180, va := 6, vd := 11 }) 2 := by decide +kernel
theorem test_decode_ch08_bwait :
    decodeWords 8 [0x3C00032C, 0xFFFF] = .instr (.bwait { wait := 0, dist := 0, set := 15, mod := 0, off := 0, va := 255, vd := 255 }) 2 := by decide +kernel
theorem test_decode_ch16_ldp :
    decodeWords 8 [0x8000B18, 0x4001619] = .instr (.ldp { wait := 0, dist := 1, set := 2, mod := 0, off := 0x400, va := 22, vd := 25 }) 2 := by decide +kernel
theorem test_decode_ch15_stp :
    decodeWords 8 [0x3C000B1C, 0x1000705] = .instr (.stp { wait := 0, dist := 1, set := 15, mod := 0, off := 0x100, va := 7, vd := 5 }) 2 := by decide +kernel
theorem test_decode_ch16_call :
    decodeWords 8 [0x38000404, 0x387F] = .instr (.call { wait := 0, dist := 0, link := 14, off := 0x38, pol := 0, guard := 127 }) 2 := by decide +kernel
theorem test_decode_ch16_barc :
    decodeWords 8 [0x3C000591, 0x0, 0x7F00] = .instr (.barc { wait := 0, dist := 0, set := 15, mod := 0, vb := 0, va := 0, vd := 0, pol := 0, guard := 127, vc := 0 }) 3 := by decide +kernel
theorem test_decode_ch12_cfence :
    decodeWords 8 [0x3C000595, 0x4A000000, 0x7F00] = .instr (.cfence { wait := 0, dist := 0, set := 15, mod := 0x4A, vb := 0, va := 0, vd := 0, pol := 0, guard := 127, vc := 0 }) 3 := by decide +kernel
theorem test_decode_ch12_xcommit :
    decodeWords 8 [0xC00059D, 0x40000005, 0x7F00] = .instr (.xcommit { wait := 0, dist := 0, set := 3, mod := 0x40, vb := 0, va := 0, vd := 5, pol := 0, guard := 127, vc := 0 }) 3 := by decide +kernel
theorem test_decode_ch19_targ :
    decodeWords 8 [0x5AD, 0xFF01, 0x7F00] = .instr (.targ { wait := 0, dist := 0, set := 0, mod := 0, vb := 0, va := 255, vd := 1, pol := 0, guard := 127, vc := 0 }) 3 := by decide +kernel
theorem test_decode_ch24_trace :
    decodeWords 8 [0x80005B9, 0x50403, 0x7F06] = .instr (.trace { wait := 0, dist := 0, set := 2, mod := 0, vb := 5, va := 4, vd := 3, pol := 0, guard := 127, vc := 6 }) 3 := by decide +kernel
theorem test_decode_ch21_mmac_g :
    decodeWords 8 [0xFC02072E, 0x1400, 0x800, 0x88] = .instr (.mmacG { wait := 0x8, dist := 0, set := 15, mod := 3, vc := 0, vb := 0, va := 20, vd := 0, pol := 0, guard := 8, ve := 0, x := 0x88 }) 4 := by decide +kernel
theorem test_decode_ch27_drain_route :
    decodeWords 8 [0x3C000732, 0x605FF, 0x7FFF, 0x1400200] = .instr (.drainRoute { wait := 0, dist := 0, set := 15, mod := 0, vc := 0, vb := 6, va := 5, vd := 255, pol := 0, guard := 127, ve := 255, x := 0x01400200 }) 4 := by decide +kernel
theorem test_decode_ch11_seal :
    decodeWords 8 [0x400073A, 0x181B, 0x7F00, 0x0] = .instr (.seal { wait := 0, dist := 0, set := 1, mod := 0, vc := 0, vb := 0, va := 24, vd := 27, pol := 0, guard := 127, ve := 0, x := 0 }) 4 := by decide +kernel
theorem test_decode_ch11_cpyg :
    decodeWords 8 [0x3C038746, 0xFF1B1C1D, 0x7F0A, 0x8000] = .instr (.cpyg { wait := 0xE, dist := 0, set := 15, mod := 0, vc := 255, vb := 27, va := 28, vd := 29, pol := 0, guard := 127, ve := 10, x := 0x8000 }) 4 := by decide +kernel
theorem test_decode_ch21_cpy :
    decodeWords 8 [0x7C000742, 0xFF2425FF, 0x7F28, 0x1] = .instr (.cpy { wait := 0, dist := 0, set := 15, mod := 1, vc := 255, vb := 36, va := 37, vd := 255, pol := 0, guard := 127, ve := 40, x := 1 }) 4 := by decide +kernel
theorem test_decode_ch21_cpyst :
    decodeWords 8 [0x3C1DC766, 0x152120FF, 0x7FFF, 0x8000] = .instr (.cpyst { wait := 0x77, dist := 0, set := 15, mod := 0, vc := 21, vb := 33, va := 32, vd := 255, pol := 0, guard := 127, ve := 255, x := 0x8000 }) 4 := by decide +kernel
theorem test_decode_ch12_ringacq :
    decodeWords 8 [0x400076A, 0x1408, 0x7F00, 0x0] = .instr (.ringacq { wait := 0, dist := 0, set := 1, mod := 0, vc := 0, vb := 0, va := 20, vd := 8, pol := 0, guard := 127, ve := 0, x := 0 }) 4 := by decide +kernel
theorem test_decode_ch21_turn :
    decodeWords 8 [0x3C000F72, 0xA09, 0x7F00, 0x0] = .instr (.turn { wait := 0, dist := 1, set := 15, mod := 0, vc := 0, vb := 0, va := 10, vd := 9, pol := 0, guard := 127, ve := 0, x := 0 }) 4 := by decide +kernel
theorem test_decode_ch19_tspawn :
    decodeWords 8 [0x400077E, 0xFF060409, 0x7FFF, 0x0] = .instr (.tspawn { wait := 0, dist := 0, set := 1, mod := 0, vc := 255, vb := 6, va := 4, vd := 9, pol := 0, guard := 127, ve := 255, x := 0 }) 4 := by decide +kernel

/-! Well-formedness. A well-formed term, and one that each check refuses. -/

def a64 (mod : BitVec 10) (vb va vd : Reg) : FA64 := { wait := 0, dist := 0, set := 15, mod := mod, vb := vb, va := va, vd := vd }
def a96 (mod : BitVec 26) (vc vb va vd : Reg) : FA96 :=
  { wait := 0, dist := 0, set := 15, mod := mod, vb := vb, va := va, vd := vd, pol := 0, guard := 127, vc := vc }
def i64 (imm : BitVec 20) (va vd : Reg) : FI64 := { wait := 0, dist := 0, m := 0, imm := imm, va := va, vd := vd }
def i96 (va vd : Reg) (lit : Word) : FI96 :=
  { wait := 0, dist := 0, set := 15, mod := 0, pol := 0, guard := 127, vb := 0, va := va, vd := vd, lit := lit }
def c64 (mod : BitVec 6) (woff : BitVec 14) (va vd : Reg) : FC64 :=
  { wait := 0, dist := 0, mod := mod, bank := 0, woff := woff, va := va, vd := vd }
def m64 (mod : BitVec 2) (off : BitVec 16) (va vd : Reg) : FM64 :=
  { wait := 0, dist := 0, set := 15, mod := mod, off := off, va := va, vd := vd }
def b64 (off : BitVec 24) (guard : BitVec 7) : FB64 := { wait := 0, dist := 0, link := 0, off := off, pol := 0, guard := guard }
def a128 (mod : BitVec 18) (ve vc vb va vd : Reg) (x : Word) : FA128 :=
  { wait := 0, dist := 0, set := 15, mod := mod, vc := vc, vb := vb, va := va, vd := vd, pol := 0, guard := 127, ve := ve, x := x }

theorem test_wf_holds : wellFormed (.iaddA64 (a64 0 1 2 3)) = true ∧ wellFormed (.eret (a64 0 0 0 0)) = true := by decide +kernel
theorem test_wf_unused_field : wellFormed (.fclass (a64 0 1 2 3)) = false := by decide +kernel
theorem test_wf_undefined_bit : wellFormed (.bexp (m64 2 0 0 0)) = false := by decide +kernel
theorem test_wf_set_reserved : wellFormed (.lds { m64 0 0 0 0 with set := 12 }) = false := by decide +kernel
theorem test_wf_set_of_fixed_class : wellFormed (.iaddA64 { a64 0 0 0 0 with set := 1 }) = false := by decide +kernel
theorem test_wf_guard_polarity : wellFormed (.bra { b64 0 127 with pol := 1 }) = false := by decide +kernel
theorem test_wf_guard_not_taken : wellFormed (.tspawn { a128 0 0 0 0 0 0 0 with guard := 3 }) = false := by decide +kernel
theorem test_wf_odd_pair : wellFormed (.iadd64 (a64 0 0 0 1)) = false := by decide +kernel
theorem test_wf_odd_offset : wellFormed (.daddC64 (c64 0 1 0 0)) = false := by decide +kernel
theorem test_wf_reserved_value : wellFormed (.icmpA64 (a64 6 0 0 0)) = false := by decide +kernel
theorem test_wf_unsigned_without_sat : wellFormed (.iaddA64 (a64 0x200 0 0 0)) = false := by decide +kernel
theorem test_wf_bit_of_other_row : wellFormed (.launch (a128 1 0 0 0 0 0 0)) = false := by decide +kernel

/-! A small package: two threads of one team on core 0, that stand at address 0. -/

def wTeam : Team :=
  { grid := 1, part := 0, core := 0, slot := 0, idx := 0, threads := 2, waves := 1, regs := 64, spadP := 1, tiles := 4, handler := 0x20 }
def wThread (num : Nat) (regs : Table Word) : Thread := { newThread 2 wTeam 1 num num 1 0 with regs := regs }
def wGrid : Grid :=
  { part := 0, entryNo := 0, gridId := 0x400, queue := 0, entry := 0, handler := 0x20, threads := 2, regs := 64, spadP := 1, tiles := 4,
    gcg := 0, teams := 1, cohort := 1, config := {}, placed := 1 }
def wCore : Core :=
  { cfg := { slots := 1, waves := 1, regs := 64, spadP := 1, tiles := 4, regG := 1, spadG := 1, gcG := 30 }, grid := some 1, nextSeq := 2,
    icache := [(0, [0, 0, 0, 0, 0, 0, 0, 0]), (1, [0x3C0000F8, 0, 3, 0, 0, 0, 0, 0])] }
def wPart : Partition := { exist := true, clusters := 1, keys := [(0, 1)] }
/-- The package with thread 10 of given registers about to issue, and thread 11. -/
def world (regs : Table Word) : State :=
  { State.reset with
    threads := [(10, wThread 0 regs), (11, wThread 1 [])], teams := [(2, wTeam)], cores := [(0, wCore)], parts := [(0, wPart)],
    issue := [10], fresh := 100, grids := [(1, wGrid)] }

/-- Tables whose one leaf, of 2 MiB, leads the lowest addresses; home lines; partition 0 with block 0 of die 0 and a table. -/
def pt (leaf : Nat) (m : Memory) : Memory :=
  mputs (mputs (mputs m 0 (bytesOf 8 (1 + 4096))) 4096 (bytesOf 8 (1 + 8192))) 8192 (bytesOf 8 leaf)
def homes (ls : List Nat) : Table HomeMeta := ls.map fun l => (l, {})
def granted (ptroot : DWord) (s : State) : State := { s with parts := [(0, { wPart with grant := [0], ptroot := ptroot })] }

/-- What a set of one thread reads as it issues. -/
def cOf (s : State) (tid : Nat) (i : Instr) : Ctx :=
  let t := (s.thread? tid).getD (wThread 0 [])
  ctxOf i (fldsOf i) (((shapeOf t.tm i).map (·.cls)).getD .s) tid t s
/-- A set of one thread comes to its operation. -/
def comes (s : State) (tid : Nat) (i : Instr) : Bool :=
  match s.thread? tid with
  | none => false
  | some t => match shapeOf t.tm i with
    | none => false
    | some sh => s.issue == [tid] && (match checkIssue i sh (fldsOf i) t s.count tid with | .ok g => g | .error _ => false)
        && decide (poisonTrap sh (fldsOf i) t s.count tid = none)

theorem issues_of {s : State} {tid : Nat} {i : Instr} (h : comes s tid i = true) : Issues s tid i (cOf s tid i) := by
  unfold comes at h
  split at h
  · cases h
  · rename_i t ht
    split at h
    · cases h
    · rename_i sh hs
      simp only [Bool.and_eq_true, beq_iff_eq, decide_eq_true_eq] at h
      obtain ⟨⟨h1, h2⟩, h3⟩ := h
      have h2 : checkIssue i sh (fldsOf i) t s.count tid = .ok true := by split at h2 <;> simp_all
      exact ⟨h1, by simp [cOf, ht, ctxOf], sh, by simp [cOf, ht, ctxOf, hs], by simp [cOf, ht, hs, ctxOf], by simpa [cOf, ht, ctxOf] using h2,
        by simpa [cOf, ht, ctxOf] using h3⟩

/-- The next state of an instruction, and a register result that it has put on the way for thread 10. -/
def nextOf (o : Host.Outcome State Fault Refusal) : State := match o with | .next s => s | _ => State.reset
def flown (s : State) (tid r : Nat) : Option Word :=
  ((s.thread? tid).map fun t => t.flight.reverse.findSome? fun e => (e.regs.find? fun w => w.1 == r).map (·.2)).getD none
/-- The result that an instruction of thread 10 brings to a register. -/
def brings (i : Instr) (regs : Table Word) (r : Nat) : Option Word := flown (nextOf (exec i (world regs))) 10 r

/-! Results. The expected values are the manual's own examples, or follow from its formulas by hand. -/

-- 04, the 96-bit addition
theorem test_iadd : brings (.iaddA64 (a64 0 4 0 8)) [(0, 0xFFFFFFFF), (4, 1)] 8 = some 0 := by decide +kernel
theorem test_iaddc : brings (.iaddc (a64 0 4 0 12)) [(0, 0xFFFFFFFF), (4, 1)] 12 = some 1 := by decide +kernel
theorem test_iaddc_carry_in : brings (.iaddc (a64 1 5 1 12)) [(1, 0xFFFFFFFF), (12, 1)] 12 = some 1 := by decide +kernel
theorem test_iadd3 : brings (.iadd3 (a96 0 12 6 2 10)) [(2, 1), (6, 2), (12, 1)] 10 = some 4 := by decide +kernel
theorem test_isub_sat : brings (.isub (a64 0x100 1 0 2)) [(0, 0x80000000), (1, 1)] 2 = some 0x80000000 := by decide +kernel
theorem test_imulh : brings (.imulh (a64 0 1 0 2)) [(0, 0xFFFFFFFF), (1, 2)] 2 = some 0xFFFFFFFF := by decide +kernel
theorem test_imadw : brings (.imadw (a96 0x200 4 1 0 2)) [(0, 0xFFFFFFFF), (1, 0xFFFFFFFF), (4, 1)] 3 = some 0xFFFFFFFE := by decide +kernel
theorem test_iclamp : brings (.iclamp (a96 0 2 1 0 3)) [(0, 5), (1, 9), (2, 7)] 3 = some 7 := by decide +kernel
-- 04 R94, R97, R99, R103
theorem test_lut3 : brings (.lut3 (a96 (0xCA * 1024) 3 2 1 4)) [(1, 0x0000FFFF), (2, 0x00FF00FF), (3, 0x0F0F0F0F)] 4 = some 0x000FF0FF := by
  decide +kernel
theorem test_sar : brings (.shrA64 (a64 0 1 0 2)) [(0, 0x80000000), (1, 32)] 2 = some 0xFFFFFFFF := by decide +kernel
theorem test_bfe : brings (.bfe (a64 0 2 1 3)) [(1, 0xB4D20F3C), (2, 0x0408)] 3 = some 0xFFFFFFFF := by decide +kernel
theorem test_bfe_unsigned : brings (.bfe (a64 0x200 2 1 3)) [(1, 0xB4D20F3C), (2, 0x0408)] 3 = some 0xF := by decide +kernel
theorem test_bsel : brings (.bsel (a96 0 3 2 1 4)) [(1, 0x44332211), (2, 0x88776655), (3, 0x50270400)] 4 = some 0x77FF5511 := by
  decide +kernel
theorem test_clz_zero : brings (.clz (a64 0x80 0 0 2)) [] 2 = some 64 := by decide +kernel
theorem test_icvt : brings (.icvt (a64 0x74 0 2 3)) [(2, 0xFFFFFF38)] 3 = some 0x38 := by decide +kernel
theorem test_icvt_sat : brings (.icvt (a64 0x174 0 2 3)) [(2, 0xFFFFFF38)] 3 = some 0 := by decide +kernel
theorem test_idot_sat : brings (.idot (a96 0x100 2 1 0 3)) [(0, 0x7F7F7F7F), (1, 0x7F7F7F7F), (2, 0x7FFFFFFF)] 3 = some 0x7FFFFFFF := by
  decide +kernel
-- 05 R110, R114, R115, R116, R120, R123
theorem test_fmul_tie : brings (.fmulA64 (a64 0 1 1 3)) [(1, 0x3F800800)] 3 = some 0x3F801000 := by decide +kernel
theorem test_ffma_once : brings (.ffmaA96 (a96 0 2 1 1 5)) [(1, 0x3F800800), (2, 0xBF801000)] 5 = some 0x33800000 := by decide +kernel
theorem test_fadd_zero_down : brings (.faddA64 (a64 3 2 3 6)) [(2, 0xBF801000), (3, 0x3F801000)] 6 = some 0x80000000 := by decide +kernel
theorem test_ffma_tied : brings (.ffmaI64 (i64 0x3DCCC 2 3)) [(2, 0x40000000), (3, 0x3F800000)] 3 = some 0x40066600 := by decide +kernel
theorem test_frnd : brings (.frnd (a64 0 0 1 2)) [(1, 0xBF000000)] 2 = some 0x80000000 := by decide +kernel
theorem test_frnd_away : brings (.frnd (a64 4 0 1 2)) [(1, 0x40200000)] 2 = some 0x40400000 := by decide +kernel
theorem test_fscale_up : brings (.fscale (a64 2 1 0 2)) [(0, 0x3F800000), (1, 0xFFFFFF6A)] 2 = some 1 := by decide +kernel
theorem test_frsq : brings (.frsq { a64 0 0 5 6 with set := 2 }) [(5, 0x40800000)] 6 = some 0x3F000000 := by decide +kernel
theorem test_fmin_zero : brings (.fminA64 (a64 0 1 0 2)) [(0, 0), (1, 0x80000000)] 2 = some 0x80000000 := by decide +kernel
theorem test_fcmp_unordered : brings (.fcmpA64 (a64 1 1 0 2)) [(0, 0x7FC00000)] 2 = some 1 := by decide +kernel
theorem test_hdot2 : brings (.hdot2 (a96 0 2 1 0 3)) [(0, 0x3C000001), (1, 0x10000001), (2, 0x3F800000)] 3 = some 0x3F801000 := by
  decide +kernel
theorem test_f2i : brings (.f2i (a96 (0xD00 + 8 * 3 + 1) 0 0 1 2)) [(1, 0xC348B333)] 2 = some 0xFFFFFF80 := by decide +kernel
theorem test_mfpack : brings (.mfpack (a96 (8 * 19) 16 12 8 20))
    [(8, 0x41880000), (9, 0xBFA00000), (10, 0x43960000), (12, 0x7C8), (16, 0x7F)] 20 = some 0x0078BA58 := by decide +kernel
theorem test_mfunpack : brings (.mfunpack (a96 (8 * 19) 14 12 22 24)) [(12, 0x7C8), (14, 0x81), (22, 0x0069AA48)] 26
    = some 0x43900000 := by decide +kernel

/-! States that meet the hypotheses of the statements. -/

theorem witness_DecodeEncode : wellFormed (.cpy (a128 1 40 255 36 37 255 1)) = true ∧ encode (.cpy (a128 1 40 255 36 37 255 1)) ≠ [] := by
  decide +kernel
theorem witness_EncodeDecode : decodeWords 2 [0x3C000008, 0x0105010C, 7] = .instr (.iaddc (a64 1 5 1 12)) 2 := by decide +kernel
/-- One word for each clause, at the ends of the ranges of unassigned opcodes. -/
theorem witness_FateOfWords :
    decodeWords 8 [0x00000003] = .pad ∧ decodeWords 2 [0x3C000D01, 0x0006020A, 0x00007F0C] = .illegal 1 ∧
    decodeWords 8 [0x3C000000 + 4 * 0x053] = .illegal 2 ∧ decodeWords 8 [0x3C000000 + 4 * 0x1FF + 2] = .illegal 2 ∧
    decodeWords 8 [0x3C000001] = .illegal 3 ∧ decodeWords 8 [0x3C000000 + 4 * 0x052, 0] ≠ .illegal 2 := by decide +kernel

/-- The state with thread 10 changed, and that with the core changed. -/
def withThread (s : State) (f : Thread → Thread) : State := s.modThread 10 f
def withCore (s : State) (f : Core → Core) : State := s.modCore 0 f
def trapped (s : State) (cause detail : Nat) : Bool :=
  decide (((s.thread? 10).map (·.trapCause)).getD 0 = BitVec.ofNat 32 (2 ^ 31 + 65536 * detail + cause))

/-- A reserved encoding, a register at N, and a poisoned source. -/
theorem witness_ChecksTrap :
    plain (.fclass (a64 0 1 0 0)) = true ∧ (shapeOf false (.fclass (a64 0 1 0 0))).map (fun sh => sh.detail (fldsOf (.fclass (a64 0 1 0 0)))) = some (some 4) ∧
    trapped (nextOf (exec (.fclass (a64 0 1 0 0)) (world []))) 1 4 = true ∧
    trapped (nextOf (exec (.iaddA64 (a64 0 63 64 0)) (world []))) 2 64 = true ∧
    trapped (nextOf (exec (.iaddA64 (a64 0 2 1 0)) (withThread (world []) fun t => { t with poison := [2] }))) 0x10 1 = true := by decide +kernel

def skips (s : State) (tid : Nat) (i : Instr) : Bool :=
  match s.thread? tid with
  | none => false
  | some t => match shapeOf t.tm i with
    | none => false
    | some sh => s.issue == [tid] && (match checkIssue i sh (fldsOf i) t s.count tid with | .ok g => !g | .error _ => false)
theorem skips_of {s : State} {tid : Nat} {i : Instr} (h : skips s tid i = true) : Skips s tid i (cOf s tid i) := by
  unfold skips at h
  split at h
  · cases h
  · rename_i t ht
    split at h
    · cases h
    · rename_i sh hs
      simp only [Bool.and_eq_true, beq_iff_eq] at h
      obtain ⟨h1, h2⟩ := h
      have h2 : checkIssue i sh (fldsOf i) t s.count tid = .ok false := by split at h2 <;> simp_all
      exact ⟨h1, by simp [cOf, ht, ctxOf], sh, by simp [cOf, ht, ctxOf, hs], by simp [cOf, ht, hs, ctxOf], by simpa [cOf, ht, ctxOf] using h2⟩
theorem witness_GuardFalse : plain (.sel { a96 0 1 2 3 4 with guard := 5 }) = true ∧
    Skips (world []) 10 (.sel { a96 0 1 2 3 4 with guard := 5 }) (cOf (world []) 10 (.sel { a96 0 1 2 3 4 with guard := 5 })) :=
  ⟨by decide +kernel, skips_of (by decide +kernel)⟩

/-- The two threads stand at IADDC in the core's block 0, and the core is to issue. -/
def standing (ws : List Word) : State :=
  { withCore (world []) (fun c => { c with icache := [(0, ws)] }) with agenda := [.issue 0], issue := [] }
theorem witness_StepRunsDecoded :
    let s := standing [0x3C000008, 0x0105010C, 3, 0, 0, 0, 0, 0]
    let r := settleCore 0 { s with agenda := [] }
    readyStep r 0 = none ∧ nextArrivals r 0 = none ∧
    (nextSet r 0).map (fun x => (x.what, x.members)) = some (.instr (.iaddc (a64 1 5 1 12)) 2, [10, 11]) ∧
    ((nextOf (step s)).thread? 11).map (·.retired) = some 1 := by decide +kernel
theorem witness_StepRunsDecoded_illegal :
    let s := standing [0x3C000001, 0, 0, 0, 0, 0, 0, 0]
    let r := settleCore 0 { s with agenda := [] }
    (nextSet r 0).map (fun x => (x.what, x.members)) = some (.illegal 3, [10, 11]) ∧ trapped (nextOf (step s)) 1 3 = true := by decide +kernel

/-- Results: an instruction of each table comes to its operation, and its table speaks of it. -/
def gives (table : State → Ctx → Instr → Option (List (Nat × Word))) (i : Instr) (regs : Table Word) : Prop :=
  comes (world regs) 10 i = true ∧ (table (world regs) (cOf (world regs) 10 i) i).isSome = true
theorem witness_sums : gives sums (.isub (a64 0x300 1 0 255)) [(1, 1)] := by constructor <;> decide +kernel
theorem witness_products : gives products (.imulC64 (c64 0 16383 1 2)) [(1, 7)] := by constructor <;> decide +kernel
theorem witness_choices : gives choices (.icmp64 (a64 0x205 2 4 7)) [(2, 1)] := by constructor <;> decide +kernel
theorem witness_shifts : gives shifts (.fshr (a96 1 3 2 1 0)) [(3, 0xFFFFFFFF)] := by constructor <;> decide +kernel
theorem witness_fields : gives fields (.lea (a64 0x287 2 4 6)) [(2, 0xFFFFFFFF)] := by constructor <;> decide +kernel
theorem witness_floats : gives floats (.dfmaC64 (c64 0 2 2 4)) [(2, 1)] := by constructor <;> decide +kernel
theorem witness_functions : gives functions (.fsin (a64 0 0 1 2)) [(1, 0x7F800000)] := by constructor <;> decide +kernel
theorem witness_orders : gives orders (.fclass (a64 0 0 1 2)) [(1, 0x7F800001)] := by constructor <;> decide +kernel
theorem witness_packs : gives packs (.hfma2 (a96 0x200 3 2 1 0)) [(1, 0x3F803F80)] := by constructor <;> decide +kernel
theorem witness_converts : gives converts (.mfunpack (a96 (8 * 17) 14 12 22 24)) [(12, 0x101A4)] := by constructor <;> decide +kernel
theorem witness_SetsIssueMemberwise :
    (results (world []) (cOf (world []) 10 (.ineg (a64 0 0 1 2))) (.ineg (a64 0 0 1 2))).isSome = true ∧
    nextOf (exec (.ineg (a64 0 0 1 2)) { world [(1, 5)] with issue := [10, 11] })
      = nextOf (exec (.ineg (a64 0 0 1 2)) { nextOf (exec (.ineg (a64 0 0 1 2)) (world [(1, 5)])) with issue := [11] }) := by decide +kernel
theorem witness_BitwiseResults : comes (world []) 10 (.brev (a64 0x80 0 2 4)) = true ∧ comes (world []) 10 (.brev (a64 0 0 3 5)) = true ∧
    comes (world []) 10 (.lut3 (a96 (255 * 1024) 3 2 1 0)) = true ∧ comes (world []) 10 (.bsel (a96 0 3 2 1 0)) = true := by decide +kernel
theorem witness_PackedResults : comes (world [(3, 0x80000000)]) 10 (.hdot2 (a96 0x200 3 2 1 0)) = true ∧
    brings (.hdot2 (a96 0x200 3 2 1 0)) [(3, 0x80000000)] 0 = some 0x80000000 := by decide +kernel
def badBank : State := withCore (world []) fun c => { c with bankPoison := [16383] }
theorem witness_BankPoisonTraps : comes badBank 10 (.iaddC64 (c64 0 16383 1 2)) = true ∧ (bankWord badBank 0 0 (4 * 16383)).2 = true ∧
    trapped (nextOf (exec (.iaddC64 (c64 0 16383 1 2)) badBank)) 0x10 4 = true := by decide +kernel
theorem witness_InvalidRecordTraps : comes (world []) 10 (.mfpack (a96 (8 * 19) 16 12 8 20)) = true ∧ recValid 19 0 = false ∧
    trapped (nextOf (exec (.mfpack (a96 (8 * 19) 16 12 8 20)) (world []))) 7 3 = true := by decide +kernel

/-- The block at 0x20 is held: ERET at its first word, then a pad word. -/
theorem witness_TransfersTaken : comes (world []) 10 (.call (b64 8 127)) = true ∧
    let c := cOf (world []) 10 (.call (b64 8 127))
    transferOf c (.call (b64 8 127)) = some (0x20, some 0) ∧ (checkTarget 0 0x20 (moved (world []) c)).1 = none ∧
    ((nextOf (exec (.call (b64 8 127)) (world []))).thread? 10).map (·.pc) = some 0x20 := by decide +kernel
theorem witness_TransfersTrapped : comes (world [(2, 0x24)]) 10 (.brx (a64 0 0 2 0)) = true ∧
    let c := cOf (world [(2, 0x24)]) 10 (.brx (a64 0 0 2 0))
    (checkTarget 0 0x24 (moved (world [(2, 0x24)]) c)).1.isSome = true ∧
    trapped (nextOf (exec (.brx (a64 0 0 2 0)) (world [(2, 0x24)]))) 3 1 = true := by decide +kernel
/-- The manual's block at 0x1000, and a target in each of its words (03 R64). -/
theorem test_instruction_starts : startsFrom 8 0 [0x3C001E1D, 0x7F000202, 0x3DCCCCCD, 0x3C000008, 0x0105010C, 3, 3, 3] = [0, 3] := by
  decide +kernel
theorem witness_TargetCheck : heldBlock (world []) 0 1 = some [0x3C0000F8, 0, 3, 0, 0, 0, 0, 0] ∧
    (checkTarget 0 0x3C (world [])).1.map (·.detail) = some 7 ∧ (checkTarget 0 0x22 (world [])).1.map (·.detail) = some 128 := by decide +kernel
theorem witness_InstructionStarts : 0 ∈ startsFrom 8 0 [0x3C0000F8, 0, 3, 0, 0, 0, 0, 0] := by decide +kernel
theorem witness_PlainControl : comes (world []) 10 (.adr (i64 0xFFFFF 0 2)) = true ∧ comes (world []) 10 (.nop (a64 0 0 0 0)) = true ∧
    comes (world []) 10 (.sleep (i64 0xFFFF 0 0)) = true ∧ comes (world []) 10 (.exit (a64 0 0 0 0)) = true ∧
    brings (.adr (i64 0xFFFFF 0 2)) [] 3 = some 0x00FFFFFF := by decide +kernel
theorem witness_InstructionInvalidate : comes (world [(2, 0x20), (3, 0), (4, 32)]) 10 (.icinv (a64 0 4 2 0)) = true ∧
    ((nextOf (exec (.icinv (a64 0 4 2 0)) (world [(2, 0x20), (3, 0), (4, 32)]))).core 0).icache = [(0, [0, 0, 0, 0, 0, 0, 0, 0])] := by decide +kernel
theorem witness_SpecialRegisters : comes (world []) 10 (.gets (a64 0x21 0 0 2)) = true ∧
    comes (world [(2, 5)]) 10 (.sets (a64 0x0A 0 2 0)) = true ∧ brings (.gets (a64 0x03 0 0 2)) [] 2 = some 0x10002 := by decide +kernel
/-- 06, the worked trap: EPC is the next start, TRAPADDR the immediate, and the cause word as the handler reads it. -/
theorem test_trap : ((nextOf (exec (.trap (i64 0x2A 0 0)) (world []))).thread? 10).map (fun t => (t.trapCause, t.epc, t.trapAddr, t.pc))
    = some (0x802A0005, 8, 0x2A, 0x20) := by decide +kernel
def captured : State := { world [] with parts := [(0, { wPart with dbgctl := 4 })] }
theorem witness_SoftwareTrap : comes (world []) 10 (.trap (i64 0xFFFFF 0 0)) = true ∧ comes (world []) 10 (.bkpt (a64 0xFF 0 0 0)) = true ∧
    comes captured 10 (.bkpt (a64 0xFF 0 0 0)) = true ∧
    comes (withThread captured fun t => { t with pastBreak := true }) 10 (.bkpt (a64 0xFF 0 0 0)) = true ∧
    ((nextOf (exec (.bkpt (a64 0xFF 0 0 0)) captured)).thread? 10).map (·.halted) = some .atBreak ∧
    ((nextOf (exec (.bkpt (a64 0xFF 0 0 0)) captured)).part 0).dbgsent = 1 := by decide +kernel
theorem witness_TrapEntry : (world []).team? 2 = some wTeam ∧ wTeam.handler ≠ 0 ∧ (checkTarget 0 wTeam.handler (world [])).1 = none := by
  decide +kernel
def inTrap (s : State) : State := withThread s fun t => { t with trapCause := 0x80010005, epc := 0x20 }
theorem witness_DoubleFaultKills :
    ((inTrap (world [])).thread? 10).map (·.trapCause.getLsbD 31) = some true ∧
    ((enterTrap 10 0 8 { cause := 5, detail := 0, addr := 0 } (inTrap (world []))).team? 2).map (·.killReq) = some true ∧
    ((enterTrap 10 0 8 { cause := 5, detail := 0, addr := 0 } (inTrap (world []))).part 0).fqsent = 1 := by decide +kernel
theorem witness_ReturnFromTrap : comes (inTrap (world [])) 10 (.eret (a64 0 0 0 0)) = true ∧
    (checkTarget 0 0x20 (moved (inTrap (world [])) (cOf (inTrap (world [])) 10 (.eret (a64 0 0 0 0))))).1 = none ∧
    ((nextOf (exec (.eret (a64 0 0 0 0)) (inTrap (world [])))).thread? 10).map (fun t => (t.trapCause, t.pc)) = some (0x10005, 0x20) := by
  decide +kernel

/-! Scratchpad, peers, buoys. The region of the team is the core's pool from 0x10000 on. -/

def pooled (bs : Memory) (regs : Table Word) : State := withCore (world regs) fun c => { c with pool := bs }
def fits' (s : State) (i : Instr) (a n : Nat) : Bool := comes s 10 i && decide (a % n = 0 ∧ a + n ≤ 4096)
/-- The completion of the first result that thread 10 has on the way, and what it leaves in a register. -/
def completed (u : State) : State := nextOf (exec (.instructionCompletion 10 0) u)
def brought (u : State) (r : Nat) : Word := ((completed u).thread? 10).elim 0 fun t => tget t.regs r 0
/-- The thread and its result at a place, and an access of its core. -/
def tOf (s : State) (tid : Nat) : Thread := (s.thread? tid).getD (wThread 0 [])
def eOf (s : State) (tid k : Nat) : InFlight :=
  ((tOf s tid).flight[k]?).getD { cls := .v, ready := 0, flag := none, regs := [], poison := [], sreg := none, wait := .free }
def aOf (s : State) (core key : Nat) : Access :=
  (tfind (s.core core).accs key).getD { thread := 0, team := 0, core := 0, off := 0, size := 0, op := .store [] false, prior := [] }
def due (s : State) (tid k : Nat) : Bool :=
  (s.thread? tid).isSome && (tOf s tid).flight[k]?.isSome && decide ((eOf s tid k).cls = .v) && decide ((eOf s tid k).sreg = none)
    && !(s.core (tOf s tid).core).begun
theorem due_of {s : State} {tid k : Nat} (h : due s tid k = true) : Due s tid k (tOf s tid) (eOf s tid k) := by
  simp only [due, Bool.and_eq_true, decide_eq_true_eq, Bool.not_eq_true'] at h
  obtain ⟨⟨⟨⟨h1, h2⟩, h3⟩, h4⟩, h5⟩ := h
  refine ⟨?_, ?_, h3, .inl h4, h5⟩
  · obtain ⟨t, ht⟩ := Option.isSome_iff_exists.1 h1
    simp [tOf, ht]
  · obtain ⟨e, he⟩ := Option.isSome_iff_exists.1 h2
    simp [eOf, he]
def accDue (s : State) (tid k key : Nat) : Bool :=
  due s tid k && decide ((eOf s tid k).wait = .access key) && (tfind (s.core (tOf s tid).core).accs key).isSome
    && (aOf s (tOf s tid).core key).prior.all (fun p => !accPending s p) && Memory.wf (s.core (aOf s (tOf s tid).core key).core).pool
theorem accDue_of {s : State} {tid k key : Nat} (h : accDue s tid k key = true) :
    AccessDue s tid k (tOf s tid) (eOf s tid k) key (aOf s (tOf s tid).core key) := by
  simp only [accDue, Bool.and_eq_true, decide_eq_true_eq, List.all_eq_true, Bool.not_eq_true'] at h
  obtain ⟨⟨⟨⟨h1, h2⟩, h3⟩, h4⟩, h5⟩ := h
  refine ⟨due_of h1, h2, ?_, h4, h5⟩
  obtain ⟨a, ha⟩ := Option.isSome_iff_exists.1 h3
  simp [aOf, ha]
/-- The access that an instruction of thread 10 begins is due, and it is of this operation. -/
def begun (u : State) (op : AccessOp) : Bool := accDue u 10 0 100 && decide ((aOf u 0 100).op = op)
theorem witness_ScratchpadLoads :
    fits' (pooled [(0x10FFF, 0x80)] [(1, 0x1000)]) (.lds (m64 2 0xFFF0 1 4)) (cOf (world [(1, 0x1000)]) 10 (.lds (m64 2 0xFFF0 1 4))).eaM 16 = true ∧
    comes (world [(1, 0xFFE)]) 10 (.ldsNarrow (m64 3 0 1 4)) = true := by
  decide +kernel
theorem witness_ScratchpadLoads_completion :
    begun (nextOf (exec (.ldsNarrow (m64 3 0 1 4)) (pooled [(0x10FFF, 0x80)] [(1, 0xFFE)]))) (.load [(4, 0, 2, true)] false) = true := by
  decide +kernel
theorem test_lds_signed : brought (nextOf (exec (.ldsNarrow (m64 3 0 1 4)) (pooled [(0x10FFF, 0x80)] [(1, 0xFFE)]))) 4 = 0xFFFF8000 := by
  decide +kernel
theorem test_lds_quad : brought (nextOf (exec (.lds (m64 2 0xFFF0 1 4)) (pooled [(0x10FFF, 0x80)] [(1, 0x1000)]))) 7 = 0x80000000 := by
  decide +kernel
theorem witness_ScratchpadStores :
    comes (world [(1, 0x10), (4, 0x01020304)]) 10 (.sts (m64 1 0 1 4)) = true ∧ comes (world [(1, 0xFFF)]) 10 (.stsNarrow (m64 0 0 1 4)) = true ∧
    let u := nextOf (exec (.sts (m64 1 0 1 4)) (world [(1, 0x10), (4, 0x01020304)]))
    begun u (.store [4, 3, 2, 1, 0, 0, 0, 0] false) = true ∧ (u.core 0).pool = [] ∧
    ((completed u).core 0).pool = [(0x10010, 4), (0x10011, 3), (0x10012, 2), (0x10013, 1)] := by decide +kernel
theorem witness_ScratchpadRangeTraps :
    trapped (nextOf (exec (.lds (m64 1 0 1 4)) (world [(1, 4)]))) 0xA 1 = true ∧
    trapped (nextOf (exec (.stsNarrow (m64 1 0 1 4)) (world [(1, 4096)]))) 0xA 0 = true ∧
    trapped (nextOf (exec (.atoms (a96 (16 + 1024 * 0xFFFC) 0 2 1 4)) (world [(1, 4)]))) 0xA 0 = false ∧
    trapped (nextOf (exec (.cass (a96 16 0 2 1 4)) (world [(1, 4092)]))) 0xA 1 = true ∧
    trapped (nextOf (exec (.bexp (m64 0 0 1 4)) (world [(1, 4096)]))) 0xA 0 = true := by decide +kernel
def banked : State := withCore (world [(1, 0xFFFC)]) fun c => { c with banks := [(0xFFFF, 0x12)] }
theorem witness_ConstantLoads :
    comes banked 10 (.ldc (m64 0 3 1 4)) = true ∧ (cOf banked 10 (.ldc (m64 0 3 1 4))).eaM / 4 * 4 = 0xFFFC ∧
    flown (nextOf (exec (.ldc (m64 0 3 1 4)) banked)) 10 4 = some 0x12000000 ∧
    flown (nextOf (exec (.ldc (m64 0 4 1 4)) banked)) 10 4 = some 0 ∧
    flown (nextOf (exec (.ldcB64 (m64 0 0 1 4)) banked)) 10 5 = some 0x12000000 := by decide +kernel
/-- A fence behind a store that is under way, and then behind none. -/
theorem witness_ConstantLoads_fence :
    let s := { nextOf (exec (.sts (m64 0 0 1 4)) (world [(1, 0x10)])) with issue := [10] }
    let u := nextOf (exec (.fences (a96 0x160 0 0 0 0)) s)
    comes s 10 (.fences (a96 0x160 0 0 0 0)) = true ∧ due u 10 1 = true ∧ (eOf u 10 1).wait = .fence [100] ∧ accPending u 100 = true ∧
    due (completed u) 10 0 = true ∧ (eOf (completed u) 10 0).wait = .fence [100] ∧ accPending (completed u) 100 = false := by decide +kernel
/-- An increment below a bound that the old element has reached gives 0; a comparison that fails stores nothing (08 R171, R172). -/
theorem witness_ScratchpadAtomics :
    comes (world [(1, 8), (2, 5)]) 10 (.atoms (a96 9 0 2 1 4)) = true ∧ comes (world [(1, 8), (2, 5)]) 10 (.cass (a96 16 6 2 1 4)) = true ∧
    begun (nextOf (exec (.atoms (a96 9 0 2 1 4)) (pooled [(0x10008, 5)] [(1, 8), (2, 5)]))) (.atomic 9 5 0 4 false) = true ∧
    begun (nextOf (exec (.cass (a96 16 6 2 0 4)) (pooled [(0x10000, 5)] [(2, 5)]))) (.atomic 14 5 0 4 false) = true ∧
    ((completed (nextOf (exec (.atoms (a96 9 0 2 1 4)) (pooled [(0x10008, 5)] [(1, 8), (2, 5)])))).core 0).pool = [] ∧
    brought (nextOf (exec (.atoms (a96 9 0 2 1 4)) (pooled [(0x10008, 5)] [(1, 8), (2, 5)]))) 4 = 5 ∧
    ((completed (nextOf (exec (.cass (a96 0 3 2 1 4)) (pooled [(0x10008, 4)] [(1, 8), (2, 5), (3, 7)])))).core 0).pool = [(0x10008, 4)] ∧
    ((completed (nextOf (exec (.cass (a96 0 3 2 1 4)) (pooled [(0x10008, 5)] [(1, 8), (2, 5), (3, 7)])))).core 0).pool = [(0x10008, 7)] := by
  decide +kernel

/-- A cohort of two teams, the second on core 1. -/
def wPeer : Team := { wTeam with core := 1, idx := 1, cohort := 2 }
def pair (regs : Table Word) : State :=
  let s := world regs
  { s with teams := [(2, { wTeam with cohort := 2 }), (3, wPeer)], cores := [(0, wCore), (1, { wCore with pool := [(0x10004, 9)] })] }
theorem witness_PeerAccesses :
    comes (pair [(1, 0x01000004)]) 10 (.ldp (m64 0 0 1 4)) = true ∧ cohortMember (pair []) { wTeam with cohort := 2 } 1 = some wPeer ∧
    brought (nextOf (exec (.ldp (m64 0 0 1 4)) (pair [(1, 0x01000004)]))) 4 = 9 ∧
    ((completed (nextOf (exec (.stp (m64 0 0 1 4)) (pair [(1, 0x01000FFC), (4, 1)])))).core 1).pool = [(0x10004, 9), (0x10FFC, 1)] ∧
    ((completed (nextOf (exec (.atomp (a96 0 0 2 1 4)) (pair [(1, 0x01000004), (2, 1)])))).core 1).pool = [(0x10004, 10)] ∧
    ((completed (nextOf (exec (.atomp (a96 14 3 2 1 4)) (pair [(1, 0x01000004), (2, 9), (3, 7)])))).core 1).pool = [(0x10004, 7)] ∧
    trapped (nextOf (exec (.ldp (m64 0 0 1 4)) (pair [(1, 0x02000004)]))) 0xB 0 = false := by decide +kernel
def wBuoy : Buoy := { expB := 0, arrB := 0, expT := 2, arrT := 1, phase := 0, err := false, rsv := 0, poison := 0 }
theorem witness_BuoyUpdate : (wBuoy.update 0 1).phase = 1 ∧ (wBuoy.update 0 1).err = false ∧ (wBuoy.update 0 0).phase = 0
    ∧ ({ wBuoy with expT := 0 } : Buoy).update 0 0 = { wBuoy with expT := 0, phase := 1, err := true } := by decide +kernel
def buoyed (b : Buoy) (regs : Table Word) : State := pooled (mputs [] 0x10000 (bytesOf 16 (buoyBits b))) regs
theorem witness_BuoyInstructions :
    comes (buoyed wBuoy []) 10 (.binit (m64 0 0 1 4)) = true ∧ comes (buoyed wBuoy []) 10 (.bexp (m64 1 0 1 4)) = true ∧
    begun (nextOf (exec (.binit (m64 0 0 1 4)) (buoyed wBuoy [(4, 256), (5, 0x10003)]))) (.binit 256 3) = true ∧
    begun (nextOf (exec (.bexp (m64 1 0 1 4)) (buoyed wBuoy [(4, 256)]))) (.bexp true 256) = true ∧
    begun (nextOf (exec (.barr (m64 0 0 1 4)) (buoyed wBuoy []))) (.barr 4) = true ∧
    buoyOf (poolNat (completed (nextOf (exec (.binit (m64 0 0 1 4)) (buoyed wBuoy [(4, 256), (5, 0x10003)])))) 0 0x10000 16)
      = { wBuoy with expB := 256, expT := 3, arrT := 0 } ∧
    brought (nextOf (exec (.barr (m64 0 0 1 4)) (buoyed wBuoy []))) 4 = 0 ∧
    (buoyOf (poolNat (completed (nextOf (exec (.barr (m64 0 0 1 4)) (buoyed wBuoy [])))) 0 0x10000 16)).phase = 1 ∧
    flown (nextOf (exec (.btry (m64 0 0 1 4)) (buoyed { wBuoy with phase := 1 } []))) 10 4 = some 1 ∧
    trapped (nextOf (exec (.btry (m64 0 0 1 4)) (buoyed { wBuoy with err := true } []))) 0xD 0 = true := by decide +kernel
theorem witness_BuoyWaits :
    comes (buoyed wBuoy []) 10 (.bwait (m64 0 0 1 4)) = true ∧
    ((nextOf (exec (.bwait (m64 0 0 1 4)) (buoyed wBuoy []))).thread? 10).map (·.conv) = some .heldBuoy ∧
    ((nextOf (exec (.bwait (m64 0 0 1 4)) (buoyed wBuoy [(4, 1)]))).thread? 10).map (fun t => (t.pc, t.released)) = some (0, true) ∧
    ((nextOf (exec (.bwait (m64 0 0 1 4)) (withThread (buoyed wBuoy []) fun t => { t with released := true }))).thread? 10).map (·.pc) = some 8 ∧
    trapped (nextOf (exec (.bwait (m64 0 0 1 4)) (buoyed { wBuoy with err := true } []))) 0xD 0 = true ∧
    ((nextOf (exec (.buoyWaiterSample 10) (withThread (buoyed wBuoy [(4, 1)]) fun t => { t with conv := .heldBuoy, held := some (.bwait (m64 0 0 1 4)) }))).thread? 10).map
      (fun t => (t.pc, t.conv, t.released)) = some (0, .run, true) := by decide +kernel

theorem witness_pools_canonical :
    Memory.wf ((pooled [(0x10FFF, 0x80)] [(1, 0x1000)]).core 0).pool = true ∧ Memory.wf ((world []).core 0).pool = true ∧
    Memory.wf ((pair []).core 1).pool = true ∧ Memory.wf ((buoyed wBuoy []).core 0).pool = true := by decide +kernel

/-! Convergence. -/

/-- A thread stands at a convergence instruction and passes its checks, with its guard `g`. -/
def stands (s : State) (tid : Nat) (i : Instr) (g : Bool) : Bool :=
  match s.thread? tid with
  | none => false
  | some t => match shapeOf t.tm i with
    | none => false
    | some sh => (match checkIssue i sh (fldsOf i) t s.count tid with | .ok b => b == g | .error _ => false)
        && (!g || decide (poisonTrap sh (fldsOf i) t s.count tid = none)) && decide (t.task = none) && !t.tm
        && (match s.team? t.team with | some x => decide (x.state = .live) | none => false)
theorem comes_of {s : State} {tid : Nat} {i : Instr} {g : Bool} (h : stands s tid i g = true) : Comes s tid i (cOf s tid i) g := by
  unfold stands at h
  split at h
  · cases h
  · rename_i t ht
    split at h
    · cases h
    · rename_i sh hs
      simp only [Bool.and_eq_true, decide_eq_true_eq, Bool.or_eq_true, Bool.not_eq_true'] at h
      obtain ⟨⟨⟨⟨h1, h2⟩, h3⟩, h4⟩, h5⟩ := h
      have h1 : checkIssue i sh (fldsOf i) t s.count tid = .ok g := by split at h1 <;> simp_all
      refine ⟨by simp [cOf, ht, ctxOf], ⟨sh, ?_, ?_, ?_, ?_⟩, ⟨?_, ?_⟩, ?_⟩
      · simpa [cOf, ht, ctxOf] using hs
      · simp [cOf, ht, hs, ctxOf]
      · simpa [cOf, ht, ctxOf] using h1
      · intro hg
        simpa [cOf, ht, ctxOf] using h2.resolve_left (by simp [hg])
      · simpa [cOf, ht, ctxOf] using h3
      · simpa [cOf, ht, ctxOf] using h4
      · simp only [cOf, ht, ctxOf, Option.getD_some]
        split at h5
        · rename_i x hx
          exact ⟨x, hx, of_decide_eq_true h5⟩
        · cases h5

def barI : Instr := .bar (a96 0 0 0 0 0)
def barcI : Instr := .barc (a96 0 0 0 0 0)
/-- Both threads of the team in states of their own. -/
def pairOf (f g : Thread → Thread) (r10 r11 : Table Word) (issue : List Nat) : State :=
  { world [] with threads := [(10, f (wThread 0 r10)), (11, g (wThread 1 r11))], issue := issue }
def waits (v : Conv) (i : Instr) (t : Thread) : Thread := { t with conv := v, held := some i }

/-- The other thread of the wave still runs. -/
theorem witness_ConvergenceArrivals :
    converges barI = some .heldBar ∧ (world []).issue = [10] ∧ Comes (world []) 10 barI (cOf (world []) 10 barI) true ∧
    (∀ e ∈ livesIn (world []) 2, ∃ e' ∈ livesIn (world []) 2, e'.1 ≠ 10 ∧ e'.2.wave = e.2.wave ∧ e'.2.conv = .run) ∧
    ((nextOf (exec barI (world []))).thread? 10).map (·.conv) = some .heldBar :=
  ⟨rfl, rfl, comes_of (by decide +kernel), by decide +kernel, by decide +kernel⟩
/-- The same thread in the core's list of ready ones. -/
theorem witness_ConvergenceArrivals_event :
    let s := { standing (encode barI) with issue := [10] }
    (readyThreads s 0).find? (fun e => e.1 == 10) = some (10, (cOf s 10 barI).t, .instr barI 3) ∧
    ((nextOf (exec (.convergenceArrival 10) s)).thread? 10).map (·.conv) = some .heldBar := by decide +kernel

/-- All that Gathered asks of the two threads of a wave, where thread 10 comes last or waits. -/
def gathered (s : State) (i : Instr) (pc : VAddr) (v : Conv) (last : Option Nat) : Prop :=
  rising s.threads = true ∧ livesIn s 2 = livesInWave s 2 0 ∧ (livesIn s 2).map (·.1) = [10, 11] ∧
  (∀ e ∈ livesIn s 2, e.2.core = 0 ∧ e.2.pc = pc ∧ stands s e.1 i true = true ∧
    (if last = some e.1 then e.2.conv = .run ∧ e.2.released = false else e.2.conv = v ∧ e.2.held = some i))
theorem gathered_of {s : State} {i : Instr} {pc : VAddr} {v : Conv} {last : Option Nat} (h : gathered s i pc v last) :
    Gathered s i 0 pc v last (livesIn s 2) := by
  obtain ⟨h1, -, h3, h4⟩ := h
  refine ⟨h1, fun h0 => by simp [h0] at h3, fun e he => ?_⟩
  obtain ⟨a, b, c, d⟩ := h4 e he
  exact ⟨a, b, ⟨_, _, comes_of c⟩, d⟩
/-- VOTE's ballot of lane 0 and 1, released by its last arrival and by the event, and issued by the released set. -/
theorem witness_CollectiveReleases :
    let i := Instr.vote (a96 0 0 0 1 8)
    let free (t : Thread) : Thread := { t with held := some i, released := true }
    let s := pairOf id (waits .heldColl i) [(1, 1)] [(1, 1)] [10]
    let r := pairOf (waits .heldColl i) (waits .heldColl i) [(1, 1)] [(1, 1)] []
    let q := pairOf free free [(1, 1)] [(1, 1)] [10, 11]
    Gathered s i 0 0 .heldColl (some 10) (livesIn s 2) ∧ Gathered r i 0 0 .heldColl none (livesIn r 2) ∧
    (q.issue = (livesIn q 2).map (·.1) ∧ rising q.threads = true ∧ ∀ e ∈ livesIn q 2, stands q e.1 i true = true ∧ e.2.conv = .run) ∧
    (∀ e ∈ livesIn s 2, e.2.wave.toNat = 0) ∧ (nextOf (exec i s)).threads = q.threads ∧
    (nextOf (exec (.collectiveRelease 2 0) r)).threads = q.threads ∧ flown (nextOf (exec i q)) 11 8 = some 3 :=
  ⟨gathered_of (by unfold gathered; decide +kernel), gathered_of (by unfold gathered; decide +kernel), by decide +kernel,
    by decide +kernel, by decide +kernel, by decide +kernel, by decide +kernel⟩
theorem witness_BarrierReleases :
    let s := pairOf id (waits .heldBar barI) [] [] [10]
    let r := pairOf (waits .heldBar barI) (waits .heldBar barI) [] [] []
    let b := pairOf (waits .heldBarc barcI) (waits .heldBarc barcI) [] [] []
    Gathered s barI 0 0 .heldBar (some 10) (livesIn s 2) ∧ Gathered r barI 0 0 .heldBar none (livesIn r 2) ∧
    Gathered b barcI 0 0 .heldBarc none (livesIn b 2) ∧
    (b.teams.filter fun e => e.2.grid == 1 && e.2.idx / e.2.cohort == 0 && e.2.state != .ended && e.2.state != .killed
      && e.2.state != .released) = [(2, wTeam)] ∧ wTeam.state = .live ∧ wTeam.cohort ≤ 1 ∧
    ((nextOf (exec barI s)).thread? 11).map (·.pc) = some 12 ∧ ((nextOf (exec (.barRelease 2) r)).thread? 10).map (·.pc) = some 12 ∧
    ((nextOf (exec (.barcRelease 1 0) b)).thread? 10).map (·.pc) = some 12 :=
  ⟨gathered_of (by unfold gathered; decide +kernel), gathered_of (by unfold gathered; decide +kernel),
    gathered_of (by unfold gathered; decide +kernel), by decide +kernel, rfl, by decide, by decide +kernel, by decide +kernel, by decide +kernel⟩
/-- Thread 11 waits at a collective at 0x40 as thread 10 comes to BAR at 0. -/
theorem witness_DivergedTeams :
    let s := pairOf id (fun t => { waits .heldColl barI t with pc := 0x40 }) [] [] [10]
    Comes s 10 barI (cOf s 10 barI) true ∧ rising s.threads = true ∧
    (∀ e ∈ livesIn s 2, e.2.tm = false ∧ (e.1 ≠ 10 → (e.2.conv = .heldColl ∨ e.2.conv = .heldBar ∨ e.2.conv = .heldBarc) ∧ e.2.held.isSome)) ∧
    (∃ e ∈ livesIn s 2, e.2.pc ≠ (cOf s 10 barI).pc) ∧
    (∀ e ∈ livesIn s 2, ∃ e' ∈ livesIn s 2, e'.2.wave = e.2.wave ∧ (e'.2.conv ≠ .heldColl ∨ e'.2.pc ≠ e.2.pc)) ∧
    ((nextOf (exec barI s)).threads.map fun e => (e.2.trapCause, e.2.epc, e.2.trapAddr, e.2.trapMask))
      = [(0x80020008, 0, 0x40, 1), (0x80020008, 0x40, 0, 2)] :=
  ⟨comes_of (by decide +kernel), by decide +kernel, by decide +kernel, by decide +kernel, by decide +kernel, by decide +kernel⟩

/-! Tiles. Tile 0 of the team is an FP32 accumulator, tile 1 holds FP16 operands, the others nothing. -/

def tileWorld (regs : Table Word) : State := withCore (world regs) fun c =>
  { c with tiles := mputs (mputs [] 0 [0, 0, 0x80, 0x3F, 0, 0, 0, 0x40]) 8192 [0, 0x3C, 0, 0x40, 0, 0xC0],
           sideBand := mputs [] 3 [7], tags := [(0, 2048 * 0x0D), (1, 2048 * 0x0B)] }
def t128 (vc vb va vd : Reg) (mod : BitVec 18) (x : Word) : FA128 := a128 mod 0 vc vb va vd x
/-- X of a tile instruction: TD, TA, TB, and the rest from bit 18. -/
def xOf (td ta tb k : Nat) : Word := BitVec.ofNat 32 (td + 64 * ta + 4096 * tb + 2 ^ 18 * k)
def goodTiles (s : State) : Bool := Memory.wf (s.core 0).tileView && Memory.wf (s.core 0).sideView && Memory.wf (s.core 0).pool
/-- A tile instruction of thread 10 comes to its operation on tile stores in canonical form without errors and with no TLOAD to read. -/
def tileIssue (s : State) (i : Instr) : Bool :=
  comes s 10 i && goodTiles s && (s.core 0).tileErr.isEmpty && (s.core 0).tileOps.all (fun o => o.load.isNone) && (s.team? 2).isSome
def tzeroI : Instr := .tzero (t128 0 0 0 0 (BitVec.ofNat 18 (4 * 2048 * 0x0D)) (xOf 3 0 0 0))
def tmovI : Instr := .tmov (t128 0 0 0 0 0 (xOf 3 0 0 0))
def tmovvI : Instr := .tmovvWrite (t128 0 2 1 0 1 (xOf 1 0 0 0))
def tmovrI : Instr := .tmovvRead (t128 0 0 1 4 0 (xOf 0 1 0 0))
def ttagI : Instr := .ttag (t128 0 0 0 4 (BitVec.ofNat 18 (4 * 2048 * 0x0D)) (xOf 1 0 0 0))
def tstatI : Instr := .tstat (t128 0 0 0 4 0 (xOf 0 1 0 0))
def tfmtI : Instr := .tfmt (t128 0 0 1 4 0 (xOf 0 0 0 3))
def tchkI : Instr := .tchk (t128 0 0 0 4 0 (xOf 0 1 0 0))
theorem witness_TileMoves :
    (∀ i ∈ [tzeroI, tmovI, tmovvI, tmovrI, ttagI, tstatI, tfmtI, tchkI], tileIssue (tileWorld []) i = true) ∧ 3 < wTeam.tiles ∧
    tagPoi (tagAt (tileWorld []) 0 1) = false ∧ tagAt (nextOf (exec tzeroI (tileWorld []))) 0 3 = 2048 * 0x0D ∧
    dataAt (nextOf (exec tmovI (tileWorld []))) 0 3 7 = 0x40 ∧
    dataAt (nextOf (exec tmovvI (tileWorld [(1, 2047), (2, 0x01020304)]))) 0 1 8191 = 1 ∧
    flown (nextOf (exec tmovrI (tileWorld []))) 10 4 = some 0x40003C00 ∧ flown (nextOf (exec ttagI (tileWorld []))) 10 4 = some 0x5800 ∧
    flown (nextOf (exec tstatI (tileWorld []))) 10 4 = some 0x15800 ∧
    ((nextOf (exec tfmtI (tileWorld [(1, 5)]))).team? 2).map (·.tfmt) = some [(3, 5)] := by decide +kernel
/-- A tile with a persistent error, of which TCHK tells nothing here, and a move from a tile to itself. -/
theorem witness_TileMoves_self : tileIssue (tileWorld []) (.tmov (t128 0 0 0 0 0 (xOf 3 3 0 0))) = true ∧
    (nextOf (exec (.tmov (t128 0 0 0 0 0 (xOf 3 3 0 0))) (tileWorld []))).threads.length = 2 := by decide +kernel

/-- The team with a region of 16 KiB and a format record; V1 an address, V2 the stride, V3 the side-band's place. -/
def xT : Team := { wTeam with spadP := 4, tfmt := [(3, 36)] }
def poolT (regs : Table Word) : State :=
  { withCore (tileWorld regs) (fun c => { c with cfg := { c.cfg with spadP := 4 }, pool := [(0x10010, 5), (0x10210, 9)] }) with
    teams := [(2, xT)] }
/-- A tag of FP8 under record 3 with scale codes. -/
def tagM : Nat := 35376
def tloadI (mod : Nat) (tag : Nat) : Instr := .tload (t128 (if tagScale tag = 1 then 3 else 0) 2 1 0 (BitVec.ofNat 18 (4 * tag + mod)) (xOf 1 0 0 0))
def tstoreI (mod : Nat) (tag : Nat) : Instr := .tstore (t128 (if tagScale tag = 1 then 3 else 0) 2 1 0 (BitVec.ofNat 18 mod) (xOf 0 1 0 0))
def rT (a : Word) : Table Word := [(1, a), (2, 256), (3, 32)]
def chunksIn (c : Ctx) : Bool := c.chunkList.all fun a => decide (a % 16 = 0 ∧ a + 16 ≤ 4 * 4096)
/-- The first chunk at 16, lines 256 apart: under a plain tag, and with a side-band under a scaled one. -/
theorem witness_TileTransfers_load :
    tileIssue (poolT (rT 16)) (tloadI 0 26624) = true ∧ tileIssue (poolT (rT 16)) (tloadI 3 tagM) = true ∧
    chunksIn (cOf (poolT (rT 16)) 10 (tloadI 0 26624)) = true ∧ chunksIn (cOf (poolT (rT 16)) 10 (tloadI 3 tagM)) = true ∧
    (cOf (poolT (rT 16)) 10 (tloadI 3 tagM)).tagEnc = tagM ∧ tagScale tagM = 1 ∧ 32 % 16 = 0 ∧ 32 + 512 ≤ xT.spadP * 4096 := by decide +kernel
def stored (tag : Nat) (a : Word) : State := withCore (poolT (rT a)) fun c => { c with tags := [(1, tag)], sideBand := mputs [] 512 [1, 2] }
theorem witness_TileTransfers_store :
    tileIssue (stored 0x5800 16) (tstoreI 2 0x5800) = true ∧ tileIssue (stored tagM 16) (tstoreI 0 tagM) = true ∧
    soundTag xT 0x5800 = true ∧ soundTag xT tagM = true ∧ chunksIn (cOf (stored 0x5800 16) 10 (tstoreI 2 0x5800)) = true ∧
    ((cOf (stored tagM 16) 10 (tstoreI 0 tagM)).t.readAny 0 10 3).2 = false := by decide +kernel
/-- The last chunk ends past the region, the first is misaligned, and the tile is past the team's. -/
theorem witness_TileTransfers_traps :
    (cOf (poolT (rT 0x2010)) 10 (tloadI 0 26624)).chunkList.getD 511 0 = 0x4000 ∧
    ((cOf (poolT (rT 0x2010)) 10 (tloadI 0 26624)).chunkList.take 511).all (fun a => decide (a % 16 = 0 ∧ a + 16 ≤ 4 * 4096)) = true ∧
    trapped (nextOf (exec (tloadI 0 26624) (poolT (rT 0x2010)))) 0xA 0 = true ∧
    trapped (nextOf (exec (tloadI 0 26624) (poolT (rT 8)))) 0xA 1 = true ∧
    trapped (nextOf (exec (.tload (t128 0 2 1 0 (BitVec.ofNat 18 (4 * 26624)) (xOf 4 0 0 0))) (poolT (rT 16)))) 0xE 4 = true := by decide +kernel
/-- The completions: of a TLOAD that reads then, and of a store, whose source is poisoned in the second. -/
def tileDue (u : State) : Bool :=
  due u 10 0 && goodTiles u && match (u.core 0).tileOps with
    | [o] => decide ((eOf u 10 0).wait = .tile o.key) && (o.prior.all fun p => !accPending u p) && o.cmd.isNone
    | _ => false
theorem witness_TileTransfers_completion :
    let l := nextOf (exec (tloadI 3 tagM) (poolT (rT 16)))
    let w := nextOf (exec (tstoreI 2 0x5800) (stored 0x5800 16))
    let p := nextOf (exec (tstoreI 2 0x5808) (stored 0x5808 16))
    (∀ u ∈ [l, w, p], tileDue u = true) ∧
    (l.core 0).tileOps.map (fun o => (o.load.map fun x => (x.1.length, x.2), o.writes, o.stores.length, o.data.length)) = [(some (512, some 0x10020), [1], 0, 0)] ∧
    (w.core 0).tileOps.map (fun o => (o.load.isNone, o.stores.length, o.poi)) = [(true, 512, false)] ∧
    (p.core 0).tileOps.map (fun o => (o.load.isNone, o.stores.length, o.poi)) = [(true, 512, true)] ∧
    dataAt (completed l) 0 1 0 = 5 ∧ (w.core 0).pool = [(0x10010, 5), (0x10210, 9)] ∧ (completed p).core 0 ≠ p.core 0 := by decide +kernel
/-- Chunks with a poisoned word, and a TLOAD that a TSTORE of its tile makes read. -/
theorem witness_TileTransfers_poison :
    let s := withCore (poolT (rT 16)) fun c => { c with poolPoison := [0x2002] }
    tileIssue s (tloadI 0 26624) = true ∧ poolBad s 0 0x10010 16 = true ∧ tagPoi (tagAt (nextOf (exec (tloadI 0 26624) s)) 0 1) = true ∧
    ((readLoads 0 [1] (nextOf (exec (tloadI 0 26624) (poolT (rT 16))))).core 0).tileOps.map (fun o => (o.load, o.data.length)) = [(none, 1)] := by
  decide +kernel

/-! Conversions of tiles, and the matrix engine's steps. -/

def converting (tag : Nat) : State := withCore (poolT [(1, 8), (2, 256), (3, 0x2000)]) fun c =>
  { c with tags := [(0, tag), (1, tag), (2, tag)], sideBand := mputs [] 512 [127, 128] }
def tcvtI (tagd part rm : Nat) : Instr :=
  .tcvt (t128 0 0 (if rm = 5 then 2 else 255) 0 (BitVec.ofNat 18 (4 * tagd)) (xOf 3 1 0 (rm + 16 * part)))
def tscaleI : Instr := .tscale (t128 0 0 1 0 0 (xOf 1 0 0 0))
def drainI (tagd rm z : Nat) : Instr :=
  .drainS (a128 (BitVec.ofNat 18 (4 * tagd)) (if rm = 5 then 3 else 255) (if tagScale tagd = 1 then 3 else 0) 2 1 0 (xOf 0 0 0 (rm + 16 * z)))
/-- FP16 to the second half of FP32, FP32 to FP16 with SR, and FP16 to a scaled FP8. -/
theorem witness_TileConversions_tcvt :
    tileIssue (converting 0x5800) (tcvtI 0x6800 1 0) = true ∧ tileIssue (converting 0x6800) (tcvtI 0x5800 1 5) = true ∧
    tileIssue (converting 0x5800) (tcvtI tagM 0 0) = true ∧
    soundTag xT 0x5800 = true ∧ soundTag xT 0x6800 = true ∧ tagPoi 0x5800 = false ∧
    convOk (fmtUnder xT 0x5800) (fmtUnder xT 0x6800) = true ∧ convOk (fmtUnder xT 0x6800) (fmtUnder xT 0x5800) = true ∧
    convOk (fmtUnder xT 0x5800) (fmtUnder xT tagM) = true ∧ narrowing (fmtUnder xT 0x6800) (fmtUnder xT 0x5800) = true ∧
    1 * min (perLine 0x0B) (perLine 0x0D) < max (perLine 0x0B) (perLine 0x0D) ∧ recValid 0x11 (fmtUnder xT tagM).frec = true := by
  decide +kernel
theorem witness_TileConversions_tscale :
    tileIssue (converting 0x5800) tscaleI = true ∧ tileIssue (converting tagM) tscaleI = true ∧ soundTag xT tagM = true ∧
    isIntFmt 0x0B = false ∧ tagScale tagM = 1 ∧ tagScale 0x5800 = 0 ∧
    sideAt (nextOf (exec tscaleI (converting tagM))) 0 1 0 = 135 := by decide +kernel
/-- The accumulator of each width, with Z and without; a scaled destination. -/
theorem witness_TileConversions_drain :
    tileIssue (converting 0x6800) (drainI 0x5800 0 0) = true ∧ tileIssue (converting 0x6800) (drainI tagM 0 1) = true ∧
    tileIssue (converting (2048 * 0x10)) (drainI (2048 * 0x0F) 0 1) = true ∧
    soundTag xT (2048 * 0x10) = true ∧ convOk { code := 0x0D } (fmtUnder xT 0x5800) = true ∧ convOk { code := 0x0D } (fmtUnder xT tagM) = true ∧
    convOk { code := 0x10 } (fmtUnder xT (2048 * 0x0F)) = true ∧
    (∀ r < 32, (8 + r * 256) % 8 = 0 ∧ 8 + r * 256 + 4 * 64 ≤ xT.spadP * 4096) ∧ 0x2000 + 32 ≤ xT.spadP * 4096 := by decide +kernel

def mmaI (kk mod : Nat) : Instr := .mma (t128 0 0 1 0 (BitVec.ofNat 18 mod) (xOf 0 2 3 kk))
def mmacI (kk mod : Nat) : Instr := .mmac (t128 0 0 1 0 (BitVec.ofNat 18 mod) (xOf 0 2 3 kk))
/-- Tiles 2 and 3 hold operands of a format, tiles 0 and 1 accumulators or nothing. -/
def engineAt (code acc : Nat) : State := withCore (poolT []) fun c =>
  { c with tags := [(0, acc), (1, acc), (2, code * 2048), (3, code * 2048)], tiles := mputs [] 16384 [0, 0x3C] }
/-- What StepOk asks, of FP16 with an accumulator that holds FP32, and of the widest complex format with an empty pair. -/
def stepOk (s : State) (i : Instr) (cplx : Bool) : Bool :=
  let c := cOf s 10 i
  let p := c.operands s xT cplx
  let t := c.tdName + c.va.toNat / 256 % 64
  decide (c.taName + c.va.toNat % 64 < xT.tiles ∧ c.tbName < xT.tiles ∧ t + p.accs.length ≤ xT.tiles ∧ (p.accs.length = 2 → t % 2 = 0))
    && ([p.a, p.b].all fun y => soundTag xT (tagAt s 0 y) && !tagPoi (tagAt s 0 y) && tagFmt (tagAt s 0 y) == p.code && !p.accs.contains y)
    && (if cplx then [0x0F, 0x10] else [0x01, 0x03, 0x0B, 0x0C, 0x0D, 0x0E, 0x11, 0x12, 0x13]).contains p.code
    && decide (p.k ≤ largestK p.code)
    && ((p.accs.all fun y => tagAt s 0 y == 0) || p.accs.all fun y => tagAt s 0 y == 2048 * accCode p.code)
    && (cplx || !c.m 2 || accCode p.code == 7) && (s.core 0).tileErr.isEmpty && decide ((s.core 0).steps.length < 16)
theorem witness_MatrixSteps :
    tileIssue (engineAt 0x0B 0x6800) (mmaI 2 0) = true ∧ stepOk (engineAt 0x0B 0x6800) (mmaI 2 0) false = true ∧
    tileIssue (engineAt 0x10 0) (mmacI 16 24) = true ∧ stepOk (engineAt 0x10 0) (mmacI 16 24) true = true ∧
    tileIssue (engineAt 1 0) (mmaI 0 4) = true ∧ stepOk (engineAt 1 0) (mmaI 0 4) false = true ∧
    ((nextOf (exec (mmaI 2 0) (engineAt 0x0B 0x6800))).core 0).steps.length = 1 ∧
    ((nextOf (exec (mmacI 16 24) (engineAt 0x10 0))).core 0).steps.length = 1 := by decide +kernel

/-! A gang of two waves with one live thread each; thread 11's accumulator is another tile. -/

def gI : Instr := .mmaG (t128 0 0 1 0 0 (xOf 0 2 3 2))
def gTeam (ls : List Latch) : Team := { xT with waves := 2, latches := ls }
def gThr (num : Nat) (regs : Table Word) : Thread :=
  { newThread 2 (gTeam []) 1 num num 1 0 with wave := BitVec.ofNat 32 num, lane := 0, regs := regs, gang := 3 }
def heldG (t : Thread) : Thread := { t with conv := .heldGang, held := some gI, gangSample := 3 }
def gWorld (f g : Thread → Thread) (ls : List Latch) (issue : List Nat) : State :=
  { withCore (engineAt 0x0B 0) (fun c => { c with cfg := { c.cfg with waves := 2 } }) with
    teams := [(2, gTeam ls)], threads := [(10, f (gThr 0 [(1, 0)])), (11, g (gThr 1 [(1, 0x100)]))], issue := issue }
def latch (ws : List Nat) : Latch := { mask := 3, addr := 0, waves := ws }
theorem witness_GangPasses_arrival :
    let s := gWorld id id [] [10]
    stands s 10 gI true = true ∧ (cOf s 10 gI).t.conv = .run ∧ livesInWave s 2 0 = [(10, (cOf s 10 gI).t)] ∧
    (lo32 ((cOf s 10 gI).t.readSreg 0 10 (cOf s 10 gI).clk 0x0A)).toNat = 3 ∧ wavesOf 3 = [0, 1] ∧ 3 < 2 ^ (gTeam []).waves ∧
    (∀ w ∈ wavesOf 3, livesInWave s 2 w ≠ []) ∧ rising s.threads = true ∧
    ((nextOf (exec gI s)).team? 2).map (·.latches) = some [latch [0]] := by decide +kernel
theorem witness_GangPasses_event :
    let s := gWorld heldG id [] []
    (∀ e ∈ livesInWave s 2 0, e.2.conv = .heldGang ∧ e.2.pc = 0 ∧ e.2.gangSample = 3) ∧ (∀ w ∈ wavesOf 3, livesInWave s 2 w ≠ []) ∧
    ((nextOf (exec (.gangArrival 10) s)).team? 2).map (·.latches) = some [latch [0]] := by decide +kernel
/-- Neither member's check fails. -/
def passOk (s : State) : Bool :=
  (memberChecks s false ((membersOf s 2 3).map (memberInst s ((s.team? 2).getD xT) gI))).all fun m => match m with | .bad _ => false | _ => true
theorem witness_GangPasses_fire :
    let s := gWorld heldG heldG [latch [0, 1]] []
    let r := gWorld heldG id [latch [0]] [11]
    (membersOf s 2 3).map (·.map (·.1)) = [[10], [11]] ∧ passOk s = true ∧ passOk r = true ∧ stands s 10 gI true = true ∧
    stands s 11 gI true = true ∧ stands r 11 gI true = true ∧ goodTiles s = true ∧ (s.core 0).ports.length < 4 ∧ (s.core 0).engUsed = 0 ∧
    (s.core 0).tileErr = [] ∧ (s.core 0).tileOps = [] ∧ (s.core 0).steps.length < 16 ∧ (∀ w ∈ wavesOf 3, w ∈ [0, 1] ∧ ∀ e ∈ livesInWave s 2 w, e.2.conv = .heldGang ∧ e.2.held = some gI) ∧
    (∀ w ∈ wavesOf 3, w ≠ 1 → w ∈ [0] ∧ ∀ e ∈ livesInWave r 2 w, e.2.conv = .heldGang ∧ e.2.held = some gI) ∧
    ((nextOf (exec (.gangFire 2 0) s)).core 0).steps.length = 1 ∧ ((nextOf (exec gI r)).core 0).steps.length = 1 := by decide +kernel

/-! Handles and commands. -/

/-- A record from its fields, each at its first bit; records of one dimension of 32-bit elements in device memory. -/
def recOf (l : List (Nat × Nat)) : Rec := BitVec.ofNat 1024 ((l.map fun f => f.2 * 2 ^ f.1).foldl (· + ·) 0)
def line (base n : Nat) : Rec := recOf [(0, base), (128, 7), (153, 1), (320, n), (512, n)]
def recA : Rec := line 0x10000 4
def recB : Rec := line 0x20000 4
def recI : Rec := line 0x30000 8
def f128 (mod : BitVec 18) (ve vc vb va vd : Reg) : FA128 := a128 mod ve vc vb va vd 0
def sealing (r : Rec) : State := pooled (mputs [] 0x10000 (bytesOf 128 r.toNat)) []
def sealI : Instr := .seal (f128 0 0 0 0 1 4)
def handleOf (r : Rec) : Handle := { gen := 1, valid := true, rcd := r }
/-- Handles 0x100, 0x101 and 0x102. -/
def handled (regs : Table Word) : State := withCore (world regs) fun c => { c with handles := [(0, handleOf recA), (1, handleOf recB), (2, handleOf recI)] }
def cmdRegs : Table Word := [(0, 0x100), (1, 0x101), (4, 0x102), (5, 3), (6, 0x40)]
def cpyI : Instr := .cpy (f128 0 2 6 1 0 7)
/-- Thread 10 issues again after a command. -/
def again (s : State) (regs : Table Word) : State :=
  withThread { s with issue := [10] } fun t => { t with flags := [], lastIssue := none, flight := [], regs := regs }
def queued (ticket : Word) : State := again (nextOf (exec cpyI (handled cmdRegs))) [(3, ticket)]
theorem witness_HandlesAndQueries :
    comes (sealing recA) 10 sealI = true ∧ Memory.wf ((sealing recA).core 0).pool = true ∧ sealStatus (sealing recA) wTeam recA false = 0 ∧
    sealStatus (sealing 0) wTeam 0 false ≠ 0 ∧ flown (nextOf (exec sealI (sealing recA))) 10 4 = some 0x100 ∧
    comes (handled [(1, 0x101)]) 10 (.unseal (f128 0 0 0 0 1 4)) = true ∧ handleRec (handled []) wTeam 0x101 = some recB ∧
    handleRec (handled []) wTeam 0x201 = none ∧ comes (queued 0) 10 (.cpyq (f128 0 0 0 0 3 8)) = true ∧
    comes (queued 0) 10 (.cpycan (f128 0 0 0 0 3 8)) = true ∧ rising ((queued 0).core 0).cmds = true ∧
    (((queued 0).core 0).cmds.find? fun e => e.2.team == 2 && e.2.ticket == 0).map (·.1) = some 100 ∧
    (((queued 1).core 0).cmds.find? fun e => e.2.team == 2 && e.2.ticket == 1) = none ∧
    flown (nextOf (exec (.cpyq (f128 0 0 0 0 3 8)) (queued 1))) 10 8 = some 7 ∧
    ((nextOf (exec (.cpycan (f128 0 0 0 0 3 8)) (queued 0))).core 0).cmds = [] ∧
    comes (queued 0) 10 (.cfence (a96 0x3F 0 0 0 0)) = true ∧
    ((nextOf (exec (.cfence (a96 0x3F 0 0 0 0)) (queued 0))).thread? 10).map (·.fences.map (·.cmds)) = some [[100]] := by decide +kernel

def cpygI : Instr := .cpyg (f128 0 2 6 1 0 7)
def cpysI : Instr := .cpys (f128 4 2 6 1 0 7)
def cpyfI : Instr := .cpyf (f128 0 255 6 0 0 7)
def cpypfI : Instr := .cpypf (f128 2 255 0 0 0 7)
def cpyrcI : Instr := .cpyrc (f128 0 255 6 0 0 7)
def catomI : Instr := .catom (a128 0 255 6 6 0 7 0x60000000)
/-- Every command comes to its operation, its records meet its conditions, and it enters the queue. -/
theorem witness_CopyCommands :
    let s := handled cmdRegs
    (∀ i ∈ [cpyI, cpygI, cpysI, cpyfI, cpypfI, cpyrcI, catomI], comes s 10 i = true ∧
      ((nextOf (exec i s)).core 0).cmds.map (·.1) = [100] ∧ flown (nextOf (exec i s)) 10 7 = some 0) ∧
    inBracket wTeam = false ∧ (trecOf recA).kind ≠ 1 ∧ (trecOf recA).dims = 1 ∧ (trecOf recI).fmt.code = 7 ∧ permOk 0 1 = true ∧
    at0 (trecOf recA).box 0 = at0 (trecOf recB).box 0 ∧ (trecOf recA).padded = false ∧
    scaledBad (trecOf recA) 0 (at0 (trecOf recA).box 0) = false ∧ formatsBad (trecOf recB) (trecOf recA) false 0 = false ∧
    formatsBad (trecOf recB) (trecOf recA) false 1 = false ∧ (trecOf recA).base / 2 ^ 62 = 0 ∧ 2 + 4 ≤ 64 ∧
    (∀ k < 4, ((wThread 0 cmdRegs).readAny 0 10 (2 + k)).2 = false) ∧ handleRec s wTeam 0x102 = some recI := by decide +kernel
/-- A gather whose origins are the last registers below V255 that the thread has, with its buoy at the end of the region. -/
theorem witness_CopyCommands_ends :
    let s := handled [(0, 0x100), (1, 0x101), (62, 0x102), (63, 7), (6, 0xFF0)]
    let i := Instr.cpyg (f128 0 60 6 1 0 7)
    comes s 10 i = true ∧ 60 + 4 ≤ wTeam.regs ∧ 0xFF0 + 16 ≤ wTeam.spadP * 4096 ∧ ((nextOf (exec i s)).core 0).cmds.map (·.1) = [100] := by
  decide +kernel

/-- Tile 0 of the team holds an accumulator, the handle 0x100 a record. -/
def draining (rc : Rec) (tag : Nat) (vb vc : Word) : State := withCore (poolT [(1, 0x100), (2, vb), (3, vc)]) fun c =>
  { c with tags := [(0, tag), (1, tag)], tiles := mputs [] 0 [0, 0, 0x80, 0x3F], handles := [(0, handleOf rc)] }
def recD : Rec := recOf [(0, 0x10000), (128, 0x0D), (153, 2), (320, 64), (352, 64), (512, 32), (544, 32), (704, 256)]
def rteRec : Rec := recOf [(0, 2 ^ 62), (64, 2 ^ 62 + 0x800), (128, 7), (136, 1), (156, 1), (160, 2), (176, 4), (224, 0xC00), (256, 0xC40)]
def drainHI (z : Nat) : Instr := .drainH (a128 0 255 3 2 1 4 (xOf 0 0 0 (32 + z)))
def drainRI : Instr := .drainRoute (a128 0 255 0 2 1 4 (xOf 0 0 0 64))
theorem witness_DrainsAndRings_drains :
    let s := draining recD 26624 0x00200001 0x40
    let r := draining rteRec (2048 * 7) 3 0
    tileIssue s (drainHI 0) = true ∧ tileIssue s (drainHI (16 + 128)) = true ∧ handleRec s xT 0x100 = some recD ∧ (trecOf recD).kind ≠ 1 ∧
    soundTag xT 26624 = true ∧ tagPoi 26624 = false ∧ convOk { code := 0x0D } (trecOf recD).fmt = true ∧ opAllowed 0 0x0D = true ∧
    opAllowed 7 0x0D = true ∧ scaledBad { trecOf recD with padlo := [], padhi := [] } 0x20 32 = false ∧
    (s.core 0).tileOps = [] ∧ 0x40 + 16 ≤ xT.spadP * 4096 ∧
    tileIssue r drainRI = true ∧ (trecOf rteRec).kind = 1 ∧ 3 < (rtabOf rteRec).n ∧ convOk { code := 7 } { code := (rtabOf rteRec).fmt } = true ∧
    ((nextOf (exec (drainHI 0) s)).core 0).cmds.map (·.1) = [101] ∧ ((nextOf (exec drainRI r)).core 0).cmds.map (·.1) = [101] := by
  decide +kernel

def recStream : Rec := recOf [(0, 0x10000), (128, 7), (153, 2), (320, 64), (352, 64), (512, 4), (544, 6), (704, 256)]
def recSlot : Rec := recOf [(0, 2 ^ 62 + 0x400), (128, 7), (153, 2), (320, 4), (352, 2), (512, 4), (544, 2), (704, 16)]
/-- A ring of two slots of 64 bytes, released twice, for a load (0) or a store (1). -/
def streaming (dir : Nat) : State := withCore (world [(0, 0x100), (1, 0x101), (2, 0x800)]) fun c =>
  { c with handles := [(0, handleOf recStream), (1, handleOf recSlot)],
           pool := mputs [] 0x10800 (bytesOf 32 (2 + 256 * dir + 2 ^ 17 + 2 ^ 38)) }
def cpystI : Instr := .cpyst (a128 0 255 2 1 0 4 (BitVec.ofNat 32 (2 ^ 15)))
theorem witness_DrainsAndRings_ring :
    (∀ dir < 2, comes (streaming dir) 10 cpystI = true ∧ goodTiles (streaming dir) = true ∧
      (let h := ringHead (poolNat (streaming dir) 0 0x10800 32)
       h.bad = false ∧ h.dir = dir ∧ h.n = 2 ∧ slotsFault wTeam (trecOf recSlot) h = none) ∧
      ((nextOf (exec cpystI (streaming dir))).team? 2).map (·.rings.map (·.2.chunks)) = some [3]) ∧
    (trecOf recStream).kind ≠ 1 ∧ (trecOf recSlot).kind ≠ 1 ∧ (trecOf recSlot).base / 2 ^ 62 = 1 ∧ (trecOf recSlot).base / 2 ^ 30 % 4 = 0 ∧
    at0 (trecOf recStream).box 0 = at0 (trecOf recSlot).box 0 ∧ at0 (trecOf recStream).box 1 = 3 * at0 (trecOf recSlot).box 1 ∧
    (trecOf recSlot).padded = false ∧ formatsBad (trecOf recStream) (trecOf recSlot) false 0 = false ∧
    formatsBad (trecOf recSlot) (trecOf recStream) false 0 = false ∧ 0x800 + 32 + 32 * 2 ≤ wTeam.spadP * 4096 := by decide +kernel

/-! Brackets. -/

def txW (tx : Tx) (regs : Table Word) : State := { world regs with teams := [(2, { wTeam with tx := tx })] }
def xbI : Instr := .xbegin (a96 0 0 0 0 4)
def xaI : Instr := .xabort (a96 0 0 0 1 4)
def xcI : Instr := .xcommit (a96 0x30 0 0 0 4)
/-- The word that an instruction brings in a bracket's state. -/
def txWord (tx : Tx) (i : Instr) : Option Word := if comes (txW tx [(1, 0x1FF)]) 10 i then flown (nextOf (exec i (txW tx [(1, 0x1FF)]))) 10 4 else none
theorem witness_Transactions :
    txWord { depth := 3, aborted := true, code := 5, reason := 2 } (.xstat (a96 0 0 0 0 4)) = some 0xD8050002 ∧
    txWord {} xbI = some 0x88000000 ∧ txWord { depth := 6 } xbI = some 0xB8000000 ∧ txWord { depth := 7, aborted := true } xbI = some 0xF8000000 ∧
    txWord { depth := 7 } xbI = some 0xF8000007 ∧ txWord {} xaI = some 0xFFFFFFFF ∧ txWord { depth := 1 } xaI = some 0xC8FF0001 ∧
    txWord { depth := 1, aborted := true, reason := 3 } xaI = some 0xC8000003 ∧ txWord {} xcI = some 0xFFFFFFFF ∧
    txWord { depth := 2 } xcI = some 0x88000000 ∧ txWord { depth := 1 } xcI = some 0 := by decide +kernel
/-- An outermost XCOMMIT of thread 10 in flight, with bytes held. -/
def committingAt (leaf : Nat) (tx : Tx) : State :=
  let s := granted 1 (txW { tx with commit := some (3, 77, [10]) } [])
  withThread { s with issue := [], dev := { home := pt leaf [], homeMeta := homes [0, 32, 64, 16385] } } fun t =>
    { t with flags := [(2, 1)], flight := [
        { cls := .v, ready := 0, flag := some 2, regs := [(4, 0)], poison := [], sreg := none, wait := .commit 77 }] }
/-- The leaf that leads to 2 MiB, and the bracket's line there. -/
def committing (tx : Tx) : State := committingAt (2 ^ 21 + 0x1F) tx
def heldTx : Tx := { depth := 1, held := [(128, 5), (255, 6)], lines := [(1, (1, false))] }
theorem witness_Transactions_complete :
    let s := committing heldTx
    (((s.thread? 10).getD (wThread 0 [])).flight.filter fun e => e.wait == .commit 77).length = 1 ∧ (s.core 0).cmds = [] ∧
    (s.part 0).promo = none ∧ rising heldTx.held = true ∧ rising heldTx.lines = true ∧ Memory.wf s.dev.home = true ∧
    (match (heldPlaces { wTeam with tx := heldTx } heldTx.lines s).1 with | .ok ps => ps.map (·.2.1) == [16385] | _ => false) = true ∧
    (s.core 0).begun = false ∧ mgets (nextOf (exec (.xcommitComplete 2) s)).dev.home (2 ^ 21 + 127) 2 = [0, 5] ∧
    mget (nextOf (exec (.xcommitComplete 2) s)).dev.home (2 ^ 21 + 255) = 6 ∧
    ((nextOf (exec (.xcommitComplete 2) s)).team? 2).map (·.tx) = some {} ∧
    ((nextOf (exec (.xcommitComplete 2) (committing { heldTx with failed := true }))).team? 2).map (·.tx) = some { aborted := true, reason := 5 } ∧
    ((nextOf (exec (.xcommitComplete 2) (committing { heldTx with aborted := true, reason := 2, code := 7 }))).thread? 10).map
      (tget ·.regs 4 0) = some 0x40070002 := by decide +kernel
/-- No leaf leads to the held line. -/
theorem witness_Transactions_faulted :
    let s := committingAt 0 heldTx
    (match (heldPlaces { wTeam with tx := heldTx } heldTx.lines s).1 with | .error (va, f) => va == 128 && f.kind == 1 | _ => false) = true ∧
    ((nextOf (exec (.xcommitComplete 2) s)).team? 2).map (·.tx.fault) = some (some (128, 1, 2)) := by decide +kernel

/-! Rings. -/

def boundS : State := again (nextOf (exec cpystI (streaming 0))) [(1, 0x800), (2, 0)]
def ringW (f : Ring → Ring) : State := { boundS with teams := boundS.teams.map fun e => (e.1, { e.2 with rings := e.2.rings.map fun r => (r.1, f r.2) }) }
def acqI : Instr := .ringacq (a128 0 0 0 0 1 4 0)
def relI : Instr := .ringrel (a128 0 0 0 2 1 4 0)
/-- The status that RINGACQ brings, and the answer of RINGREL, for a ring changed so. -/
def acqStatus (f : Ring → Ring) : Option Word := if comes (ringW f) 10 acqI then flown (nextOf (exec acqI (ringW f))) 10 6 else none
def acqSlot (f : Ring → Ring) : Option (Word × Word) := (flown (nextOf (exec acqI (ringW f))) 10 4).bind fun a => (flown (nextOf (exec acqI (ringW f))) 10 5).map fun b => (a, b)
def relAnswer (f : Ring → Ring) : Option Word := if comes (ringW f) 10 relI then flown (nextOf (exec relI (ringW f))) 10 4 else none
theorem witness_RingInstructions :
    Memory.wf (boundS.core 0).pool = true ∧ ((boundS.cmd? 0 100).map fun y => (trecOf (y.snaps.getD 1 0)).base / 2 ^ 62) = some 1 ∧
    acqSlot id = some (0, 0x400) ∧ acqSlot (fun r => { r with next := 2, chunk := [2, 1] }) = some (2, 0x400) ∧
    acqSlot (fun r => { r with next := 2, dir := 1, done := 1 }) = some (2, 0x400) ∧
    relAnswer id = some 1 ∧ relAnswer (fun r => { r with done := 1 }) = some 0 ∧ relAnswer (fun r => { r with done := 1, rel := [1, 0] }) = some 0 ∧
    relAnswer (fun r => { r with dir := 1, rel := [1, 0] }) = some 0 := by decide +kernel
theorem witness_RingInstructions_refused :
    flown (nextOf (exec acqI (ringW fun r => { r with state := 2 }))) 10 7 = some 0x300 ∧
    flown (nextOf (exec acqI (ringW fun r => { r with state := 4 }))) 10 7 = some 0x400 ∧
    flown (nextOf (exec acqI (ringW fun r => { r with next := 3 }))) 10 7 = some 0x200 ∧
    flown (nextOf (exec acqI (ringW fun r => { r with next := 2 }))) 10 7 = some 0x100 ∧
    flown (nextOf (exec acqI (ringW fun r => { r with next := 2, dir := 1, done := 0 }))) 10 7 = some 0x100 := by decide +kernel
def startable (dir : Nat) (f : Ring → Ring) : State :=
  { ringW fun r => f { r with dir := dir } with cores := boundS.cores.map fun e => (e.1, { e.2 with cmds := e.2.cmds.map fun x => (x.1, { x.2 with state := .active }) }) }
theorem witness_RingChunkStart :
    ((startable 0 id).cmd? 0 100).map (fun y => (y.state, y.regs[2]?)) = some (.active, some 0x800) ∧
    ((nextOf (exec (.ringChunkStart 0 100) (startable 0 id))).team? 2).map (·.rings.map (·.2.cur)) = some [some 0] ∧
    ((nextOf (exec (.ringChunkStart 0 100) (startable 1 fun r => { r with freed := [0] }))).team? 2).map (·.rings.map (·.2.cur)) = some [some 0] := by
  decide +kernel

/-! Events of a core. -/

def leafE (l : Nat) : TlbEntry := { leaf := BitVec.ofNat 64 l, level := 3 }
/-- Thread 10 stands at 0xA4, whose block is not held, with a fetch translation or none and a home line. -/
def fetching (e : Option TlbEntry) (poison : Bool) : State :=
  let s := withThread (granted 0 (world [])) fun t => { t with pc := 0xA4 }
  { withCore s fun c => { c with fetchTlb := match e with | some e => [(0, e)] | none => [] } with
    issue := [], dev := { home := [(0xA0, 1), (0xA5, 2)], homeMeta := [(1, { poison := poison })] } }
def fetchFault (s : State) : Option (Nat × Nat) :=
  (s.thread? 10).map fun t => (t.trapCause.toNat % 65536, t.trapCause.toNat / 65536 % 32768)
def reaches (e : TlbEntry) : Bool := match regionOf (fetching none false) 0 e.leaf.toNat (leafPa e 0xA0) with
  | .ok (.dev pa _) => pa == 0xA0
  | _ => false
theorem witness_CoreEvents_fetch :
    ((fetching none false).thread? 10).map (fun t => t.fetches (fetching none false)) = some true ∧ partOfCore (fetching none false) 0 = some 0 ∧
    heldBlock (fetching none false) 0 5 = none ∧ Memory.wf (fetching none false).dev.home = true ∧
    (∀ l ∈ [0, 0x10, 0x10 + 2 ^ 60], reaches (leafE l) = true) ∧ keyOpen (fetching none false) 0 0 = true ∧ keyOpen (fetching none false) 0 1 = false ∧
    fetchFault (nextOf (exec (.fetchBlockArrival 10 true) (fetching none false))) = some (4, 3) ∧
    fetchFault (nextOf (exec (.fetchBlockArrival 10 false) (fetching none false))) = some (4, 1) ∧
    fetchFault (nextOf (exec (.fetchBlockArrival 10 false) (fetching (some (leafE 0)) false))) = some (4, 2) ∧
    fetchFault (nextOf (exec (.fetchBlockArrival 10 false) (fetching (some (leafE (0x10 + 2 ^ 60))) false))) = some (4, 4) ∧
    fetchFault (nextOf (exec (.fetchBlockArrival 10 false) (fetching (some (leafE 0x10)) true))) = some (4, 3) ∧
    (heldBlock (nextOf (exec (.fetchBlockArrival 10 false) (fetching (some (leafE 0x10)) false))) 0 5).map (·.take 2) = some [1, 0x200] := by
  decide +kernel
def flightOf (w : FlightWait) : InFlight := { cls := .v, ready := 0, flag := some 1, regs := [(7, 9), (7, 10)], poison := [], sreg := none, wait := w }
def flying (es : List InFlight) (ops : List TileOp) : State :=
  { withCore (withThread (world [(7, 1)]) fun t => { t with flags := [(1, 2)], flight := es }) fun c => { c with tileOps := ops } with
    issue := [], dies := [(0, { clk := 5 })] }
/-- V7 and flag 1 after the completion of an entry. -/
def landedOf (s : State) (k : Nat) : Option (Word × Nat × Nat) :=
  ((nextOf (exec (.instructionCompletion 10 k) s)).thread? 10).map fun t => (tget t.regs 7 0, tget t.flags 1 0, t.flight.length)
def tileOp40 : TileOp := { key := 40, step := false, reads := [], writes := [1], data := [(8192, 4, [(8193, 5)])] }
def setsOf (r : Nat) : InFlight := { flightOf .free with sreg := some (r, 5) }
theorem witness_CoreEvents_completion :
    landedOf (flying [flightOf .free] []) 0 = some (10, 1, 0) ∧ landedOf (flying [flightOf (.accept 3 5)] []) 0 = some (10, 1, 0) ∧
    landedOf (flying [flightOf (.accept 3 6)] []) 0 = some (1, 2, 1) ∧ landedOf (flying [flightOf (.step 3)] []) 0 = some (1, 2, 1) ∧
    landedOf (flying [flightOf (.commit 3)] []) 0 = some (1, 2, 1) ∧ landedOf (flying [flightOf (.tile 40)] [tileOp40]) 0 = some (10, 1, 0) ∧
    landedOf (flying [setsOf 0x0A, setsOf 0x14] []) 1 = some (1, 2, 2) ∧ landedOf (flying [setsOf 0x0A, setsOf 0x14] []) 0 = some (10, 1, 1) := by
  decide +kernel
def leaving (other : List (Nat × Thread)) : State := { world [] with threads := (10, { wThread 0 [] with conv := .exiting }) :: other, issue := [] }
theorem witness_CoreEvents_exit :
    rising (leaving [(11, wThread 1 [])]).threads = true ∧ (∀ k < 12, tget (wThread 0 []).flags k 0 = 0) ∧
    (livesIn (leaving [(11, wThread 1 [])]) 2).map (·.1) = [10, 11] ∧ (wThread 1 []).conv = .run ∧
    (nextOf (exec (.exitCompletion 10) (leaving [(11, wThread 1 [])]))).threads.map (·.1) = [11] ∧
    (∀ e ∈ (leaving []).threads, e.2.conv ≠ .heldBarc) ∧
    ((nextOf (exec (.exitCompletion 10) (leaving []))).team? 2).map (·.state) = some .ended ∧
    ((nextOf (exec (.exitCompletion 10) (leaving []))).grid? 1).map (fun g => (g.ok, g.done)) = some (1, [0]) := by decide +kernel

/-! Turns. The record lies in the region at 0x100; V5 is the guard. -/

def turnRec (threads regs spadP tiles regMask tileMask spadMask : Nat) : Nat :=
  0x20 + 2 ^ 128 * threads + 2 ^ 144 * regs + 2 ^ 160 * spadP + 2 ^ 176 * tiles + 2 ^ 192 * regMask + 2 ^ 256 * tileMask + 2 ^ 384 * spadMask
def turnI : Instr := .turn { a128 4 0 0 0 1 4 0 with guard := 5 }
def turnAt (bits : Nat) (guard : Word) : State :=
  let s := withCore (world [(1, 0x100), (5, guard)]) fun c => { c with pool := mputs [] 0x10100 (bytesOf 96 bits) }
  { s with threads := [(10, wThread 0 [(1, 0x100), (5, guard)])] }
def goodTurn : Nat := turnRec 2 64 1 4 3 5 0
def codeAt (bits : Nat) : Nat := (turnCode { turnAt bits 1 with issue := [] } wTeam 2 (turnRecOf bits) false).1
theorem witness_TideTurns_issue :
    Comes (turnAt goodTurn 1) 10 turnI (cOf (turnAt goodTurn 1) 10 turnI) true ∧
    Comes (turnAt goodTurn 0) 10 turnI (cOf (turnAt goodTurn 0) 10 turnI) false ∧
    livesIn (turnAt goodTurn 1) 2 = [(10, (cOf (turnAt goodTurn 1) 10 turnI).t)] ∧ poolNat (turnAt goodTurn 1) 0 0x10100 96 = goodTurn ∧
    Memory.wf ((turnAt goodTurn 1).core 0).pool = true ∧ codeAt goodTurn = 0 ∧ codeAt 0 ≠ 0 ∧
    ((nextOf (exec turnI (turnAt goodTurn 1))).team? 2).map (·.state) = some .turning ∧
    ((nextOf (exec turnI (turnAt goodTurn 0))).team? 2).map (·.state) = some .live ∧
    ((nextOf (exec turnI (turnAt 0 1))).team? 2).map (·.state) = some .live :=
  ⟨comes_of (by decide +kernel), comes_of (by decide +kernel), by decide +kernel, by decide +kernel, by decide +kernel, by decide +kernel,
    by decide +kernel, by decide +kernel, by decide +kernel, by decide +kernel⟩
theorem witness_TideTurns_waits :
    let s := withCore (world [(1, 0x100), (5, 1)]) fun c => { c with pool := mputs [] 0x10100 (bytesOf 96 goodTurn) }
    Comes s 10 turnI (cOf s 10 turnI) true ∧ (∀ e ∈ livesIn s 2, ∃ o ∈ livesIn s 2, o.1 ≠ 10 ∧ o.2.wave = e.2.wave ∧ o.2.conv = .run) :=
  ⟨comes_of (by decide +kernel), by decide +kernel⟩
def turningW : State :=
  { withCore (turnAt goodTurn 1) fun c => { c with pool := [(0x10000, 1)], tiles := [(5, 1), (8200, 2)], tags := [(0, 5), (1, 6)] } with
    teams := [(2, { wTeam with state := .turning, turn := some goodTurn })], issue := [],
    threads := [(10, { wThread 0 [(1, 5), (8, 11)] with retired := 77 })] }
theorem witness_TideTurns_succession :
    (turningW.core 0).steps = [] ∧ (turningW.core 0).tileOps = [] ∧ goodTiles turningW = true ∧ rising turningW.threads = true ∧
    rising (turningW.core 0).handles = true ∧ (∀ e ∈ turningW.threads, e.1 < turningW.fresh) ∧
    ((nextOf (exec (.turnSuccession 2) turningW)).threads.map fun e => (e.1, e.2.num, e.2.pc, e.2.regs)) = [(10, 0, 0x20, [(1, 5)]), (100, 1, 0x20, [])] ∧
    mget ((nextOf (exec (.turnSuccession 2) turningW)).core 0).pool 0x10000 = 0 ∧
    tagAt (nextOf (exec (.turnSuccession 2) turningW)) 0 1 = 0 ∧ tagAt (nextOf (exec (.turnSuccession 2) turningW)) 0 0 = 5 := by decide +kernel

/-! Kills, releases and saves. -/

def killed : State :=
  { withCore (nextOf (exec cpyI (handled cmdRegs))) fun c => { c with handles := [(0, handleOf recA), (255, handleOf recB)] } with
    teams := [(2, { wTeam with killReq := true, tx := { depth := 1 } })],
    threads := [(10, wThread 0 []), (11, wThread 1 []), (12, { wThread 0 [] with team := 9 })] }
def spentTeam : State :=
  { withCore (world []) fun c => { c with handles := [(0, handleOf recA), (255, handleOf recB)], pool := [(0x10FFF, 1)] } with
    teams := [(2, { wTeam with state := .ended })], threads := [], issue := [] }
theorem witness_KillsAndReleases :
    (∀ e ∈ killed.threads, e.2.conv ≠ .heldBarc) ∧ rising killed.threads = true ∧ rising (killed.core 0).cmds = true ∧ rising (killed.core 0).handles = true ∧
    ((nextOf (exec (.teamKill 2) killed)).team? 2).map (fun y => (y.state, y.tx)) = some (.killed, {}) ∧
    (nextOf (exec (.teamKill 2) killed)).threads.map (·.1) = [12] ∧
    ((nextOf (exec (.teamKill 2) killed)).core 0).handles.map (·.2.valid) = [false, false] ∧
    rising spentTeam.teams = true ∧ (spentTeam.teams.filter fun e => e.2.grid == 1 && e.2.idx / e.2.cohort == 0 / 1).length = 1 ∧
    (spentTeam.core 0).cmds = [] ∧ (spentTeam.core 0).steps = [] ∧ (nextOf (exec (.retentionEnd 2) spentTeam)).teams = [] ∧
    ((nextOf (exec (.retentionEnd 2) spentTeam)).core 0).pool = [] := by decide +kernel

/-- A core of 64 slots of one wave each, so that a team's image is small. -/
def sCfg : PoolConfig := { slots := 64, waves := 1, regs := 8, spadP := 0, tiles := 0, regG := 1, spadG := 0, gcG := 31 }
def sTeam : Team := { wTeam with spadP := 0, tiles := 0, regs := 8, threads := 1, image := some 1 }
def sGrid : Grid := { wGrid with spadP := 0, tiles := 0, regs := 8, threads := 1, saveBase := 0x100000, saveSlots := 2, config := sCfg }
def sThread : Thread := { newThread 2 sTeam 1 0 0 0 0 with regs := [(1, 7)] }
def saveWorld (x : Team) (ts : Table Thread) (home : Memory) (ls : List Nat) : State :=
  { granted 1 (withCore (world []) fun c => { c with cfg := sCfg, icache := [] }) with
    teams := [(2, x)], threads := ts, grids := [(1, sGrid)], issue := [],
    dev := { home := pt (0x1F + 2 ^ 21) home, homeMeta := homes (0 :: 32 :: 64 :: ls) } }
def asked : State := saveWorld { sTeam with saveReq := true, image := none, tx := { depth := 1, held := [(1, 1)] } } [(10, sThread)] [] []
theorem witness_SavesAndResumes_save :
    rising asked.teams = true ∧ rising asked.threads = true ∧ (asked.core 0).cmds = [] ∧ sGrid.saveBase ≠ 0 ∧ 0 < sGrid.saveSlots ∧
    ((nextOf (exec (.teamSave 2) asked)).team? 2).map (fun y => (y.state, y.image, y.tx.reason, y.savedAs)) = some (.saving, some 0, 3, .live) := by
  decide +kernel
def savingT : Team := { sTeam with state := .saving, savedAs := .live }
def saving : State := saveWorld savingT [(10, sThread)] [] []
theorem image_length : (imageOf saving 2 savingT).length = 8448 := by decide +kernel
theorem image_place : sGrid.saveBase + 1 * imageSize sGrid = 0x110000 := by decide +kernel
/-- The image of the team can be written: it lies in one page, which its access reaches. -/
theorem witness_SavesAndResumes_write :
    let bs := imageOf saving 2 savingT
    let ep := releaseEpoch (dieOf 0) 0 4 saving
    (saveBytes 0 0 ep.1 (pageRuns (bs.length + 1) (sGrid.saveBase + 1 * imageSize sGrid) bs.length) bs ep.2).1 = none := by
  simp only [image_length, image_place]
  decide +kernel
theorem witness_SavesAndResumes_complete :
    (saving.core 0).steps = [] ∧ (saving.core 0).tileOps = [] ∧ (saving.core 0).cmds = [] ∧ (saving.core 0).tileErr = [] ∧
    padBusy saving 2 savingT = false ∧
    (∀ e ∈ saving.threads, e.2.team = 2 → e.2.flight = [] ∧ e.2.conv ≠ .exiting) ∧ rising saving.threads = true ∧
    Memory.wf (saving.core 0).pool = true := by decide +kernel
def kept : Saved := { threads := [(10, sThread)] }
def savedT : Team := { sTeam with state := .saved, savedAs := .live, saved := some kept }
/-- The image's header stands in device memory. -/
def savedW : State := saveWorld savedT [] (mputs [] 0x310000 (imageHeader savedT sCfg 0)) ((List.range 8).map (25088 + ·))
theorem witness_SavesAndResumes_resume :
    rising savedW.teams = true ∧ nextAct savedW 0 = some (1, sGrid, .resume 0 [(0, 0)]) ∧
    (headersOk [((2, savedT), 0)] (wakeCluster (clusterOf 0) savedW)).1 = true ∧ kept.cmds = [] ∧ (savedW.part 0).lands = [] ∧
    rising kept.threads = true ∧ kept.threads.map (·.2.seq) = List.range 1 ∧ Memory.wf kept.region = true ∧ Memory.wf (savedW.core 0).pool = true := by
  decide +kernel
/-! The dispatcher. -/

def gD : Grid := { wGrid with config := wCore.cfg, threads := 34, teams := 2, placed := 1, entry := 0x40 }
def dW (f : Grid → Grid) (cs : Table Core) (ts : Table Team) : State :=
  { world [] with cores := cs, teams := ts, threads := [], issue := [], grids := [(1, f gD)] }
def slotFree : State := dW id [(0, wCore)] []
def coreFree : State := dW id [(0, { wCore with grid := none, cfg := {}, pool := [(3, 4)] })] []
def coreLoads : State := { dW id [(0, { wCore with loading := true, cfg := {} })] [] with grids := [(1, { gD with banks := [(0, 0), (5, 0)] })] }
theorem witness_Dispatcher_placement :
    tideDue slotFree 0 = false ∧ nextAct slotFree 0 = some (1, gD, .start 1 [(0, 0)]) ∧ slotFree.team? slotFree.fresh = none ∧
    tideDue coreFree 0 = false ∧ nextAct coreFree 0 = some (1, gD, .configure 0) ∧
    ((nextOf (exec (.teamPlacement 1) slotFree)).team? 100).map (fun x => (x.idx, x.core, x.slot, x.state)) = some (1, 0, 0, .live) ∧
    (nextOf (exec (.teamPlacement 1) slotFree)).threads.length = 34 ∧ ((nextOf (exec (.teamPlacement 1) coreFree)).core 0).pool = [] ∧
    (coreLoads.core 0).loading = true ∧ (∀ b < 4, (gD.banks.getD b (0, 0)).2 = 0) ∧
    ((nextOf (exec (.reconfigurationDone 0) coreLoads)).core 0).cfg = gD.config := by decide +kernel
/-- A grid whose lowest team finds no slot, once its time has passed and before. -/
def pgW (n : Nat) : State :=
  { dW (fun g => { g with progress := n, saveBase := 65536, saveSlots := 1, progressFor := 1, done := [0], teams := 3, placed := 2 })
      ((0, wCore) :: (List.range 63).map fun k => (k + 1, { withdrawn := true })) [(2, { wTeam with idx := 2 })] with
    parts := [(0, { wPart with pdisp := 2 ^ 32 * 9 })] }
def gP (n : Nat) : Grid := { gD with progress := n, saveBase := 65536, saveSlots := 1, progressFor := 1, done := [0], teams := 3, placed := 2 }
theorem witness_Dispatcher_progress :
    rising (pgW 9).teams = true ∧ progressDue (pgW 9) 1 (gP 9) = true ∧ progressDue (pgW 8) 1 (gP 8) = false ∧
    (let s' : State := { pgW 9 with grids := tput (pgW 9).grids 1 { gP 9 with progress := 0 } }
     findSlots s' 1 (gP 9) = none ∧ findEmpty s' 1 (gP 9) = none ∧ givesWay s' 1 (gP 9) { wTeam with idx := 2 } = true) ∧ (pgW 9).grid? 1 = some (gP 9) ∧
    ((nextOf (exec (.progressTimerExpiry 1) (pgW 9))).team? 2).map (·.saveReq) = some true := by decide +kernel
def gQ (sm : Option (Nat × Nat × Nat)) : Grid :=
  { gD with placed := 2, sample := sm, sent := [(0, 3), (1, 2)], recv := [(0, 5)], host := some 7, queue := 4, ok := 1, killed := 1, tag := 77 }
def qW (st : TeamState) (sm : Option (Nat × Nat × Nat)) (us : Nat) : State :=
  { dW (fun _ => gQ sm) [(0, wCore)] [(2, { wTeam with state := st })] with pkg := { us := us }, queues := [(4, { cqconn := 9, qctl := 0 })] }
def sampled (st : TeamState) (sm : Option (Nat × Nat × Nat)) (us : Nat) : Option (Option (Nat × Nat × Nat)) :=
  ((nextOf (exec (.quiescenceSample 1) (qW st sm us))).grid? 1).map (·.sample)
theorem witness_Dispatcher_quiescence :
    sampled .live (some (1, 1, 1)) 5 = some none ∧ sampled .live none 5 = some none ∧ sampled .ended none 5 = some (some (5, 5, 5)) ∧
    sampled .ended (some (4, 5, 5)) 5 = some (some (4, 5, 5)) ∧ sampled .killed (some (3, 5, 4)) 5 = some (some (5, 5, 5)) ∧
    sampled .ended (some (3, 5, 5)) 5 = none ∧ rising (qW .ended (some (3, 5, 5)) 5).teams = true ∧
    ((nextOf (exec (.quiescenceSample 1) (qW .ended (some (3, 5, 5)) 5))).conn 9).queue.map (·.len) = [64] := by decide +kernel

/-! The matrix engine. -/

def stp : EngStep := { key := 50, team := 2, ready := 7, members := [{ op := 49, parts := [10], run := 12, skew := 3, idle := 0, terms := 5 }], todo := [0] }
def opS : TileOp := { key := 49, step := true, reads := [1], writes := [0], data := [(0, 8192, [(3, 4)])] }
def mst (f : Core → Core) (clk : Nat) : State :=
  { withCore (world []) fun c => f { c with steps := [stp], tileOps := [opS] } with dies := [(0, { clk := clk })], issue := [] }
def onA (rr : Bool) : EngRun := { step := 50, member := 0, start := 7, stop := 19, rerun := rr }
def running (clk : Nat) : State := mst (fun c => { c with onArray := some (onA false), steps := [{ stp with todo := [] }] }) clk
def started (f : Core → Core) (clk : Nat) : Option (Nat × Nat × Bool) :=
  ((nextOf (exec (.stepStart 0) (mst f clk))).core 0).onArray.map fun r => (r.start, r.stop, r.rerun)
def comparing (rr : Bool) (clk : Nat) : State := mst (fun c => { c with ended := [onA rr] }) clk
def compared (u : State) : Nat × List (Nat × Nat) × Bool × List Bool :=
  let c := u.core 0
  (c.ended.length, c.reruns, c.withdrawn, c.tileOps.map (·.poi))
def endedStep : State :=
  withThread (mst (fun c => { c with steps := [{ stp with todo := [], ended := some 19, members := stp.members.map fun m => { m with runs := 2 } }] }) 35)
    fun t => { t with flags := [(3, 1)], flight := [{ cls := .v, ready := 0, flag := some 3, regs := [], poison := [], sreg := none, wait := .step 50 }] }
theorem witness_MatrixEngine_runs :
    started id 6 = none ∧ started id 7 = some (7, 19, false) ∧ started (fun c => { c with reruns := [(50, 0)] }) 0 = some (0, 12, true) ∧
    (∀ y ∈ stp.members, startBlocked ((mst id 7).core 0) y = false) ∧
    ((nextOf (exec (.stepRunEnd 0) (running 18))).core 0).onArray.isSome = true ∧
    ((nextOf (exec (.stepRunEnd 0) (running 19))).core 0).steps.map (·.ended) = [some 19] := by decide +kernel
theorem witness_MatrixEngine_checksums :
    compared (nextOf (exec (.checksumCompare 0 true) (comparing false 26))) = (1, [], false, [false]) ∧ compared (nextOf (exec (.checksumCompare 0 false) (comparing false 27))) = (0, [], false, [false]) ∧
    compared (nextOf (exec (.checksumCompare 0 true) (comparing false 27))) = (0, [(50, 0)], false, [false]) ∧ compared (nextOf (exec (.checksumCompare 0 true) (comparing true 27))) = (0, [], true, [true]) := by decide +kernel
theorem witness_MatrixEngine_completion :
    opS.poi = false ∧ (endedStep.core 0).onArray = none ∧
    ((nextOf (exec (.stepCompletion 0) endedStep)).thread? 10).map (fun t => (t.terms, t.termCyc, t.termSkew, tget t.flags 3 0, t.flight.length)) = some (5, 24, 6, 0, 0) ∧
    ((nextOf (exec (.stepCompletion 0) endedStep)).core 0).steps.length = 0 := by decide +kernel

/-! The copy engine. A row of the team's region at 0x100, filled or copied from one at 0x180. -/

def recPad (base n : Nat) : Rec := recOf [(0, 2 ^ 62 + base), (128, 7), (153, 1), (256, 0x0102030405060708), (320, 64), (512, n)]
def cmdF : Command :=
  { team := 2, thread := 10, num := 0, instr := .cpyf (a128 2 255 255 0 0 7 0), ticket := 0, regs := [0x100, 0, 0], snaps := [recPad 0x100 5],
    os := [3], od := [3], buoy := none, ready := 0, accepted := true, state := .active }
def cmdC : Command := { cmdF with instr := .cpy (a128 2 255 255 1 0 7 0), snaps := [recPad 0x100 5, recPad 0x180 9], os := [2], od := [3] }
def eng (y : Command) : State :=
  { withCore (world []) fun c => { c with cmds := [(100, y)], pool := mputs [] 0x10180 ((List.range 40).map fun k => BitVec.ofNat 8 (k + 1)) } with
    issue := [] }
theorem row_of (n o : Nat) (h : 0 < n ∧ o + n ≤ 64 ∧ n < 2 ^ 20 ∧ at0 (trecOf (recPad 0x100 n)).box 0 = n ∧ (0x100 + 4 * o) / 128 = (0x100 + 4 * (o + n) - 1) / 128)
    (h2 : (trecOf (recPad 0x100 n)).dims = 1 ∧ (trecOf (recPad 0x100 n)).width = 32 ∧
      ((trecOf (recPad 0x100 n)).sc = false ∧ (trecOf (recPad 0x100 n)).scbase = 0 ∧ (trecOf (recPad 0x100 n)).swz = 0 ∧
        baseMode (trecOf (recPad 0x100 n)).base = 1 ∧ baseTile (trecOf (recPad 0x100 n)).base = false) ∧
      at0 (trecOf (recPad 0x100 n)).padlo 0 = 0 ∧ at0 (trecOf (recPad 0x100 n)).padhi 0 = 0 ∧ at0 (trecOf (recPad 0x100 n)).ext 0 = 64 ∧
      baseOff (trecOf (recPad 0x100 n)).base = 0x100) : RowOf wTeam (trecOf (recPad 0x100 n)) o n :=
  ⟨h2.1, h2.2.1, h2.2.2.1, ⟨h.2.2.2.1, h2.2.2.2.1, h2.2.2.2.2.1⟩, ⟨h.1, by rw [h2.2.2.2.2.2.1]; omega,
    by rw [h2.2.2.2.2.2.2]; show 256 + 4 * (o + n) ≤ 4096 * 1; omega⟩, by rw [h2.2.2.2.2.2.2]; exact h.2.2.2.2⟩
/-- The first and the last row that a line of 32 elements holds. -/
theorem witness_CopyEngine_rows : RowOf wTeam (trecOf (recPad 0x100 5)) 3 5 ∧ RowOf wTeam (trecOf (recPad 0x100 32)) 32 32 :=
  ⟨row_of 5 3 (by decide +kernel) (by decide +kernel), row_of 32 32 (by decide +kernel) (by decide +kernel)⟩
theorem eng_pool (y : Command) : Memory.wf ((eng y).core 0).pool = true := by
  change Memory.wf (mputs [] 0x10180 ((List.range 40).map fun k => BitVec.ofNat 8 (k + 1))) = true
  decide +kernel
theorem eng_order (y : Command) : inTurn (eng y) 0 y = true := by
  have hp : (eng y).parts = (world []).parts := rfl
  have h : detMode (eng y) 0 = detMode (world []) 0 := by simp only [detMode, partOfCore, partOfCluster, State.part, hp]
  have h0 : detMode (world []) 0 = false := by decide +kernel
  simp [inTurn, h, h0]
theorem runs_of (y : Command) (h : y.team = 2 ∧ y.state = .active ∧ y.waiting = false ∧ y.c = 0 ∧ y.counted = 0 ∧ y.got = [] ∧ y.fences = [] ∧
    y.bracketed = false ∧ y.afterCommit = false ∧ y.buoy = none ∧ acqX y.flds = false ∧ relX y.flds = false) (hp : y.source = none ∧ y.prior = []) :
    EngineRuns (eng y) 0 100 y wTeam := by
  obtain ⟨h1, h2, h3, h4, h5, h6, h7⟩ := h
  exact ⟨⟨rfl, by rw [h1]; rfl, rfl⟩, rfl, ⟨h2, h3, h4, h5, h6⟩, h7, ⟨eng_order y, hp.1, by simp [hp.2]⟩, ⟨rfl, eng_pool y⟩⟩
theorem witness_CopyEngine_runs : EngineRuns (eng cmdF) 0 100 cmdF wTeam ∧ EngineRuns (eng cmdC) 0 100 cmdC wTeam :=
  ⟨runs_of cmdF (by decide +kernel) ⟨rfl, rfl⟩, runs_of cmdC (by decide +kernel) ⟨rfl, rfl⟩⟩
theorem witness_CopyEngine_positions :
    (trecOf (recPad 0x180 9)).dims = 1 ∧ permOf cmdC.flds.x 1 = [0] ∧ bitCopy (snapAt cmdC 1) (snapAt cmdC 0) (bitAt cmdC.flds.mod 0) = true ∧
    (∀ b < 20, poolBad (eng cmdC) 0 (0x10188 + b) 1 = false) ∧
    ((nextOf (exec (.positionPerformed 0 100) (eng cmdC))).cmd? 0 100).isNone = true ∧
    poolNat (nextOf (exec (.positionPerformed 0 100) (eng cmdC))) 0 0x1010C 4 = 0x0C0B0A09 ∧
    poolNat (nextOf (exec (.positionPerformed 0 100) (eng cmdF))) 0 0x1011C 4 = 0x05060708 ∧
    poolNat (nextOf (exec (.positionPerformed 0 100) (eng cmdF))) 0 0x10120 4 = 0 := by decide +kernel
def waitsFor (clk : Nat) : State :=
  { withThread (eng { cmdF with state := .queued, accepted := false, ready := 4 }) (fun t => { t with
      flags := [(1, 3)], flight := [{ cls := .v, ready := 0, flag := some 1, regs := [(7, 9)], poison := [], sreg := none, wait := .accept 100 4 }] }) with
    dies := [(0, { clk := clk })], issue := [] }
theorem witness_CopyEngine_acceptance :
    (nextOf (exec (.commandAcceptance 0 100) (waitsFor 4))).cmd? 0 100 = some { cmdF with state := .queued, ready := 4 } ∧
    ((nextOf (exec (.commandAcceptance 0 100) (waitsFor 4))).thread? 10).map (fun t => (tget t.regs 7 0, tget t.flags 1 0, t.flight.length)) = some (9, 2, 0) ∧
    ((nextOf (exec (.commandActivate 0) (eng { cmdF with state := .queued }))).cmd? 0 100).map (·.state) = some .active := by decide +kernel
def resetAt (st : CmdState) : State := { eng { cmdF with state := st } with teams := [(2, { wTeam with tx := { depth := 2, held := [(1, 1)] } })] }
theorem witness_EngineReset :
    (resetAt .queued).teamsOn 0 = [(2, { wTeam with tx := { depth := 2, held := [(1, 1)] } })] ∧
    ((nextOf (exec (.engineReset 0) (resetAt .queued))).core 0).cmds.length = 1 ∧
    ((nextOf (exec (.engineReset 0) (resetAt .active))).core 0).cmds.length = 0 ∧
    ((nextOf (exec (.engineReset 0) (resetAt .active))).team? 2).map (fun x => (x.tx.aborted, x.fails.length)) = some (true, 1) := by decide +kernel

/-! Lines leave the caches. -/

def evW (h : HomeMeta) (bytes : List Byte) : State :=
  { world [] with dev := { home := mputs (mputs [] 128 bytes) 300 [9], homeMeta := [(1, h), (2, {})], hbm := mputs [] 100 [7, 8] } }
def hbmOf (u : State) : Option (Nat × Bool) := (tfind u.dev.hbmMeta 1).map fun m => (m.tag, m.poison)
def epW (v : VisMeta) (h : HomeMeta) : State :=
  { world [] with
    dies := [(1, { ep := [(0, 5)], vis := mputs [] 128 [1, 2, 3], visMeta := [(1, v)] })]
    dev := { home := mputs [] 128 [9, 9, 9, 9], homeMeta := [(1, h)] } }
def lineOf (u : State) : List Byte × Option (Bool × Bool) :=
  (mgets u.dev.home 128 4, (tfind u.dev.homeMeta 1).map fun g => (g.mod, g.poison))
theorem witness_LinesLeave :
    homeDie 128 = 0 ∧ Memory.wf (evW {} [1, 2, 3]).dev.home = true ∧ Memory.wf (evW {} [1, 2, 3]).dev.hbm = true ∧
    rising (evW {} [1, 2, 3]).dev.homeMeta = true ∧ hbmOf (nextOf (exec (.l2Eviction 0 1) (evW {} [1, 2, 3]))) = none ∧ hbmOf (nextOf (exec (.l2Eviction 0 1) (evW { mod := true, nc := true } [1, 2, 3]))) = some (0, false) ∧
    hbmOf (nextOf (exec (.l2Eviction 0 1) (evW { mod := true, poison := true } [1, 2, 3]))) = some (0, true) ∧ (hbmOf (nextOf (exec (.l2Eviction 0 1) (evW { mod := true } [1, 2, 3])))).isSome = true ∧
    Memory.wf (epW {} {}).dev.home = true ∧ Memory.wf ((epW {} {}).die 1).vis = true ∧ tget ((epW {} {}).die 1).ep 0 0 = 5 ∧
    lineOf (nextOf (exec (.epochServeRequest 1 0 4) (epW { dirty := 5, dep := 4 } {}))) = ([1, 9, 3, 9], some (true, false)) ∧
    lineOf (nextOf (exec (.epochServeRequest 1 0 4) (epW { dirty := BitVec.allOnes 128, dep := 3 } { poison := true }))) = ([1, 2, 3, 0], some (true, false)) ∧
    lineOf (nextOf (exec (.epochServeRequest 1 0 4) (epW { dirty := 5, dep := 4, poison := true } {}))) = ([1, 9, 3, 9], some (true, true)) := by decide +kernel

/-! Routes. Two teams of a cohort with one tile of 32-bit elements. -/

def rrec (rank : Nat) : Rec :=
  recOf [(0, 2 ^ 62), (64, 2 ^ 62 + 0x4000), (128, 7), (136, 1), (156, 1), (160, 2), (168, rank), (176, 1), (224, 0x5000), (256, 0x5040)]
def rTeam (idx core : Nat) (ts : Table RouteTile) : Team :=
  { wTeam with core := core, idx := idx, cohort := 2, spadP := 6, routes := [(0, { snap := rrec idx, tiles := ts })] }
def rCore (bs : Memory) : Core := { wCore with cfg := { wCore.cfg with spadP := 6 }, pool := bs }
def rPair (ts : Table RouteTile) (bs : Memory) : State :=
  { world [] with teams := [(2, rTeam 0 0 ts), (3, rTeam 1 1 [])], cores := [(0, rCore bs), (1, rCore [])], issue := [] }
def rReady : State := setReady (rTeam 0 0 []) (rtabOf (rrec 0)) 0 true (rPair [] [(0x10001, 5)])
def tlF : RouteTile := { fired := true, sent := 1, got := [(2, 4096)] }
def rLanded : State := rPair [(0, tlF)] [(0x10000, 5), (0x11000, 6)]
theorem witness_RouteTiles :
    rtabBad (rTeam 0 0 []) (rtabOf (rrec 0)) false = false ∧ rtabBad (rTeam 1 1 []) (rtabOf (rrec 1)) false = false ∧ (rtabOf (rrec 0)).tb = 4096 ∧
    (rtabOf (rrec 0)).oneShot = true ∧ (rtabOf (rrec 0)).m = 2 ∧ (rTeam 0 0 []).routing = true ∧ baseMode (rtabOf (rrec 0)).dbase = 1 ∧
    (rtabOf (rrec 0)).net = false ∧ (rtabOf (rrec 0)).n = 1 ∧ Memory.wf (rReady.core 0).pool = true ∧
    readyFlag rReady (rTeam 0 0 []) (rtabOf (rrec 0)) 0 = true ∧
    (rReady.team? 2).map (fun x => (x.routes.map fun r => (r.2.tile 0).sent)) = some [0] ∧
    4096 ≤ tget tlF.got (2 * (1 - 0) + 0) 0 := by decide +kernel
theorem witness_RouteTiles_fires :
    mget ((nextOf (exec (.tileFire 2 0 0) rReady)).core 1).pool 0x10001 = 5 := by decide +kernel
theorem witness_RouteTiles_reduces :
    (tlF.fired, tlF.done, tlF.sent) = (true, false, 1) ∧ tlF.bad = [] ∧ tlF.badStage = [] ∧ Memory.wf (rLanded.core 0).pool = true ∧
    rising rLanded.teams = true ∧ (rLanded.core 0).poolPoison = [] := by decide +kernel
/-! Queues and host records. -/

def qrW (y : Queue) : State := { State.reset with parts := [(3, { exist := true })], queues := [(4, y)] }
/-- The largest defined value that enables queue 4 for partition 3. -/
def qctlMost : Nat := 1 + 2 * 16 + 256 * 7 + 65536 * 3 + 2 ^ 20 * 16
theorem witness_QueueRegisters :
    ((nextOf (exec (.qctlWrite 4 9) (qrW { qctl := 7 }))).queue 4).qctl = 7 ∧ ((nextOf (exec (.qctlWrite 4 8) (qrW { qctl := 7 }))).queue 4).qctl = 6 ∧
    ((nextOf (exec (.qctlWrite 4 qctlMost) (qrW { qctl := 6 }))).queue 4).qctl = BitVec.ofNat 64 qctlMost ∧
    (∀ v ∈ [qctlMost + 2 ^ 25, qctlMost + 64, qctlMost + 2 ^ 11, qctlMost + 2, qctlMost + 2 ^ 20, qctlMost + 65536, qctlMost - 1],
      ((nextOf (exec (.qctlWrite 4 v) (qrW { qctl := 6 }))).queue 4).qctl.getLsbD 0 = false) ∧
    ((nextOf (exec (.qctlWrite 4 qctlMost) (qrW { qctl := 6, fired := true }))).queue 4).qctl = BitVec.ofNat 64 (qctlMost - 1) ∧
    ((nextOf (exec (.doorbellWrite 4 5) (qrW { qctl := 6, head := 2 ^ 32 - 3, doorbell := 9 }))).queue 4).doorbell = 5 ∧
    ((nextOf (exec (.doorbellWrite 4 6) (qrW { qctl := 6, head := 2 ^ 32 - 3, doorbell := 9 }))).queue 4).doorbell = 9 ∧
    (let y := (nextOf (exec (.qwdogWrite 4 (2 ^ 32)) (qrW { fired := true, timer := 3, bound := 4 }))).queue 4
     (y.limit, y.fired, y.timer, y.bound) = (0, false, 0, 0)) ∧
    (let y := (nextOf (exec (.qwdogWrite 4 1) (qrW { fired := true, timer := 3, bound := 4 }))).queue 4
     (y.limit, y.fired, y.timer, y.bound) = (1, true, 3, 4)) := by decide +kernel

/-- Queue 4 stands at a record of two teams of 8 registers at 0x500 of partition 0. -/
def lrec : Nat := 0x1000 + 2 ^ 128 * (2 + 8 * 65536 + 2 ^ 32) + 2 ^ 192 * 2 + 2 ^ 224
def hostW (ptroot : DWord) : State :=
  { granted ptroot (world []) with
    dev := { home := pt (0x1F + 2 ^ 21) (mputs [] 0x200500 (bytesOf 40 lrec)), homeMeta := homes [0, 32, 64, 16394, 16395, 16396] }
    queues := [(4, { qctl := BitVec.ofNat 64 (1 + 2 * 2 + 256 * 3), qbase := 0x400, head := 5, doorbell := 6, limit := 7, cqconn := 9 })] }
def tookOf (s : State) : State :=
  let v := s.queue 4
  let r := ioRead 0 v.recordVa 256 (chargeRead 0 s)
  { r.2 with queues := tput r.2.queues 4 { v with head := (v.head + 1) % 2 ^ 32, waited := 0 } }
theorem witness_HostRecords_read :
    nextReader (hostW 1) = some 0 ∧ (nextQueue (hostW 1) 0).map (·.1) = some 4 ∧ ((hostW 1).queue 4).recordVa = 0x500 ∧
    ((ioRead 0 0x500 256 (chargeRead 0 (hostW 1))).1.map fun x => (leNat x.1, x.2)) = some (lrec, false) ∧
    (launchStatus 0 1 (launchRecOf lrec) false none (tookOf (hostW 1))).1 = 0 ∧
    ((nextOf (exec (.hostRecordRead 0) (hostW 1))).grid? 100).map (fun d => (d.teams, d.regs, d.started)) = some (2, 8, true) ∧
    (ioRead 0 0x500 256 (chargeRead 0 (hostW 0))).1 = none ∧ nextReader (hostW 0) = some 0 ∧
    ((nextOf (exec (.hostRecordRead 0) (hostW 0))).queue 4).cqsent = 1 := by decide +kernel
/-- The watchdog of queue 4 has expired; another queue of the partition has a grid. -/
def wdW : State :=
  { world [] with
    queues := [(4, { qctl := BitVec.ofNat 64 (1 + 2 * 2), limit := 7, bound := 7, timer := 7, cqconn := 9 }), (5, { qctl := 5, limit := 3, bound := 3, timer := 1 })]
    grids := [(1, { wGrid with queue := 4, host := some 1 }), (3, { wGrid with queue := 5 })]
    teams := [(2, wTeam), (4, { wTeam with grid := 3, core := 1 }), (6, { wTeam with grid := 3, core := 2, state := .ended })] }
theorem witness_HostRecords_watchdog :
    expired wdW (4, wdW.queue 4) = true ∧ expired wdW (5, wdW.queue 5) = false ∧ rising wdW.queues = true ∧ rising wdW.grids = true ∧
    rising wdW.teams = true ∧ ((nextOf (exec (.watchdogExpiry 4) wdW)).queue 4).fired = true ∧
    (nextOf (exec (.watchdogExpiry 4) wdW)).grids.map (·.1) = [3] ∧
    (nextOf (exec (.watchdogExpiry 4) wdW)).teams.map (fun e => (e.1, e.2.saveReq)) = [(2, false), (4, true), (6, true)] := by decide +kernel
/-- Partition 0 recovers, its teams saved or gone; partition 1 has a team that runs. -/
def rcW (st : TeamState) : State :=
  { world [] with
    parts := [(0, { wPart with recovering := some (3, [(4, 1, 1), (5, 1, 2)]), recov := 2 ^ 32 - 1, fqctl := 9 * 65536 }), (1, { exist := true, clusters := 2 })]
    pkg := { us := 10 }
    teams := [(2, { wTeam with grid := 3, state := st }), (4, { wTeam with grid := 3, state := .saved }), (6, { wTeam with part := 1, core := 64 })]
    grids := [(3, { wGrid with queue := 5 })]
    threads := []
    cores := [(0, { wCore with pool := [(1, 1)] }), (64, wCore)]
    clusters := [(0, { tlb := [(0, leafE 1)] }), (1, { tlb := [(0, leafE 1)] })]
    dies := [(0, { visMeta := [(2 ^ 31, { part := 0, dirty := 1 }), (2 ^ 31 + 1, { part := 1 })], ep := [(0, 3), (1, 2)], wbe := [(0, 1)] })] }
theorem witness_HostRecords_recovery :
    drained (rcW .killed) 0 = true ∧ drained (rcW .live) 0 = false ∧ rising (rcW .killed).teams = true ∧ rising (rcW .killed).cores = true ∧
    rising (rcW .killed).clusters = true ∧ rising (rcW .killed).dies = true ∧
    (∀ d < 4, rising ((rcW .killed).die d).visMeta = true ∧ rising ((rcW .killed).die d).ep = true ∧ rising ((rcW .killed).die d).wbe = true) ∧
    ((nextOf (exec (.recoveryResume 0) (rcW .killed))).part 0).recov = 0 ∧ ((nextOf (exec (.recoveryResume 0) (rcW .killed))).core 0).pool = [] ∧
    ((nextOf (exec (.recoveryResume 0) (rcW .killed))).cluster 1).tlb.length = 1 ∧
    ((nextOf (exec (.recoveryResume 0) (rcW .live))).part 0).recov = 2 ^ 32 - 1 := by decide +kernel

/-! Partition registers. -/

def prW (f : Partition → Partition) : State := { world [] with parts := [(0, f wPart)] }
def shot (sh : List (Nat × Nat)) : State :=
  { prW (fun p => { p with shoots := sh, regs := [(0x20, 65536 * 33)] }) with
    clusters := [(0, { tlb := [(32, leafE 1), (33, leafE 1), (37, leafE 1), (38, leafE 1), (40, { leafE 1 with level := 2 })] })]
    cores := [(0, { wCore with gcache := [{ vline := 33 * 512, first := 0, n := 1, bytes := [], pline := 0, bad := false },
      { vline := 33 * 512 - 1, first := 0, n := 1, bytes := [], pline := 0, bad := false }] })] }
theorem witness_PartitionRegisters :
    ((nextOf (exec (.registerWrite 0x10000 (2 ^ 64 - 1)) (prW id))).part 0).ptroot = 0xFFFFFFFF00001 ∧
    ((nextOf (exec (.registerWrite 0x10008 (2 ^ 64 - 1)) (prW id))).part 0).xlctl = 3 ∧
    (nextOf (exec (.registerWrite 0x20 2400) (prW id))).pkg.pwrlim = 2400 ∧ (nextOf (exec (.registerWrite 0x20 2401) (prW id))).pkg.pwrlim ≠ 2401 ∧
    (plainMask 0x20).isSome = true ∧ (∀ o ∈ [0x30, 0x58, 0x60, 0x78], nextOf (exec (.registerWrite (0x10000 + o) 77) (prW id)) = prW id) ∧
    ((nextOf (exec (.shootdownStart 0 0) (shot []))).part 0).shoots = [] ∧
    ((nextOf (exec (.shootdownStart 0 (2 ^ 40)) (shot [(1, 2)]))).part 0).shoots = [(1, 2), (33, 2 ^ 40)] ∧
    ((nextOf (exec (.shootdownStart 0 5) (shot []))).cluster 0).tlb.map (·.1) = [32, 38] ∧
    ((nextOf (exec (.shootdownStart 0 5) (shot []))).core 0).gcache.map (·.vline) = [33 * 512 - 1] ∧
    rangeBusy (shot [(33, 5)]) 0 33 5 = false ∧ ((nextOf (exec (.shootdownComplete 0) (shot [(33, 5)]))).part 0).shootSeq = 1 ∧
    ((nextOf (exec (.promofreeWrite 0 (2 ^ 52 - 1)) (prW id))).part 0).promoFree = [2 ^ 52 - 2 ^ 21] ∧
    ((nextOf (exec (.promofreeWrite 0 0) (prW fun p => { p with promoFree := List.replicate 64 0 }))).part 0).promoFree.length = 64 := by decide +kernel

/-! Promotions. The L2 entry at 8192 names the table at 12288, whose 32 leaves name three pages by turns. -/

def leaves (leaf : Nat) : Nat := ((List.range 32).map fun i => (leaf + 65536 * (i % 3)) * 2 ^ (64 * i)).sum
def pages3 : List Nat := (List.range 32).map fun i => 65536 * (65 + i % 3)
def promW (pr : Option (Nat × Nat × List Nat)) (free : List Nat) (hs : Table HomeMeta) : State :=
  { prW (fun p => { p with grant := [0], ptroot := 1, xlctl := 1, promoFree := free, promo := pr }) with
    dev := { home := mputs (pt (1 + 12288) []) 12288 (bytesOf 256 (leaves (65 * 65536 + 7))), homeMeta := hs } }
def tables : List Nat := [0, 32, 64, 96, 97]
theorem witness_PromotionsAndFaults_start :
    let s := promW none [2 ^ 21 + 2 ^ 38, 2 ^ 21] (homes tables)
    (regionAt 0 0 s).1.map (fun r => (r.entry, r.leaf, r.pages, blockFits r (2 ^ 21 + 2 ^ 38), blockFits r (2 ^ 21))) = some (8192, 7, pages3, false, true) ∧
    ((nextOf (exec (.promotionStart 0 0) s)).part 0).promo = some (0, 2 ^ 21, pages3) ∧
    ((nextOf (exec (.promotionStart 0 0) s)).part 0).promoFree = [2 ^ 21 + 2 ^ 38] := by decide +kernel
theorem witness_PromotionsAndFaults_complete :
    let s := promW (some (0, 2 ^ 21, pages3)) [] (homes tables)
    rangeBusy s 0 0 32 = false ∧ (regionAt 0 0 s).1.map (fun r => (r.entry, r.leaf, r.pages)) = some (8192, 7, pages3) ∧
    (∀ f ∈ pages3, f / 2 ^ 21 ≠ 2 ^ 21 / 2 ^ 21) ∧ 8192 / 2 ^ 21 ≠ 2 ^ 21 / 2 ^ 21 ∧ Memory.wf s.dev.home = true ∧ rising s.cores = true := by decide +kernel
/-- The same with every home line of the pages held. -/
theorem witness_PromotionsAndFaults_lines :
    let s := promW (some (0, 2 ^ 21, pages3)) [] (homes (tables ++ (List.range 1536).map (65 * 512 + ·)))
    (regionAt 0 0 s).1.map (fun r => (r.entry, r.leaf, r.pages)) = some (8192, 7, pages3) ∧
    ∀ f ∈ [65, 66, 67].map (65536 * ·), ∀ k ∈ [0, 511], (tfind s.dev.homeMeta (f / 128 + k)).isSome = true := by decide +kernel
def prk : Park := { va := 5 * 65536 + 4, kind := 1, level := 3, write := false, id := 77, ctx := 0 }
/-- The command of thread 10 stands at page 5, whose leaf is given. -/
def parkedS (leaf : Nat) : State :=
  { granted 1 (eng { cmdC with state := .parked, park := some prk }) with
    parts := [(0, { wPart with grant := [0], ptroot := 1, fqctl := 9 * 65536 })]
    dev := { home := pt leaf [], homeMeta := homes [0, 32, 64] } }
def answered (leaf : Nat) : Option (Nat × Nat) := match (access 0 0 .read none prk.va (parkedS leaf)).1 with
  | .ok _ => none
  | .error f => some (f.kind, f.level)
theorem witness_PromotionsAndFaults_answers :
    answered (2 ^ 21 + 0x1F) = none ∧ (answered 0).isSome = true ∧ (parkedS 0).cores.length = 1 ∧ (parkedS 0).teams.length = 1 ∧
    ((nextOf (exec (.faultrespResume 0 (2 ^ 60 + 5 * 65536)) (parkedS (2 ^ 21 + 0x1F)))).core 0).cmds.map (fun e => (e.2.state, e.2.park)) = [(.active, none)] ∧
    ((nextOf (exec (.faultrespResume 0 (2 ^ 60 + 5 * 65536)) (parkedS 0))).part 0).fqsent = 1 ∧
    ((nextOf (exec (.faultrespFail 0 (2 ^ 61 + 77)) (parkedS 0))).core 0).cmds.length = 0 := by decide +kernel
/-! Keys, grants and partitions. -/

def keyedW (f : Partition → Partition) : State :=
  { prW f with
    dies := [(1, { visMeta := [(5, { part := 0, key := 3, dirty := 1 }), (6, { part := 0, key := 0 })], vis := [(640, 1)] })]
    dev := { homeMeta := [(5, { part := 0, key := 3, mod := true }), (7, { part := 0, key := 3 }), (8, { part := 1, key := 3 })] } }
def keyWord (n slot : Nat) : Nat := n * 2 ^ 60 + slot
def twoKeys (p : Partition) : Partition := { p with keys := [(0, 1), (3, 9)] }
def recovers (p : Partition) : Partition := { p with recovering := some (1, []) }
/-- What a key operation leaves: the operation that runs, its slot and its status. -/
def keyState (u : State) : Nat × Nat × Nat := ((u.part 0).keyOp, (u.part 0).keySlot, (u.part 0).keyStatus)
theorem witness_KeysAndGrants_keys :
    (keyedW id).part 0 = wPart ∧ wPart.keyOp = 0 ∧ wPart.recovering = none ∧
    keyState (nextOf (exec (.keyctlGen 0 (keyWord 1 15)) (keyedW id))) = (1, 15, 0) ∧
    keyState (nextOf (exec (.keyctlGen 0 (keyWord 1 0)) (keyedW id))) = (0, 0, 1) ∧
    keyState (nextOf (exec (.keyctlGen 0 (keyWord 1 1)) (keyedW recovers))) = (0, 1, 3) ∧
    keyState (nextOf (exec (.keyctlClear 0 (keyWord 2 0)) (keyedW id))) = (0, 0, 2) ∧
    keyState (nextOf (exec (.keyctlClear 0 (keyWord 2 15)) (keyedW id))) = (0, 15, 1) ∧
    keyState (nextOf (exec (.keyctlClear 0 (keyWord 2 3)) (keyedW recovers))) = (0, 3, 3) ∧
    keyState (nextOf (exec (.keyctlClear 0 (keyWord 2 3)) (keyedW twoKeys))) = (2, 3, 0) ∧
    (∀ d < 4, rising ((keyedW twoKeys).die d).visMeta = true) ∧ rising (keyedW twoKeys).dev.homeMeta = true ∧
    (nextOf (exec (.keyctlClear 0 (keyWord 2 3)) (keyedW twoKeys))).dev.homeMeta.map (·.1) = [8] ∧
    ((nextOf (exec (.keyOperationDone 0) (keyedW fun p => { p with keyOp := 1, keySlot := 3 }))).part 0).keys.map (·.1) = [0, 3] ∧
    ((nextOf (exec (.keyOperationDone 0) (keyedW fun p => { p with keys := [(0, 1), (3, 9)], keyOp := 2, keySlot := 3 }))).part 0).keys.map (·.1) = [0] := by
  decide +kernel
/-- Partition 0 holds the first block of window 2, partition 1 the second; block 135 does not exist. -/
def grantW : State := { prW id with parts := [(0, { wPart with grant := [128] }), (1, { grant := [129] })] }
def saveable : State :=
  { world [] with
    teams := [(2, { wTeam with gridId := 0x400, idx := 1, image := some 0 }), (3, { wTeam with gridId := 0x400, idx := 2 })]
    grids := [(1, { wGrid with saveBase := 65536, saveSlots := 2 })] }
theorem witness_KeysAndGrants_grants :
    ((nextOf (exec (.pgrantWrite 0 2 (1 + 2 ^ 7)) grantW)).part 0).grant = [128] ∧ ((nextOf (exec (.pgrantWrite 0 2 3) grantW)).part 0).grant = [128] ∧
    ((nextOf (exec (.pgrantWrite 0 2 (1 + 2 ^ 6)) grantW)).part 0).grant = [128, 134] ∧ rising saveable.teams = true ∧
    (nextOf (exec (.savereqWrite 0 (0x400 + 2 ^ 33)) saveable)).teams.map (·.2.saveReq) = [false, true] := by decide +kernel

def pcv (o p m : Nat) : Nat := o * 2 ^ 60 + p * 2 ^ 12 + m
def noGrids (f : Pkg → Pkg) : State := { world [] with grids := [], pkg := f {} }
/-- What PARTCTL leaves: the operation that runs and the status. -/
def partState (u : State) : Nat × Nat := (u.pkg.partOp, u.pkg.partStatus)
theorem witness_Partitions_commands :
    partState (nextOf (exec (.partctlCreate (pcv 1 1 2)) (noGrids fun k => { k with recovery := true }))) = (0, 4) ∧
    partState (nextOf (exec (.partctlCreate (pcv 1 0 2)) (noGrids id))) = (0, 1) ∧
    (∀ v ∈ [pcv 1 1 1, pcv 1 1 0, pcv 1 12 2], partState (nextOf (exec (.partctlCreate v) (noGrids id))) = (0, 2)) ∧
    partState (nextOf (exec (.partctlCreate (pcv 1 11 0xFFE)) (noGrids id))) = (1, 0) ∧
    partState (nextOf (exec (.partctlTeardown (pcv 2 0 0)) (noGrids fun k => { k with recovery := true }))) = (0, 4) ∧
    partState (nextOf (exec (.partctlTeardown (pcv 2 1 0)) (noGrids id))) = (0, 1) ∧
    partState (nextOf (exec (.partctlTeardown (pcv 2 0 0)) (world []))) = (0, 3) ∧
    partState (nextOf (exec (.partctlTeardown (pcv 2 0 0)) (noGrids id))) = (2, 0) := by decide +kernel
theorem witness_Partitions_done :
    let made := nextOf (exec .partitionOperationDone (noGrids fun k => { k with partOp := 1, partBits := pcv 0 11 0xFFE + 2 ^ 16 }))
    let gone := nextOf (exec .partitionOperationDone (noGrids fun k => { k with partOp := 2 }))
    ((made.part 11).exist, (made.part 11).noCmp, (made.part 11).clusters, (made.part 11).keys.map (·.1)) = (true, true, 0xFFE, [0]) ∧
    (gone.part 0).exist = false ∧ (gone.cluster 0).power = 2 := by decide +kernel

/-! The management port. The requests carry SEQ 9; without an owner key a MAC is not looked at. -/

def mg (o n addr : Nat) (data : List Byte) : List Byte :=
  bytesOf 4 9 ++ bytesOf 1 o ++ bytesOf 1 n ++ bytesOf 2 0 ++ bytesOf 8 addr ++ data ++ List.replicate 32 0
/-- The status of the answer of a request. -/
def statusOf (u : State) : List (List Byte) := u.replies.map fun x => (x.bytes.drop 6).take 2
theorem witness_ManagementPort :
    (mgmtReq (mg 1 2 0x18 [])).map (fun r => (r.op, r.count, r.addr, r.seq)) = some (1, 2, 0x18, 9) ∧
    (mgmtReq (mg 2 1 0x40 (bytesOf 8 700))).map (fun r => (r.op, r.count, r.addr)) = some (2, 1, 0x40) ∧
    statusOf (nextOf (exec (.mgmtReadRequest (mg 1 2 0x18 [])) (world []))) = [[0, 0]] ∧
    statusOf (nextOf (exec (.mgmtReadRequest (mg 1 1 0x1000 [])) (world []))) = [[2, 0]] ∧
    statusOf (nextOf (exec (.mgmtReadRequest (mg 1 1 0x1C [])) (world []))) = [[1, 0]] ∧
    statusOf (nextOf (exec (.mgmtWriteRequest (mg 2 1 0x38 (bytesOf 8 700))) (world []))) = [[2, 0]] ∧
    statusOf (nextOf (exec (.mgmtWriteRequest (mg 2 1 0x44 (bytesOf 8 700))) (world []))) = [[1, 0]] ∧
    statusOf (nextOf (exec (.mgmtWriteRequest (mg 2 1 0x58 (bytesOf 8 700))) (world []))) = [[0, 0]] ∧
    statusOf (nextOf (exec (.mgmtReadRequest (mg 1 2 0x18 [])) { world [] with pkg := { seq := some 9 } })) = [] ∧
    statusOf (nextOf (exec (.mgmtReadRequest (mg 1 2 0x18 [])) { world [] with pkg := { seq := some 8 } })) = [[0, 0]] := by decide +kernel
/-- A datagram of a write of one word and a MAC is that request, whatever the MAC is; with an owner key's MAC it is taken. -/
theorem mgmtReq_append (b m : List Byte) (hb : b.length = 24) (hm : m.length = 32) (h2 : leNat ((b.drop 4).take 1) = 2)
    (h1 : leNat ((b.drop 5).take 1) = 1) :
    mgmtReq (b ++ m) = some { seq := leNat ((b.drop 0).take 4), op := 2, count := 1, addr := leNat ((b.drop 8).take 8), body := b, mac := m } := by
  have f (o k : Nat) (h : o + k ≤ 24) : ((b ++ m).drop o).take k = (b.drop o).take k := by
    rw [List.drop_append_of_le_length (by omega), List.take_append_of_le_length (by simp; omega)]
  simp [mgmtReq, f 4 1 (by omega), f 5 1 (by omega), f 8 8 (by omega), h1, h2, hb, hm, List.take_append_of_le_length]
theorem witness_ManagementPort_owned (k : BitVec 256) :
    let b := (mg 2 1 0x20 (bytesOf 8 700)).take 24
    ∃ r, mgmtReq (b ++ bytesOf 32 (kmac k b).toNat) = some r ∧ r.mac = bytesOf 32 (kmac k r.body).toNat ∧ r.op = 2 ∧ r.count = 1 :=
  ⟨_, mgmtReq_append _ _ (by decide +kernel) (by simp [bytesOf]) (by decide +kernel) (by decide +kernel), rfl, rfl, rfl⟩

/-! The package. -/

def burnt (ws : Table DWord) (o : Option (BitVec 256)) : State := { world [] with pkg := { ownerWords := ws, owner := o } }
theorem witness_PackageControl_fuses :
    (nextOf (exec (.ownerkeyWrite 2 5) (burnt [] none))).pkg.ownerWords = [(2, 5)] ∧
    (nextOf (exec (.ownerkeyWrite 3 7) (burnt [(0, 1), (2, 5)] none))).pkg.owner = some (BitVec.ofNat 256 (7 * 2 ^ 192 + 5 * 2 ^ 128 + 1)) ∧
    (nextOf (exec (.ownerkeyWrite 3 8) (burnt [] (some 9)))).pkg.owner = some 9 ∧
    (nextOf (exec (.pkgreset 0x0000096000000000) (world []))).teams.length = 1 ∧ (nextOf (exec (.pkgreset 0x0000096000000001) (world []))).teams.length = 0 ∧
    (nextOf (exec (.fwctlCommit 2) (world []))).pkg.commit = true ∧ (nextOf (exec (.fwctlCommit 5) (world []))).pkg.commit = false := by decide +kernel
/-- Whether a bank is accepted is open; each answer leads to one of the clauses, and a package that has booted takes no BOOT. -/
theorem witness_PackageControl_boot :
    (world []).pkg.booted = false ∧ (world []).pkg.recovery = false ∧
    (let a := (world []).pkg.bank
     ((world []).pkg.accepts a = false ∧ (world []).pkg.accepts (1 - a) = false) ∨ (world []).pkg.accepts a = true ∨
       ((world []).pkg.accepts a = false ∧ (world []).pkg.accepts (1 - a) = true)) ∧
    (nextOf (exec (.boot [3] []) { world [] with pkg := { booted := true } })).pkg.booted = true := by
  refine ⟨rfl, rfl, ?_, by decide +kernel⟩
  intro a
  cases (world []).pkg.accepts a <;> cases (world []).pkg.accepts (1 - a) <;> simp
/-- A report of the package, and one of partition 0, whose page no leaf names. -/
def attests (b : Bool) : State :=
  { world [] with pkg := { attBusy := b, attReport := [1, 2], regs := [(0x80, 5)] }, parts := [(0, { wPart with attBusy := b, attReport := [1, 2], regs := [(0x100, 6)] })] }
theorem witness_PackageControl_reports :
    rising (attests false).cores = true ∧ (nextOf (exec (.packageReportStart 1) (attests false))).pkg.attBusy = true ∧
    ((nextOf (exec (.packageReportStart 1) (attests false))).pkg.attReport.drop 8).take 2 = [5, 0] ∧
    mget (nextOf (exec (.reportWritten 12) (attests true))).pkg.report 1 = 2 ∧
    ((nextOf (exec (.partitionReportStart 11 0) (attests false))).part 11).attBusy = true ∧
    (ioTargets 0 .write none [(0, 2)] (attests true)).1 = none ∧ ((nextOf (exec (.reportWritten 0) (attests true))).part 0).attErr = true := by
  decide +kernel
/-- Connection 7 and a context for it. -/
def conned (new old : BitVec 512) : State := { world [] with pkg := { regs := [(0x800, 7)], connCtx := new }, conns := [(7, { ctx := old })] }
def ctxOn (p m : Nat) : BitVec 512 := BitVec.ofNat 512 (2 ^ 63 + p * 2 ^ 55 + m * 2 ^ 52 + 9 * 2 ^ 20)
theorem witness_PackageControl_contexts :
    (nextOf (exec (.conncmdLoad 2) (conned 0 5))).pkg.connCtx = 5 ∧
    (nextOf (exec (.conncmdStore 1) (conned (ctxOn 0 3) (ctxOn 0 3)))).pkg.connStatus = 1 ∧
    (nextOf (exec (.conncmdStore 1) (conned (ctxOn 1 3) 0))).pkg.connStatus = 2 ∧
    (∀ m ∈ [3, 4, 5], (nextOf (exec (.conncmdStore 1) (conned (ctxOn 0 m) 0))).pkg.connStatus = 0) ∧
    ((nextOf (exec (.conncmdStore 1) (conned (ctxOn 0 5) 0))).conn 7).sendPsn = 9 := by decide +kernel
/-! Debug registers. -/

def cmdV (op low : Nat) : Nat := 2 ^ 60 * op + low
def dbgOf (u : State) : DWord := (u.part 0).dbgctl
def busyW : State := { prW id with grids := [(1, wGrid)] }
def idleW : State := { prW id with grids := [] }
theorem witness_DebugCommands_control :
    (∀ v ∈ [2 ^ 5, 2 ^ 7, 2 ^ 13, 2, 8, 8 + 256 * 3, 8 + 256 * 21], dbgOf (nextOf (exec (.dbgctlWrite 0 v) idleW)) = 0) ∧
    dbgOf (nextOf (exec (.dbgctlWrite 0 1) busyW)) = 0 ∧ dbgOf (nextOf (exec (.dbgctlWrite 0 4) busyW)) = 4 ∧
    (∀ v ∈ [1, 3, 8 + 256 * 4, 8 + 256 * 20 + 1, 4 + 16 + 256 * 31], dbgOf (nextOf (exec (.dbgctlWrite 0 v) idleW)) = BitVec.ofNat 64 v) := by
  decide +kernel
/-- DBGTGT names team 0 of grid 0x400, or another; thread 0 of the team stands at a break. -/
def dcW (f : Partition → Partition) (tgt : Nat) : State :=
  { prW (fun p => f { p with regs := [(0x1A0, BitVec.ofNat 64 tgt), (0x1B8, 9)] }) with
    threads := [(10, { wThread 0 [] with halted := .atBreak }), (11, { wThread 1 [] with halted := .none })]
    teams := [(2, { wTeam with gridId := 0x400 })] }
def dbgS (u : State) : Nat := (u.part 0).dbgStatus
def haltsOf (u : State) : List (Bool × Bool × Bool) := u.threads.map fun e => (e.2.halted == .none, e.2.haltNext, e.2.stepping)
theorem witness_DebugCommands_targets :
    dbgS (nextOf (exec (.dbgcmdHalt 0 (cmdV 1 0)) (dcW recovers 0x400))) = 3 ∧ dbgS (nextOf (exec (.dbgcmdGo 0 (cmdV 4 0)) (dcW recovers 0))) = 3 ∧
    dbgS (nextOf (exec (.dbgcmdHalt 0 (cmdV 1 0)) (dcW id 0x401))) = 1 ∧ dbgS (nextOf (exec (.dbgcmdResume 0 (cmdV 2 0)) (dcW id (0x400 + 2 ^ 32)))) = 1 ∧
    dbgS (nextOf (exec (.dbgcmdStep 0 (cmdV 3 0)) (dcW id 0x401))) = 1 ∧ dbgS (nextOf (exec (.dbgcmdArmstop 0 (cmdV 6 0)) (dcW id 0x401))) = 1 := by
  decide +kernel
theorem witness_DebugCommands_threads :
    rising (dcW id 0x400).threads = true ∧ rising (dcW id 0x400).teams = true ∧ ((dcW id 0x400).team? 2).map (fun y => y.gridId.toNat) = some 0x400 ∧
    haltsOf (nextOf (exec (.dbgcmdHalt 0 (cmdV 1 0)) (dcW id 0x400))) = [(false, false, false), (true, true, false)] ∧
    haltsOf (nextOf (exec (.dbgcmdResume 0 (cmdV 2 0)) (dcW id 0x400))) = [(true, false, false), (true, false, false)] ∧
    haltsOf (nextOf (exec (.dbgcmdStep 0 (cmdV 3 0)) (dcW id 0x400))) = [(false, false, true), (true, false, false)] ∧
    dbgS (nextOf (exec (.dbgcmdStep 0 (cmdV 3 1)) (dcW id 0x400))) = 2 ∧
    ((nextOf (exec (.dbgcmdArmstop 0 (cmdV 6 1)) (dcW id 0x400))).part 0).stop = some (11, 1, 9) ∧
    (wThread 0 []).conv = .run ∧ (wThread 0 []).lane.toNat < 32 := by decide +kernel
def tidal : State :=
  { prW (fun p => { p with tide := 3, dbgctl := 3, det := true, gridSeq := 99 }) with
    teams := [(2, wTeam), (5, { wTeam with part := 1, core := 64, grid := 9 })]
    grids := [(1, wGrid), (9, { wGrid with part := 1 })]
    tides := [(0, { grids := [(7, wGrid)], teams := [(8, { wTeam with state := .saved, grid := 7 })], queues := [], gridSeq := 4 })] }
theorem witness_DebugCommands_tides :
    dbgS (nextOf (exec (.dbgcmdGo 0 (cmdV 4 0)) (dcW id 0))) = 2 ∧
    ((nextOf (exec (.dbgcmdGo 0 (cmdV 4 0)) (dcW (fun p => { p with hold := true }) 0))).part 0).hold = false ∧
    dbgS (nextOf (exec (.dbgcmdRollback 0 (cmdV 5 (2 ^ 16 * 3))) (prW fun p => { p with tide := 3, dbgctl := 2 }))) = 2 ∧
    ((nextOf (exec (.dbgcmdRollback 0 (cmdV 5 (2 ^ 16 * 3))) tidal)).part 0).hold = true ∧
    rising tidal.grids = true ∧ rising tidal.teams = true ∧
    (nextOf (exec (.dbgcmdRollback 0 (cmdV 5 (2 ^ 16 * 3))) tidal)).grids.map (·.1) = [7, 9] ∧
    (nextOf (exec (.dbgcmdRollback 0 (cmdV 5 (2 ^ 16 * 3))) tidal)).teams.map (·.1) = [5, 8] := by decide +kernel

/-! Power and links. -/

def sleepy (idle : DWord) (gs : Table Grid) (ts : Table Team) (cores : Table Core) (clusters : Table Cluster) : State :=
  { State.reset with
    parts := [(0, { exist := true, clusters := 0xFFF, regs := [(0x68, idle)] })]
    dies := [(0, { clk := 5000 }), (1, { clk := 5000 }), (2, { clk := 5000 }), (3, { clk := 5000 })]
    grids := gs, cores := cores, clusters := clusters, teams := ts }
/-- A cluster whose core a grid holds may be clock gated, one whose cores are free power gated; a package without work sleeps. -/
theorem witness_PowerAndLinks_depths :
    let held := sleepy 17 [(1, wGrid)] [(2, wTeam)] [(0, wCore)] [(0, { tlb := [(1, leafE 1)] })]
    let free := sleepy 1000 [(1, wGrid)] [] [(0, { wCore with grid := none }), (64, wCore)] []
    let none' := sleepy 1000 [] [] [] []
    (clusterDepth held 0 (packageDepth held), clusterDepth free 0 (packageDepth free)) = (1, 2) ∧
    ((nextOf (exec (.clusterIdleTimeout 0) held)).cluster 0).power = 1 ∧ ((nextOf (exec (.clusterIdleTimeout 0) free)).cluster 0).power = 2 ∧
    rising held.cores = true ∧ 0 < packageDepth none' ∧ none'.pkg.power = 0 ∧
    (∀ c < 12, (if packageDepth none' = 1 then 1 else 2) ≤ max (none'.cluster c).power (clusterDepth none' c (packageDepth none'))) ∧
    (∀ c < 12, (none'.cluster c).power ≤ clusterDepth none' c (packageDepth none')) ∧
    (nextOf (exec (.powerStateEntry (packageDepth none')) none')).pkg.power = packageDepth none' := by decide +kernel
def dieOne (u : State) : Bool × Nat × Bool := ((u.die 1).hot, (u.die 1).step, u.off)
theorem witness_PowerAndLinks_events :
    dieOne (nextOf (exec (.thermalEvent 1 105) (world []))) = (false, 0, false) ∧ dieOne (nextOf (exec (.thermalEvent 1 106) (world []))) = (true, 8, false) ∧
    dieOne (nextOf (exec (.thermalEvent 1 115) (world []))) = (true, 8, false) ∧ (nextOf (exec (.thermalEvent 1 116) (world []))).off = true ∧
    (nextOf (exec (.wake 1) { world [] with pkg := { power := 3 } })).pkg.power = 0 ∧
    (nextOf (exec (.linkCrcFailure 7 3 false) (world []))).pkg.linksDown = [] ∧ (nextOf (exec (.linkCrcFailure 7 3 true) (world []))).pkg.linksDown = [7] ∧
    ((nextOf (exec (.linkCrcFailure 0 0 true) (world []))).part 0).fqsent = 1 := by decide +kernel

/-! Requests that arrive. Connection 5 serves partition 0, whose fabric key is 7. -/

def conn5 : BitVec 512 := BitVec.ofNat 512 (2 ^ 63 + 3 * 2 ^ 52 + 2 * 2 ^ 49)
def fbW (leaf : Nat) (ls : Table HomeMeta) (qs : Table Queue) : State :=
  { world [] with
    parts := [(0, { wPart with grant := [0], ptroot := 1, regs := [(0x220, 7)] })]
    dev := { home := pt leaf (mputs [] 0x200300 (bytesOf 8 0x1122334455667788)), homeMeta := homes [0, 32, 64] ++ ls }
    conns := [(5, { ctx := conn5 })]
    queues := qs }
def good : State := fbW (0x1F + 2 ^ 21 + 2 ^ 59) (homes [16390]) []
def rk (k : Nat) : Nat := k * 2 ^ 28 + 7
def d8 : List Byte := bytesOf 8 0x55
/-- The kind of the answer, and whether the connection is then in error. -/
def repliedOf (u : State) : List (Nat × Bool) := u.replies.map fun x => (x.kind, (u.conn 5).ctx.getLsbD 62)
theorem witness_InboundRequests_refused :
    connTakes good 5 = true ∧ (good.conn 5).queue = [] ∧ (good.part 0).reg 0x220 = 7 ∧
    repliedOf (nextOf (exec (.invalidRequestIn 5 255) good)) = [(2, true)] ∧ repliedOf (nextOf (exec (.rdmaWriteIn 5 (rk 4) 0 d8) good)) = [(1, true)] ∧
    repliedOf (nextOf (exec (.rdmaReadIn 5 (rk 3 + 1) 0 8) good)) = [(1, true)] ∧ repliedOf (nextOf (exec (.rdmaWriteIn 5 (rk 1) 4 d8) good)) = [(2, true)] ∧
    repliedOf (nextOf (exec (.rdmaWriteIn 5 (rk 2) 4096 d8) good)) = [(1, true)] ∧ repliedOf (nextOf (exec (.rdmaWriteIn 5 (rk 1) (2 ^ 18) d8) good)) = [(1, true)] ∧
    (inboundTargets 0 .write none (2 ^ 40) 8 (inbound 5 8 good)).1 = none ∧ (inboundTargets 0 .read none (2 ^ 40) 8 (inbound 5 8 good)).1 = none := by
  decide +kernel
def pieces (t : Option (List (Nat × Acc × Nat)) × State) : Option (List (Nat × Nat)) := t.1.map fun l => l.map fun x => (x.1, x.2.2)
def poisonedLine : State := fbW (0x1F + 2 ^ 21 + 2 ^ 59) [(16390, { poison := true })] []
def belled (p : Nat) : State := fbW 0 [] [(4095, { qctl := BitVec.ofNat 64 (1 + 16 * 2 + 65536 * p), head := 9 })]
theorem witness_InboundRequests_served :
    pieces (inboundTargets 0 .write none 0x300 8 (inbound 5 8 good)) = some [(0x200300, 8)] ∧
    pieces (inboundTargets 0 .read none 0x300 8 (inbound 5 8 good)) = some [(0x200300, 8)] ∧
    Memory.wf good.dev.home = true ∧ Memory.wf (inboundTargets 0 .write none 0x300 8 (inbound 5 8 good)).2.dev.home = true ∧
    (tfind (inboundTargets 0 .read none 0x300 8 (inbound 5 8 good)).2.dev.homeMeta 16390).map (·.poison) = some false ∧
    (tfind (inboundTargets 0 .read none 0x300 8 (inbound 5 8 poisonedLine)).2.dev.homeMeta 16390).map (·.poison) = some true ∧
    mget (nextOf (exec (.rdmaWriteIn 5 (rk 3) 0x300 d8) good)).dev.home 0x200300 = 0x55 ∧
    (nextOf (exec (.rdmaReadIn 5 (rk 3) 0x300 8) good)).replies.map (·.bytes) = [bytesOf 8 0x1122334455667788] ∧
    repliedOf (nextOf (exec (.rdmaReadIn 5 (rk 3) 0x300 8) poisonedLine)) = [(3, true)] ∧
    repliedOf (nextOf (exec (.rdmaReadIn 5 (rk 2) 0xFF8 8) good)) = [(0, false)] ∧ repliedOf (nextOf (exec (.rdmaReadIn 5 (rk 1) (2 ^ 18 - 8) 8) good)) = [(0, false)] ∧
    ((nextOf (exec (.rdmaWriteIn 5 (rk 1) (64 * 4095 + 16) (bytesOf 8 10)) (belled 0))).queue 4095).doorbell = 10 ∧
    ((nextOf (exec (.rdmaWriteIn 5 (rk 1) (64 * 4095 + 16) (bytesOf 8 10)) (belled 1))).queue 4095).doorbell = 0 := by decide +kernel
theorem witness_InboundAtomics_words :
    pieces (inboundTargets 0 .rmw (some 59) 0x300 8 (inbound 5 8 good)) = some [(0x200300, 8)] ∧
    Memory.wf (inboundTargets 0 .rmw (some 59) 0x300 8 (inbound 5 8 good)).2.dev.home = true ∧
    (tfind (inboundTargets 0 .rmw (some 59) 0x300 8 (inbound 5 8 good)).2.dev.homeMeta 16390).map (·.poison) = some false ∧
    (tfind (inboundTargets 0 .rmw (some 59) 0x300 8 (inbound 5 8 poisonedLine)).2.dev.homeMeta 16390).map (·.poison) = some true ∧
    repliedOf (nextOf (exec (.fetchAddIn 5 (rk 1) 0 2) good)) = [(2, true)] ∧ repliedOf (nextOf (exec (.fetchAddIn 5 (rk 3) 4 2) good)) = [(2, true)] ∧
    repliedOf (nextOf (exec (.cmpSwapIn 5 (rk 0) 0 2 1) good)) = [(1, true)] ∧ repliedOf (nextOf (exec (.cmpSwapIn 5 (rk 4) 0 2 1) good)) = [(1, true)] ∧
    leNat (mgets (nextOf (exec (.fetchAddIn 5 (rk 3) 0x300 2) good)).dev.home 0x200300 8) = 0x112233445566778A ∧
    leNat (mgets (nextOf (exec (.cmpSwapIn 5 (rk 3) 0x300 0x1122334455667788 77) good)).dev.home 0x200300 8) = 77 ∧
    leNat (mgets (nextOf (exec (.cmpSwapIn 5 (rk 3) 0x300 1 77) good)).dev.home 0x200300 8) = 0x1122334455667788 := by decide +kernel
theorem witness_InboundAtomics_bells :
    ((nextOf (exec (.sendDoorbellBatch 5 (bytesOf 8 (4095 + 2 ^ 32 * 10))) (belled 0))).queue 4095).doorbell = 10 ∧
    ((nextOf (exec (.sendDoorbellBatch 5 (bytesOf 8 (4095 + 2 ^ 32 * 10))) (belled 1))).queue 4095).doorbell = 0 ∧
    repliedOf (nextOf (exec (.sendDoorbellBatch 5 []) good)) = [(2, true)] ∧ repliedOf (nextOf (exec (.sendDoorbellBatch 5 (bytesOf 72 0)) good)) = [(2, true)] ∧
    repliedOf (nextOf (exec (.writeImmLanding 5 (rk 1) 0 0 d8) good)) = [(2, true)] ∧ repliedOf (nextOf (exec (.writeImmLanding 5 (rk 3) 0 0 d8) good)) = [(2, true)] ∧
    repliedOf (nextOf (exec (.writeImmLanding 5 (rk 0) 0 0 d8) good)) = [(1, true)] ∧ repliedOf (nextOf (exec (.writeImmLanding 5 (rk 5) 0 0 d8) good)) = [(1, true)] := by
  decide +kernel
/-- A team that is saved, with landing window 3 bound to its route at handle 9; the origin lies in device memory at 0x300. -/
def landRec : Rec := recOf [(0, 0x300), (64, 2 ^ 62 + 0x800), (128, 7), (136, 1), (156, 1), (160, 2), (176, 1), (224, 0xC00), (256, 0xC40)]
def landed : State :=
  { good with
    parts := [(0, { wPart with grant := [0], ptroot := 1, regs := [(0x220, 7)], lands := [(3, (2, 9))], pend := [(3, [(1, 2, 0)])] })]
    teams := [(2, { wTeam with state := .saved, routes := [(9, { snap := landRec })] })] }
theorem witness_InboundAtomics_landing :
    connTakes landed 5 = true ∧ (landed.conn 5).queue = [] ∧ 8 + 8 ≤ (rtabOf landRec).landing ∧
    pieces (inboundTargets 0 .write none (baseOff (rtabOf landRec).obase + 8) 8 (inbound 5 8 landed)) = some [(0x200308, 8)] ∧
    Memory.wf (inboundTargets 0 .write none (baseOff (rtabOf landRec).obase + 8) 8 (inbound 5 8 landed)).2.dev.home = true ∧
    tget ((nextOf (exec (.writeImmLanding 5 (rk 4) (3 * 2 ^ 40 + 8) (2 ^ 31) d8) landed)).part 0).pend 3 [] = [(1, 2, 0), (8, 8, 1)] ∧
    mget (nextOf (exec (.writeImmLanding 5 (rk 4) (3 * 2 ^ 40 + 8) (2 ^ 31) d8) landed)).dev.home 0x200308 = 0x55 := by decide +kernel

/-! Requests of the device. -/

def msgR (w : MsgFor) (op len : Nat) : Msg := { op := op, rkey := 0, addr := 0, len := len, data := [], what := w, va := 0x300 }
/-- A request on its way, sent 5 us ago: its ack timeout, with TIMEOUT 0, is 4.096 us. -/
def ownW (m : Msg) (tries : Nat) : State :=
  { eng { cmdC with waiting := true } with conns := [(5, { ctx := conn5, queue := [m, m], retries := tries, since := 4 })], pkg := { us := 9 } }
def inError (u : State) : Bool := (u.conn 5).ctx.getLsbD 62
theorem witness_OwnRequests :
    connTakes (ownW (msgR (.record 0 0) 0 64) 1) 5 = true ∧ conn5.toNat / 2 ^ 49 % 8 = 2 ∧ conn5.toNat / 2 ^ 120 % 8 ∉ ((ownW (msgR (.record 0 0) 0 64) 1).port 0).paused ∧
    ((nextOf (exec (.fabricResponse 5 []) (ownW (msgR (.record 0 0) 0 64) 1))).part 0).fqidx = 1 ∧
    ((nextOf (exec (.fabricResponse 5 []) (ownW (msgR (.record 1 4) 0 64) 1))).queue 4).cqidx = 1 ∧
    ((nextOf (exec (.fabricResponse 5 d8) (ownW (msgR (.command 0 100 8) 2 8) 1))).cmd? 0 100).map (fun y => (y.waiting, tget y.got 0x300 0)) = some (false, 0x55) ∧
    conn5.toNat / 2 ^ 44 % 32 = 0 ∧ 4096 * 2 ^ 0 ≤ 1000 * (9 - 4) ∧ ¬4096 * 2 ^ 0 ≤ 1000 * (9 - 5) ∧
    ((nextOf (exec (.ackTimeout 5) (ownW (msgR (.record 0 0) 0 64) 1))).conn 5).retries = 2 ∧
    inError (nextOf (exec (.ackTimeout 5) (ownW (msgR (.record 0 0) 0 64) 2))) = true ∧
    ([1, 3, 0, 4].map fun k => inError (nextOf (exec (.rdmaNakReceived 5 k) (ownW (msgR (.record 0 0) 0 64) 1)))) = [true, true, false, false] ∧
    ((nextOf (exec (.cnpReceived 5) (ownW (msgR (.record 0 0) 0 64) 1))).conn 5).rate = 128 ∧
    ((nextOf (exec (.pfcPauseFrame 7 7 true) (world []))).port 7).paused = [7] ∧ ((nextOf (exec (.pfcPauseFrame 0 0 false) (world []))).port 0).paused = [] ∧
    ((nextOf (exec (.portLinkStateChange 7 false) (world []))).port 7).up = false := by decide +kernel
/-! Tasks. -/

def tkW (regs : Table Word) (ts : Table Task) : State :=
  withCore (world regs) fun c => { c with tasks := ts, pool := mputs [] 0x10100 (bytesOf 8 0x1122334455667788) }
def taskId (g i : Nat) : Word := BitVec.ofNat 32 (512 * g + i)
/-- The result of a task instruction that comes to its operation. -/
def taskAnswer (s : State) (i : Instr) : Option Word := if comes s 10 i then flown (nextOf (exec i s)) 10 4 else none
def targW (va : Word) (k : Option Nat) : State := withThread (tkW [(1, va)] [(3, { gen := 9, state := 3, args := [5, 6, 7] })]) fun t => { t with task := k }
def targI : Instr := .targ (a96 0 0 0 1 4)
def tqryI : Instr := .tqry (a96 0 0 0 1 4)
def tdepI : Instr := .tdep (a96 0 0 0 1 4)
def tdW (e : Task) : State := tkW [(1, taskId 9 3)] [(2, { gen := 1, state := 1, count := 5 }), (3, { e with gen := 9 })]
theorem witness_TaskInstructions_words :
    (livesIn (world []) 2).map (fun e => e.2.num) = [0, 1] ∧ rising (world []).threads = true ∧ tasksPer wCore = 512 ∧
    taskAnswer (world []) (.tlead (a96 0 0 0 0 4)) = some 0 ∧ taskAnswer (world []) (.tlead (a96 1 0 0 0 4)) = some (one32 true) ∧
    taskAnswer (targW 0 none) targI = some 0 ∧ taskAnswer (targW 2 (some 3)) targI = some 7 ∧ taskAnswer (targW 15 (some 3)) targI = some 0 ∧
    taskAnswer (targW 16 (some 3)) targI = some (taskId 9 3) ∧ taskAnswer (targW 17 (some 3)) targI = some 0 ∧
    taskAnswer (targW (taskId 9 3) none) tqryI = some 0x03000000 ∧ taskAnswer (targW (taskId 8 3) none) tqryI = some 0 ∧
    taskAnswer (targW (taskId 9 511) none) tqryI = some 0 ∧
    trapped (nextOf (exec tdepI (tdW { state := 4, entry := 0x80 }))) 0xF 1 = true ∧ taskAnswer (tdW { state := 2 }) tdepI = some 0xFFFFFFFF ∧
    taskAnswer (tdW { state := 1, count := 2 }) tdepI = some 1 ∧ taskAnswer (tdW { state := 1, count := 1 }) tdepI = some 0 ∧
    taskAnswer (targW (taskId 8 3) none) tdepI = some 0xFFFFFFFF := by decide +kernel
/-- The generation, state and count of entry `k`. A TSPAWN names the task at 0x20, whose arguments stand at 0x100. -/
def spawnAt (u : State) (k : Nat) : Nat × Nat × Nat := let e := tget (u.core 0).tasks k {}; (e.gen, e.state, e.count)
theorem witness_TaskInstructions_spawn :
    let s := tkW [(3, 0), (4, 0x20), (6, 0x100), (8, 0)] [(0, { gen := 4, state := 1 }), (1, { gen := 2 ^ 23 - 1 })]
    let i := Instr.tspawn (f128 0 3 8 6 4 10)
    comes s 10 i = true ∧ Memory.wf (s.core 0).pool = true ∧ (heldBlock s 0 (blockNo 0x20)).map (fun ws => decide (8 ∈ startsFrom 8 0 ws ∨ 0 ∈ startsFrom 8 0 ws)) = some true ∧
    flown (nextOf (exec i s)) 10 10 = some (taskId 1 1) ∧ spawnAt (nextOf (exec i s)) 1 = (1, 2, 0) := by decide +kernel
theorem witness_TaskInstructions_refused :
    let i := Instr.tspawn (f128 0 3 8 6 4 10)
    let s (notify : Word) (ts : Table Task) : State := tkW [(3, notify), (4, 0x20), (6, 0x100), (8, 0)] ts
    let bad := withCore (s 0 []) fun c => { c with poolPoison := [0x10138 / 8] }
    trapped (nextOf (exec i (s (taskId 4 0) [(0, { gen := 4, state := 4, entry := 0x60 })]))) 0xF 2 = true ∧
    flown (nextOf (exec i bad)) 10 10 = some 3 ∧ comes bad 10 i = true := by decide +kernel
/-- A core of 64 slots, each of the 8 entries of the first taken. -/
theorem witness_TaskInstructions_full :
    let s := withCore (tkW [(3, 0), (4, 0x20), (6, 0x100), (8, 0)] ((List.range 8).map fun k => (k, { gen := 1, state := 2 }))) fun c =>
      { c with cfg := { wCore.cfg with slots := 64 } }
    let i := Instr.tspawn (f128 0 3 8 6 4 10)
    comes s 10 i = true ∧ tasksPer (s.core 0) = 8 ∧ (∀ k < 8, (tget (s.core 0).tasks k {}).state ≠ 0) ∧ flown (nextOf (exec i s)) 10 10 = some 1 := by
  decide +kernel
def trW (on : Nat) : State := { world [(1, 5)] with parts := [(0, { wPart with dbgctl := BitVec.ofNat 64 on })] }
/-- Both threads stand in lanes 0 and 1 of the slot's first wave, which has 32 lanes. -/
def tcW : State := tkW [] [(3, { gen := 2, state := 2, entry := 0x40 })]
theorem witness_TaskInstructions_threads :
    taskAnswer (trW 0) (.trace (a96 0 0 0 0 4)) = some 0 ∧ taskAnswer (trW 16) (.trace (a96 0 0 0 0 4)) = some 1 ∧
    ((nextOf (exec (.trace (a96 0 0 0 0 4)) (trW 16))).part 0).dbgsent = 1 ∧
    rising (tcW.core 0).tasks = true ∧ rising tcW.teams = true ∧ (tcW.threads.map fun e => (e.2.lane.toNat, e.2.laneSlot)) = [(0, 0), (1, 0)] ∧
    ¬2 ∈ (tcW.core 0).taskLanes ∧ ((nextOf (exec (.taskThreadCreate 0) tcW)).thread? 100).map (fun t => (t.num, t.lane.toNat, t.laneSlot)) = some (1027, 2, 0) := by
  decide +kernel

/-! Launches and triggers. -/

def lnW (bits : Nat) (f : Grid → Grid) : State :=
  { withCore (granted 0 (world [(4, 0x200)])) fun c => { c with pool := mputs [] 0x10200 (bytesOf 40 bits) } with grids := [(1, f wGrid)] }
def lnI : Instr := .launch (f128 0 0 0 0 4 10)
def lnJ : Instr := .launchJ (f128 0 0 0 0 4 10)
def lnAnswer (s : State) (i : Instr) : Option Word := if comes s 10 i then flown (nextOf (exec i s)) 10 10 else none
/-- A record that no configuration serves: 1024 threads of 256 registers with 256 tiles. -/
def bigRec : Nat := 0x1000 + 2 ^ 128 * (1024 + 256 * 65536 + 256 * 2 ^ 32 + 2 ^ 56) + 2 ^ 192 * 2 + 2 ^ 224
def notLeader : State := { lnW lrec id with threads := [(10, { wThread 1 [(4, 0x200)] with num := 1 }), (11, { wThread 0 [] with num := 0 })] }
theorem witness_LaunchesAndTriggers_refused :
    Memory.wf ((lnW lrec id).core 0).pool = true ∧ rising (lnW lrec id).threads = true ∧ (launchRecOf lrec).bad = false ∧ (launchRecOf lrec).order = 0 ∧
    lnAnswer (withCore (lnW lrec id) fun k => { k with poolPoison := [0x102F8 / 8] }) lnI = some 9 ∧
    lnAnswer (lnW (lrec - 2 ^ 224) id) lnI = some 2 ∧ lnAnswer (lnW lrec fun g => { g with depth := 10 }) lnI = some 3 ∧
    lnAnswer notLeader lnI = some 8 ∧ lnAnswer (lnW bigRec id) lnJ = some 1 := by decide +kernel
theorem witness_LaunchesAndTriggers_accepted :
    let s0 := lnW lrec id
    let s : State :=
      { s0 with
        parts := [(0, { wPart with grant := [0], ptroot := 1 })]
        dev := { home := pt (0x1F + 2 ^ 21) [], homeMeta := homes [0, 32, 64, 16416] }
        teams := [(2, { wTeam with children := [1, 50] })] }
    (∀ i ∈ [lnI, lnJ], comes s 10 i = true ∧ (launchStatus 0 2 (launchRecOf lrec) false (some true) (moved s (cOf s 10 i))).1 = 0) ∧ s.grid? s.fresh = none ∧
    ((nextOf (exec lnI s)).grid? 100).map (fun d => (d.depth, d.waitGrids, d.started)) = some (2, [], false) ∧
    ((nextOf (exec lnJ s)).grid? 100).map (fun d => (d.depth, d.waitGrids, d.started)) = some (2, [1], false) := by decide +kernel
/-- A partition of 1024 grids. -/
theorem witness_LaunchesAndTriggers_full :
    let s := { lnW lrec id with grids := (List.range 1024).map fun k => (k, { wGrid with entryNo := k }) }
    comes s 10 lnI = true ∧ (s.grids.filter fun e => e.2.part == 0).length = 1024 := by decide +kernel
def tgI : Instr := .trigger (f128 0 0 0 0 0 10)
def tpW : State :=
  { world [] with
    teams := [(2, { wTeam with trigger := some [3] })]
    dies := [(1, { visMeta := [(5, { part := 0, dirty := 1, dep := 0 }), (6, { part := 0, dirty := 2, dep := 4 })], ep := [(0, 3)] })] }
def csW (ws : List Nat) : State :=
  { world [] with grids := [(1, wGrid), (3, { wGrid with started := false, waitCmds := some (2, [100]), waitGrids := ws })] }
theorem witness_LaunchesAndTriggers_points :
    comes (queued 0) 10 tgI = true ∧ ((nextOf (exec tgI (queued 0))).team? 2).map (·.trigger) = some (some [100]) ∧ comes tpW 10 tgI = true ∧
    flown (nextOf (exec tgI tpW)) 10 10 = some 1 ∧ (∀ d < 4, rising (tpW.die d).visMeta = true) ∧
    ((nextOf (exec (.triggerPoint 2) tpW)).team? 2).map (fun x => (x.triggered, x.trigDone)) = some (true, true) ∧
    ((nextOf (exec (.childStart 3) (csW []))).grid? 3).map (·.started) = some true ∧
    ((nextOf (exec (.continuationStart 3) (csW [7]))).grid? 3).map (fun g => (g.started, g.waitGrids)) = some (true, []) := by decide +kernel

/-! Invariants. The package register invariant holds at reset, where a step answers; it and the fuses' statement then speak of that step. -/

theorem witness_PackageInvariant : PackageInv State.reset ∧ PackageInv { world [] with agenda := [.tick 0] } ∧
    (match step { world [] with agenda := [.tick 0] } with | .next u => u.pkg.pwrlim == 2400 | _ => false) = true := by
  refine ⟨by unfold PackageInv; decide +kernel, by unfold PackageInv; decide +kernel, by decide +kernel⟩
theorem witness_FusesStay :
    let s : State := { world [] with agenda := [.tick 0], pkg := { owner := some 7, seq := some 5, booted := true } }
    (match step s with | .next u => u.pkg.owner == some 7 && u.pkg.booted | _ => false) = true ∧ s.pkg.booted = true ∧ s.pkg.seq = some 5 := by
  decide +kernel
end Sys2Proof.Tests
end

section
/-! PROOFS. The decoder and the encoder are inverse to each other (03 R61 to R77): each format gives back its fields and its words,
each opcode table gives the rows of its class, and every other word has its DETAIL. -/

namespace Sys2Proof

open BitVec

/-! The fields of a word. -/

theorem toNat_fld (w : Word) (lo n : Nat) : (fld w lo n).toNat = w.toNat / 2 ^ lo % 2 ^ n := by
  rw [fld, extractLsb'_toNat, Nat.shiftRight_eq_div_pow]

theorem lengthOf_eq (w : Word) : lengthOf w = if w.toNat % 4 = 3 then 1 else w.toNat % 4 + 2 := by
  have hw : (fld w 0 2).toNat = w.toNat % 4 := by simp [toNat_fld]
  have hlt : w.toNat % 4 < 4 := Nat.mod_lt _ (by decide)
  unfold lengthOf
  rw [hw]
  generalize w.toNat % 4 = k at hlt
  match k, hlt with
  | 0, _ | 1, _ | 2, _ | 3, _ => rfl

theorem fld_headBits_opc (hi : BitVec 6) (wait : BitVec 12) (dist : BitVec 3) (opc : BitVec 9) (len : BitVec 2) :
    fld (headBits hi wait dist opc len) 2 9 = opc := by
  simp (disch := decide) only [fld, headBits, extractLsb'_append_eq_of_le, extractLsb'_append_eq_of_add_le, Nat.reduceSub,
    extractLsb'_eq_self]

theorem fld_headBits_len (hi : BitVec 6) (wait : BitVec 12) (dist : BitVec 3) (opc : BitVec 9) (len : BitVec 2) :
    fld (headBits hi wait dist opc len) 0 2 = len := extractLsb'_append_eq_right

/-! The formats: their fields from their words, and their words from their fields (03 R65, R69). -/

/-- The format that an opcode's class reads from four words (03 R68). -/
def readForm (opc : Nat) (w0 w1 w2 w3 : Word) : Form :=
  if opc < 0x040 then .a64 (readA64 w0 w1)
  else if opc < 0x080 then .i64 (readI64 w0 w1)
  else if opc < 0x0C0 then .c64 (readC64 w0 w1)
  else if opc < 0x100 then .m64 (readM64 w0 w1)
  else if opc < 0x140 then .b64 (readB64 w0 w1)
  else if opc < 0x180 then .a96 (readA96 w0 w1 w2)
  else if opc < 0x1C0 then .i96 (readI96 w0 w1 w2)
  else .a128 (readA128 w0 w1 w2 w3)

/-- The first opcode of a format's class, which holds 64 (03 R68). -/
def Form.base : Form → Nat
  | .a64 _ => 0x000 | .i64 _ => 0x040 | .c64 _ => 0x080 | .m64 _ => 0x0C0
  | .b64 _ => 0x100 | .a96 _ => 0x140 | .i96 _ => 0x180 | .a128 _ => 0x1C0

/-- The length code of a format (03 R61, R68). -/
def Form.code : Form → BitVec 2
  | .a64 _ | .i64 _ | .c64 _ | .m64 _ | .b64 _ => 0
  | .a96 _ | .i96 _ => 1
  | .a128 _ => 2

/-- The number of words of a format (03 R61, R69). -/
def Form.len : Form → Nat
  | .a64 _ | .i64 _ | .c64 _ | .m64 _ | .b64 _ => 2
  | .a96 _ | .i96 _ => 3
  | .a128 _ => 4

/-- A format with the fields that it reads from four words. -/
def Form.reread (w0 w1 w2 w3 : Word) : Form → Form
  | .a64 _ => .a64 (readA64 w0 w1)
  | .i64 _ => .i64 (readI64 w0 w1)
  | .c64 _ => .c64 (readC64 w0 w1)
  | .m64 _ => .m64 (readM64 w0 w1)
  | .b64 _ => .b64 (readB64 w0 w1)
  | .a96 _ => .a96 (readA96 w0 w1 w2)
  | .i96 _ => .i96 (readI96 w0 w1 w2)
  | .a128 _ => .a128 (readA128 w0 w1 w2 w3)

theorem Form.len_eq (F : Form) : F.len = F.code.toNat + 2 := by cases F <;> rfl

theorem Form.len_bounds (F : Form) : 2 ≤ F.len ∧ F.len ≤ 4 := by cases F <;> simp [len]

theorem Form.length_words (F : Form) (o : BitVec 9) : (F.words o).length = F.len := by cases F <;> rfl

theorem wordAt_words_zero (F : Form) (o : BitVec 9) (tail : List Word) :
    ∃ hi wait dist, wordAt (F.words o ++ tail) 0 = headBits hi wait dist o F.code := by
  cases F <;> exact ⟨_, _, _, rfl⟩

theorem lengthOf_headBits (F : Form) (hi : BitVec 6) (wait : BitVec 12) (dist : BitVec 3) (o : BitVec 9) :
    lengthOf (headBits hi wait dist o F.code) = F.len := by
  unfold lengthOf
  rw [fld_headBits_len]
  cases F <;> rfl

/-- The length code of a word whose length is that of a format. -/
theorem fld_code {w : Word} {F : Form} (h : lengthOf w = F.len) : fld w 0 2 = F.code := by
  rw [lengthOf_eq, F.len_eq] at h
  apply BitVec.eq_of_toNat_eq
  rw [toNat_fld]
  split at h <;> omega

theorem wordsOfOpc_eq {F : Form} {opc : Nat} (h : F.base ≤ opc ∧ opc < F.base + 0x40) : wordsOfOpc opc = F.len := by
  unfold wordsOfOpc
  cases F <;> simp only [Form.base] at h <;> simp (disch := omega) only [Form.len, if_pos, if_neg]

theorem readForm_base (opc : Nat) (w0 w1 w2 w3 : Word) (h : opc < 512) :
    (readForm opc w0 w1 w2 w3).base ≤ opc ∧ opc < (readForm opc w0 w1 w2 w3).base + 0x40 := by
  unfold readForm
  repeat' split
  all_goals
    simp only [Form.base]
    omega

/-- An opcode of a format's class reads that format. -/
theorem readForm_eq {F : Form} {opc : Nat} (w0 w1 w2 w3 : Word) (h : F.base ≤ opc ∧ opc < F.base + 0x40) :
    readForm opc w0 w1 w2 w3 = F.reread w0 w1 w2 w3 := by
  unfold readForm
  cases F <;> simp only [Form.base] at h <;> simp (disch := omega) only [Form.reread, if_pos, if_neg]

/-- Reading the fields of a format's words gives the format back, whatever words follow. -/
theorem Form.reread_words (F : Form) (o : BitVec 9) (tail : List Word) :
    F.reread (wordAt (F.words o ++ tail) 0) (wordAt (F.words o ++ tail) 1) (wordAt (F.words o ++ tail) 2)
      (wordAt (F.words o ++ tail) 3) = F := by
  cases F <;> simp (disch := decide) only [Form.reread, Form.words, wordAt, List.cons_append, List.getD_cons_zero,
    List.getD_cons_succ, readA64, readI64, readC64, readM64, readB64, readA96, readI96, readA128, fld, headBits,
    extractLsb'_append_eq_of_le, extractLsb'_append_eq_of_add_le, extractLsb'_append_extractLsb'_eq_extractLsb',
    Nat.reduceSub, extractLsb'_eq_self]

/-- The fields that a format reads are all the bits of its words. -/
theorem Form.words_reread (F : Form) (w0 w1 w2 w3 : Word) (h : fld w0 0 2 = F.code) :
    (F.reread w0 w1 w2 w3).words (fld w0 2 9) = [w0, w1, w2, w3].take F.len := by
  cases F <;> simp only [Form.code] at h <;>
  simp (disch := decide) only [Form.reread, Form.words, Form.len, ← h, readA64, readI64, readC64, readM64, readB64, readA96,
    readI96, readA128, fld, headBits, extractLsb'_append_eq_of_le, extractLsb'_append_eq_of_add_le,
    extractLsb'_append_extractLsb'_eq_extractLsb', Nat.reduceSub, extractLsb'_eq_self] <;> rfl

/-! The opcode tables (03 R76). -/

/-- The instruction that an opcode of a format's class makes of the format; none where the opcode is unassigned. -/
def Form.instr (opc : Nat) (F : Form) : Option Instr :=
  match F with
  | .a64 f => (tableA64[opc - F.base]?).map (· f)
  | .i64 f => (tableI64[opc - F.base]?).map (· f)
  | .c64 f => (tableC64[opc - F.base]?).map (· f)
  | .m64 f => (tableM64[opc - F.base]?).map (· f)
  | .b64 f => (tableB64[opc - F.base]?).map (· f)
  | .a96 f => (tableA96[opc - F.base]?).map (· f)
  | .i96 f => (tableI96[opc - F.base]?).map (· f)
  | .a128 f => (tableA128[opc - F.base]?).map (· f)

theorem instrOf_eq (opc : Nat) (w0 w1 w2 w3 : Word) : instrOf opc w0 w1 w2 w3 = (readForm opc w0 w1 w2 w3).instr opc := by
  unfold instrOf readForm
  repeat' split
  all_goals rfl

/-- What the tables say of a row: its opcode, its format, and that its form is told apart. -/
def rowOf (i : Instr) : Option Nat × Option Form × Bool := (opcodeOf i, formOf i, spelled i)

theorem rowOf_ofTmovvRead (f : FA128) : rowOf (ofTmovvRead f) = (some 0x1C3, some (.a128 f), true) := by
  unfold ofTmovvRead
  split <;> simp_all [rowOf, opcodeOf, formOf, spelled]

theorem rowOf_ofMma (f : FA128) : rowOf (ofMma f) = (some 0x1CA, some (.a128 f), true) := by
  unfold ofMma
  split <;> simp_all [rowOf, opcodeOf, formOf, spelled]

theorem rowOf_ofMmac (f : FA128) : rowOf (ofMmac f) = (some 0x1CB, some (.a128 f), true) := by
  unfold ofMmac
  split <;> simp_all [rowOf, opcodeOf, formOf, spelled]

theorem rowOf_ofDrainS (f : FA128) : rowOf (ofDrainS f) = (some 0x1CC, some (.a128 f), true) := by
  unfold ofDrainS
  repeat' split
  all_goals simp_all [rowOf, opcodeOf, formOf, spelled]

theorem rowOf_ofLaunch (f : FA128) : rowOf (ofLaunch f) = (some 0x1DD, some (.a128 f), true) := by
  unfold ofLaunch
  split <;> simp_all [rowOf, opcodeOf, formOf, spelled]

/-- The rows of a class: opcodes in ascending order from its base, every one of its format. -/
def classRows (F : Form) (n : Nat) : List (Option Nat × Option Form × Bool) :=
  (List.range n).map fun k => (some (F.base + k), some F, true)

theorem rows_tableA64 (f : FA64) : tableA64.map (fun g => rowOf (g f)) = classRows (.a64 f) 64 := rfl
theorem rows_tableI64 (f : FI64) : tableI64.map (fun g => rowOf (g f)) = classRows (.i64 f) 19 := rfl
theorem rows_tableC64 (f : FC64) : tableC64.map (fun g => rowOf (g f)) = classRows (.c64 f) 15 := rfl
theorem rows_tableM64 (f : FM64) : tableM64.map (fun g => rowOf (g f)) = classRows (.m64 f) 13 := rfl
theorem rows_tableB64 (f : FB64) : tableB64.map (fun g => rowOf (g f)) = classRows (.b64 f) 2 := rfl
theorem rows_tableA96 (f : FA96) : tableA96.map (fun g => rowOf (g f)) = classRows (.a96 f) 47 := rfl
theorem rows_tableI96 (f : FI96) : tableI96.map (fun g => rowOf (g f)) = classRows (.i96 f) 8 := rfl
theorem rows_tableA128 (f : FA128) : tableA128.map (fun g => rowOf (g f)) = classRows (.a128 f) 32 := by
  simp only [tableA128, List.map_append, List.map_cons, List.map_nil, rowOf_ofTmovvRead, rowOf_ofMma, rowOf_ofMmac, rowOf_ofDrainS,
    rowOf_ofLaunch]
  rfl

/-- The number of assigned opcodes of a format's class (03 R76). -/
def Form.rows : Form → Nat
  | .a64 _ => 64 | .i64 _ => 19 | .c64 _ => 15 | .m64 _ => 13 | .b64 _ => 2 | .a96 _ => 47 | .i96 _ => 8 | .a128 _ => 32

/-- The rows of a class by place: an assigned opcode gives an instruction of that opcode and format. -/
theorem Form.row_instr (F : Form) (opc : Nat) : (F.instr opc).map rowOf = (classRows F F.rows)[opc - F.base]? := by
  cases F with
  | a64 f => rw [rows, ← rows_tableA64, List.getElem?_map]; simp [instr, Function.comp_def]
  | i64 f => rw [rows, ← rows_tableI64, List.getElem?_map]; simp [instr, Function.comp_def]
  | c64 f => rw [rows, ← rows_tableC64, List.getElem?_map]; simp [instr, Function.comp_def]
  | m64 f => rw [rows, ← rows_tableM64, List.getElem?_map]; simp [instr, Function.comp_def]
  | b64 f => rw [rows, ← rows_tableB64, List.getElem?_map]; simp [instr, Function.comp_def]
  | a96 f => rw [rows, ← rows_tableA96, List.getElem?_map]; simp [instr, Function.comp_def]
  | i96 f => rw [rows, ← rows_tableI96, List.getElem?_map]; simp [instr, Function.comp_def]
  | a128 f => rw [rows, ← rows_tableA128, List.getElem?_map]; simp [instr, Function.comp_def]

theorem Form.rowOf_of_instr {F : Form} {opc : Nat} {i : Instr} (h : F.instr opc = some i) :
    opc - F.base < F.rows ∧ rowOf i = (some (F.base + (opc - F.base)), some F, true) := by
  have hr := F.row_instr opc
  rw [h, classRows, List.getElem?_map] at hr
  obtain hlt | hge := Nat.lt_or_ge (opc - F.base) F.rows
  · rw [List.getElem?_range hlt] at hr
    exact ⟨hlt, Option.some.inj hr⟩
  · rw [List.getElem?_eq_none (by simpa using hge)] at hr
    simp at hr

theorem Form.instr_eq_none_iff (F : Form) (opc : Nat) : F.instr opc = none ↔ F.rows ≤ opc - F.base := by
  rw [← Option.map_eq_none_iff (f := rowOf), F.row_instr, List.getElem?_eq_none_iff]
  simp [classRows]

/-- Every instruction is the row of its own opcode in the table of its format. -/
theorem instr_of_spelled {i : Instr} {F : Form} {o : Nat} (hF : formOf i = some F) (ho : opcodeOf i = some o) (hs : spelled i = true) :
    F.instr o = some i := by
  cases i
  case tmovvRead | tmovvWrite | mma | mmac | mmaG | mmacG | drainS | drainH | drainRoute | launch | launchJ =>
    cases hF
    cases ho
    simp_all [Form.instr, Form.base, tableA128, ofTmovvRead, ofMma, ofMmac, ofDrainS, ofLaunch, spelled]
  all_goals
    cases hF <;>
    · cases ho
      rfl

/-- An instruction has an encoding exactly when it has a legality to check. -/
theorem shapeOf_isSome (tm : Bool) (i : Instr) : (Machine.shapeOf tm i).isSome = (formOf i).isSome := by
  cases i <;> rfl

theorem opcodeOf_isSome (i : Instr) : (opcodeOf i).isSome = (formOf i).isSome := by
  cases i <;> rfl

theorem spelled_of_wellFormedIn {tm : Bool} {i : Instr} {F : Form} (hF : formOf i = some F) (h : wellFormedIn tm i = true) :
    spelled i = true := by
  have hsh := shapeOf_isSome tm i
  rw [hF, Option.isSome_some, Option.isSome_iff_exists] at hsh
  obtain ⟨sh, hsh⟩ := hsh
  simp only [wellFormedIn, hsh, Bool.and_eq_true] at h
  exact h.1

theorem spelled_of_wellFormed {i : Instr} {F : Form} (hF : formOf i = some F) (h : wellFormed i = true) : spelled i = true := by
  rw [wellFormed, Bool.or_eq_true] at h
  exact h.elim (spelled_of_wellFormedIn hF) (spelled_of_wellFormedIn hF)

/-! The decoder. -/

/-- What the decoder does with the instruction that its words' opcode names. -/
theorem decodeWords_eq (room : Nat) (ws : List Word) (opc : Nat) (F : Form) (hopc : (fld (wordAt ws 0) 2 9).toNat = opc)
    (hF : readForm opc (wordAt ws 0) (wordAt ws 1) (wordAt ws 2) (wordAt ws 3) = F) :
    decodeWords room ws =
      if lengthOf (wordAt ws 0) = 1 then .pad
      else if room < lengthOf (wordAt ws 0) then .illegal 1
      else match F.instr opc with
        | none => .illegal 2
        | some i => if F.len = lengthOf (wordAt ws 0) then .instr i (lengthOf (wordAt ws 0)) else .illegal 3 := by
  subst hopc hF
  rw [← wordsOfOpc_eq (readForm_base _ (wordAt ws 0) (wordAt ws 1) (wordAt ws 2) (wordAt ws 3) (BitVec.isLt _)), ← instrOf_eq]
  rfl

/-- The decoder on the words of a format whose opcode is assigned. -/
theorem decodeWords_words {F : Form} {o : BitVec 9} {i : Instr} (tail : List Word)
    (hc : F.base ≤ o.toNat ∧ o.toNat < F.base + 0x40) (hi : F.instr o.toNat = some i) :
    decodeWords 8 (F.words o ++ tail) = .instr i F.len := by
  obtain ⟨hi6, wait, dist, hw⟩ := wordAt_words_zero F o tail
  have hopc : fld (wordAt (F.words o ++ tail) 0) 2 9 = o := by rw [hw, fld_headBits_opc]
  have hlen : lengthOf (wordAt (F.words o ++ tail) 0) = F.len := by rw [hw, lengthOf_headBits]
  rw [decodeWords_eq 8 _ o.toNat F (by rw [hopc]) (by rw [readForm_eq _ _ _ _ hc, F.reread_words]), hlen, hi]
  have := F.len_bounds
  rw [if_neg (by omega), if_neg (by omega)]
  exact if_pos rfl

theorem encode_eq {i : Instr} {F : Form} {o : Nat} (hF : formOf i = some F) (ho : opcodeOf i = some o) :
    encode i = F.words (BitVec.ofNat 9 o) := by
  simp only [encode, hF, ho]

theorem Form.base_le (F : Form) : F.base ≤ 0x1C0 ∧ F.rows ≤ 0x40 := by cases F <;> simp [base, rows]

/-- An instruction that the tables spell has the opcode of its place in its format's class. -/
theorem opcode_in_class {i : Instr} {F : Form} {o : Nat} (ho : opcodeOf i = some o) (hi : F.instr o = some i) :
    F.base ≤ o ∧ o < F.base + 0x40 := by
  obtain ⟨hlt, hrow⟩ := Form.rowOf_of_instr hi
  have := F.base_le
  simp only [rowOf, ho, Prod.mk.injEq, Option.some.injEq] at hrow
  omega

/-- Words that decode to an instruction. -/
theorem decodeWords_instr {room : Nat} {ws : List Word} {i : Instr} {n : Nat} (h : decodeWords room ws = .instr i n) :
    ∃ F : Form, F.reread (wordAt ws 0) (wordAt ws 1) (wordAt ws 2) (wordAt ws 3) = F ∧ F.instr (fld (wordAt ws 0) 2 9).toNat = some i ∧
      F.base ≤ (fld (wordAt ws 0) 2 9).toNat ∧ lengthOf (wordAt ws 0) = F.len ∧ n = F.len ∧ n ≤ room := by
  have hb := readForm_base (fld (wordAt ws 0) 2 9).toNat (wordAt ws 0) (wordAt ws 1) (wordAt ws 2) (wordAt ws 3) (BitVec.isLt _)
  refine ⟨_, (readForm_eq _ _ _ _ hb).symm, ?_⟩
  rw [decodeWords_eq room ws _ _ rfl rfl] at h
  split at h
  · cases h
  split at h
  · cases h
  split at h
  · cases h
  split at h
  · rename_i hroom _ _ hi hl
    cases h
    exact ⟨hi, hb.1, hl.symm, hl.symm, Nat.le_of_not_lt hroom⟩
  · cases h

theorem take_wordAt (ws : List Word) (n : Nat) (h : n ≤ ws.length) (h4 : n ≤ 4) :
    [wordAt ws 0, wordAt ws 1, wordAt ws 2, wordAt ws 3].take n = ws.take n := by
  apply List.ext_getElem
  · simp only [List.length_take, List.length_cons, List.length_nil]
    omega
  · intro k hk hk'
    have hlt : k < ws.length := by
      rw [List.length_take] at hk'
      omega
    obtain rfl | rfl | rfl | rfl : k = 0 ∨ k = 1 ∨ k = 2 ∨ k = 3 := by
      rw [List.length_take] at hk'
      omega
    all_goals simp [wordAt, List.getElem?_eq_getElem hlt]

end Sys2Proof

open Sys2Proof

/-- Settles O1: an instruction is the row of its own opcode, and its format is read back from its words. -/
theorem decodeEncode : Obligations.DecodeEncode := by
  unfold Obligations.DecodeEncode
  intro i tail hw hne
  cases hF : formOf i with
  | none => simp [encode, hF] at hne
  | some F =>
    obtain ⟨o, ho⟩ : ∃ o, opcodeOf i = some o := by
      rw [← Option.isSome_iff_exists, opcodeOf_isSome, hF, Option.isSome_some]
    have hi : F.instr o = some i := instr_of_spelled hF ho (spelled_of_wellFormed hF hw)
    have hc := opcode_in_class ho hi
    have h9 : (BitVec.ofNat 9 o).toNat = o := by
      have := F.base_le
      rw [BitVec.toNat_ofNat]
      exact Nat.mod_eq_of_lt (by omega)
    rw [encode_eq hF ho, Form.length_words]
    exact decodeWords_words tail (by rw [h9]; exact hc) (by rw [h9]; exact hi)

/-- Settles O2: the fields that the decoder reads are all the bits of the words, and its opcode the instruction's own. -/
theorem encodeDecode : Obligations.EncodeDecode := by
  unfold Obligations.EncodeDecode
  intro room ws i n h hn
  obtain ⟨F, hF, hi, hb, hl, rfl, hroom⟩ := decodeWords_instr h
  have hrow := (Form.rowOf_of_instr hi).2
  rw [Nat.add_sub_cancel' hb] at hrow
  simp only [rowOf, Prod.mk.injEq] at hrow
  obtain ⟨ho, hform, hs⟩ := hrow
  refine ⟨?_, hs, hroom⟩
  calc encode i = F.words (fld (wordAt ws 0) 2 9) := by
        rw [encode_eq hform ho, BitVec.ofNat_toNat, BitVec.setWidth_eq]
    _ = (F.reread (wordAt ws 0) (wordAt ws 1) (wordAt ws 2) (wordAt ws 3)).words (fld (wordAt ws 0) 2 9) := by rw [hF]
    _ = ws.take F.len := by rw [F.words_reread _ _ _ _ (fld_code hl), take_wordAt ws _ hn F.len_bounds.2]
end

section
/-! PROOFS. The fate of every word, and the words that the manual writes out (03 R61, R62, R68, R76, R77). -/

namespace Sys2Proof.Machine

open Sys2Proof

/-- The opcodes that no table assigns. -/
theorem instr_eq_none_iff_unassigned {F : Form} {o : Nat} (h : F.base ≤ o ∧ o < F.base + 0x40) :
    F.instr o = none ↔ unassigned o = true := by
  rw [F.instr_eq_none_iff]
  simp only [unassigned, Bool.or_eq_true, Bool.and_eq_true, decide_eq_true_eq]
  cases F <;> simp only [Form.base, Form.rows] at h ⊢ <;> omega

theorem len_eq_lenOf {F : Form} {o : Nat} (h : F.base ≤ o ∧ o < F.base + 0x40) : F.len = lenOf o + 2 := by
  rw [← wordsOfOpc_eq h, wordsOfOpc, lenOf]
  repeat' split
  all_goals rfl

/-- Every word is a pad word, an instruction of its opcode, or carries the first DETAIL that holds of it. -/
theorem fateOfWords : FateOfWords := by
  intro room ws w o
  have hopc : (fld (wordAt ws 0) 2 9).toNat = o := toNat_fld _ _ _
  have hw : lengthOf (wordAt ws 0) = if w % 4 = 3 then 1 else w % 4 + 2 := lengthOf_eq _
  have hc := readForm_base o (wordAt ws 0) (wordAt ws 1) (wordAt ws 2) (wordAt ws 3) (hopc ▸ BitVec.isLt _)
  have hd := decodeWords_eq room ws o _ hopc rfl
  generalize readForm o (wordAt ws 0) (wordAt ws 1) (wordAt ws 2) (wordAt ws 3) = F at hc hd
  have hu := instr_eq_none_iff_unassigned hc
  have hl := len_eq_lenOf hc
  refine ⟨fun h3 => ?_, fun h3 hr => ?_, fun h3 hr hun => ?_, fun h3 hr hun hne => ?_, fun h3 hr hun heq => ?_⟩
  · rw [if_pos h3] at hw
    rw [hd, if_pos hw]
  all_goals
    rw [if_neg h3] at hw
    rw [hw, if_neg (by omega)] at hd
  · rw [hd, if_pos hr]
  all_goals rw [if_neg (by omega)] at hd
  · rw [hd, hu.mpr hun]
  all_goals
    obtain ⟨i, hi⟩ : ∃ i, F.instr o = some i := by
      rw [← Option.ne_none_iff_exists', ne_eq, hu, hun]
      decide
    simp only [hi] at hd
  · rw [hd, if_neg (by omega)]
  · have hrow := (Form.rowOf_of_instr hi).2
    rw [Nat.add_sub_cancel' hc.1] at hrow
    exact ⟨i, by rw [hd, if_pos (by omega)], congrArg Prod.fst hrow⟩

theorem manualWords : ManualWords := by
  refine ⟨?_, ?_, ?_, ?_, ?_, ?_, ?_⟩ <;> rfl

end Sys2Proof.Machine

open Sys2Proof.Machine

/-- Settles O3: the length code and the opcode of a word decide its fate. -/
theorem wordsDecoded : Obligations.WordsDecoded := ⟨fateOfWords, manualWords⟩
end

section
/-! PROOFS. The check of a target and the instruction starts of a fetch block (03 R61 to R64). -/

namespace Sys2Proof.Machine

open Sys2Proof

theorem lengthOf_ne_one_iff (w : Word) : lengthOf w ≠ 1 ↔ w.toNat % 4 ≠ 3 := by
  rw [lengthOf_eq]
  split <;> omega

theorem lengthOf_of_ne_one {w : Word} (h : lengthOf w ≠ 1) : lengthOf w = w.toNat % 4 + 2 := by
  rw [lengthOf_ne_one_iff] at h
  rw [lengthOf_eq, if_neg h]

theorem startsFrom_succ {n k : Nat} {ws : List Word} (hk : k < 8) (hp : lengthOf (wordAt ws k) ≠ 1) :
    startsFrom (n + 1) k ws = k :: startsFrom n (k + lengthOf (wordAt ws k)) ws := by
  rw [startsFrom, if_neg (by omega), if_neg hp]

/-- The word at which a search begins, with steps enough for the block, is a start unless it is a pad word or past the block. -/
theorem self_mem_startsFrom {fuel k : Nat} {ws : List Word} (hf : 8 ≤ k + fuel) :
    k ∈ startsFrom fuel k ws ↔ k < 8 ∧ lengthOf (wordAt ws k) ≠ 1 := by
  cases fuel with
  | zero => simp [startsFrom]; omega
  | succ n =>
    unfold startsFrom
    split
    · exact iff_of_false List.not_mem_nil (by omega)
    · split
      · simp [*]
      · simp [*]; omega

theorem mem_startsFrom_bounds {fuel k j : Nat} {ws : List Word} (h : j ∈ startsFrom fuel k ws) : k ≤ j ∧ j < 8 := by
  induction fuel generalizing k with
  | zero => cases h
  | succ n ih =>
    unfold startsFrom at h
    split at h
    · cases h
    · split at h
      · cases h
      · rcases List.mem_cons.mp h with rfl | h
        · omega
        · have := ih h
          omega

/-- After a start comes the start at the end of its instruction, and none before it. -/
theorem startsFrom_after {fuel j k : Nat} {ws : List Word} (hf : 8 ≤ j + fuel) (hk : k ∈ startsFrom fuel j ws) :
    lengthOf (wordAt ws k) ≠ 1 ∧
    (k + lengthOf (wordAt ws k) ∈ startsFrom fuel j ws ↔
      k + lengthOf (wordAt ws k) < 8 ∧ lengthOf (wordAt ws (k + lengthOf (wordAt ws k))) ≠ 1) ∧
    ∀ i, k < i → i < k + lengthOf (wordAt ws k) → i ∉ startsFrom fuel j ws := by
  induction fuel generalizing j with
  | zero => cases hk
  | succ n ih =>
    by_cases hj : j < 8 ∧ lengthOf (wordAt ws j) ≠ 1
    · have hlen := lengthOf_of_ne_one hj.2
      have hf' : 8 ≤ j + lengthOf (wordAt ws j) + n := by omega
      rw [startsFrom_succ hj.1 hj.2, List.mem_cons] at *
      rcases hk with rfl | hk
      · refine ⟨hj.2, ?_, fun i hi hin hmem => ?_⟩
        · rw [← self_mem_startsFrom hf', or_iff_right (by omega)]
        · rcases List.mem_cons.mp hmem with rfl | hmem
          · omega
          · have := mem_startsFrom_bounds hmem
            omega
      · obtain ⟨hp, hnext, hno⟩ := ih hf' hk
        have hlen' := lengthOf_of_ne_one hp
        have hjk := mem_startsFrom_bounds hk
        refine ⟨hp, ?_, fun i hi hin hmem => ?_⟩
        · rw [or_iff_right (by omega), hnext]
        · exact hno i hi hin (List.mem_of_ne_of_mem (by omega) hmem)
    · exfalso
      unfold startsFrom at hk
      split at hk
      case isTrue => cases hk
      case isFalse h8 =>
        split at hk
        case isTrue => cases hk
        case isFalse hp => exact hj ⟨by omega, hp⟩

theorem instructionStarts : InstructionStarts := by
  intro ws
  refine ⟨?_, fun k hk => ?_⟩
  · rw [self_mem_startsFrom (by omega), lengthOf_ne_one_iff]
    simp
  · obtain ⟨hp, hnext, hno⟩ := startsFrom_after (by omega) hk
    rw [lengthOf_of_ne_one hp] at hnext hno
    rw [lengthOf_ne_one_iff] at hnext
    exact ⟨(mem_startsFrom_bounds hk).2, hnext, hno⟩

/-- The last entry that passes a test, found by a fold. -/
theorem foldl_last_eq (p : Nat → Prop) [DecidablePred p] (l : List Nat) (d : Nat) :
    l.foldl (fun m k => if p k then k else m) d = (l.filter fun k => decide (p k)).getLastD d := by
  induction l generalizing d with
  | nil => rfl
  | cons x r ih =>
    rw [List.foldl_cons, ih, List.filter_cons]
    by_cases h : p x <;> simp only [h, decide_true, decide_false, if_true, if_false, List.getLastD_cons, Bool.false_eq_true]

/-- The fetch of a block that the core holds changes nothing. -/
theorem fetchBlock_of_held {s : State} {core b : Nat} {ws : List Word} (h : heldBlock s core b = some ws) :
    fetchBlock core b s = (.ok ws, s) := by
  simp only [fetchBlock, h]

theorem targetCheck : TargetCheck := by
  intro s core a ws hb w before
  have hw : wordNo a = w := by
    simp only [wordNo, w]
    omega
  have hlast : (startsFrom 8 0 ws).foldl (fun m k => if k ≤ w then k else m) 7 = before.getLastD 7 := foldl_last_eq (· ≤ w) _ _
  simp only [checkTarget, fetchBlock_of_held hb, hw, hlast, bne_iff_ne, ne_eq, List.contains_iff_mem]
  by_cases h4 : a.toNat % 4 = 0
  · by_cases hmem : w ∈ startsFrom 8 0 ws <;> simp [h4, hmem, addr64]
  · simp [h4, addr64]

end Sys2Proof.Machine

open Sys2Proof.Machine

/-- Settles O13: a search from word 0 visits the starts, each at the end of the instruction before it. -/
theorem targetsAndStarts : Obligations.TargetsAndStarts := ⟨targetCheck, instructionStarts⟩
end

section
/-! PROOFS. The checks of an issue, and what an instruction of one thread does when one fails or its guard is false (03 R67, R70,
R77, R78). -/

namespace Sys2Proof.Machine

open Sys2Proof

/-! Which instructions issue thread by thread. -/

/-- An instruction of one thread is issued for each member of its set. -/
theorem exec_plain {i : Instr} (h : plain i = true) : ∃ body : Body, ∀ s, exec i s = issueEach i body s := by
  cases i <;> first | exact absurd h Bool.false_ne_true | exact ⟨_, fun _ => rfl⟩

/-! The checks. -/

theorem find?_range_eq_none_iff {l : List Nat} {n : Nat} :
    l.find? (fun r => decide (n ≤ r) && decide (r < 255)) = none ↔ ∀ r ∈ l, r < n ∨ 255 ≤ r := by
  simp only [List.find?_eq_none, Bool.and_eq_true, decide_eq_true_eq]
  exact ⟨fun h r hr => by have := h r hr; omega, fun h r hr => by have := h r hr; omega⟩

theorem checkIssue_of_detail {i : Instr} {sh : Shape} {f : Flds} {t : Thread} {n tid d : Nat} (h : sh.detail f = some d) :
    checkIssue i sh f t n tid = .error { cause := 1, detail := d, addr := words01 i } := by
  simp only [checkIssue, h]

theorem checkIssue_of_range {i : Instr} {sh : Shape} {f : Flds} {t : Thread} {n tid r : Nat} (h : sh.detail f = none)
    (hr : (sh.named f).find? (fun r => decide (t.nregs ≤ r) && decide (r < 255)) = some r) :
    checkIssue i sh f t n tid = .error { cause := 2, detail := r, addr := words01 i } := by
  simp only [checkIssue, h, hr]

/-- The guard's part of the checks, once the encoding is legal and every register in range. -/
theorem checkIssue_of_passed {i : Instr} {sh : Shape} {f : Flds} {t : Thread} {n tid : Nat} (h : sh.detail f = none)
    (hr : ∀ r ∈ sh.named f, r < t.nregs ∨ 255 ≤ r) :
    checkIssue i sh f t n tid =
      if f.guard = 127 then .ok true
      else if (t.readAny n tid f.guard).2 then .error { cause := 0x10, detail := 1, addr := BitVec.ofNat 64 f.guard }
      else .ok ((t.readAny n tid f.guard).1.getLsbD 0 == (f.pol == 0)) := by
  simp only [checkIssue, h, find?_range_eq_none_iff.mpr hr]

theorem issueChecks : IssueChecks := by
  intro i sh f t n tid g
  cases hd : sh.detail f with
  | some d => simp [checkIssue_of_detail hd]
  | none =>
    by_cases hr : ∀ r ∈ sh.named f, r < t.nregs ∨ 255 ≤ r
    · rw [checkIssue_of_passed hd hr, and_iff_right rfl, and_iff_right hr]
      by_cases hg : f.guard = 127
      · simp only [hg, if_true, Except.ok.injEq, true_and, not_true, ne_eq, false_and, or_false]
        exact eq_comm
      · cases hp : (t.readAny n tid f.guard).2
        · simp only [hg, if_false, Bool.false_eq_true, Except.ok.injEq, false_and, false_or, ne_eq, not_false_eq_true, true_and]
          exact eq_comm
        · simp [hg]
    · obtain ⟨r, hfind⟩ := Option.ne_none_iff_exists'.mp (mt find?_range_eq_none_iff.mp hr)
      simp only [checkIssue_of_range hd hfind, reduceCtorEq, hr, false_and, and_false]

/-! A failed check is the trap. -/

/-- A set of one thread that fails a check takes that check's trap. -/
theorem issueEach_checkIssue_error {i : Instr} {body : Body} {s : State} {tid : Nat} {t : Thread} {sh : Shape} {tr : Trap}
    (ha : s.issue = [tid]) (ht : s.thread? tid = some t) (hs : shapeOf t.tm i = some sh)
    (hk : checkIssue i sh (fldsOf i) t s.count tid = .error tr) :
    issueEach i body s = .next { enterTrap tid t.pc (nextStart s t.core t.pc (fldsOf i).words) tr s with issue := [] } := by
  simp only [issueEach, ha, List.foldl_cons, List.foldl_nil, issueOne, ht, hs, hk]
  rfl

/-- A set of one thread with a poisoned source takes DATA-POISON. -/
theorem issueEach_poisonTrap {i : Instr} {body : Body} {s : State} {tid : Nat} {t : Thread} {sh : Shape} {tr : Trap}
    (ha : s.issue = [tid]) (ht : s.thread? tid = some t) (hs : shapeOf t.tm i = some sh)
    (hk : checkIssue i sh (fldsOf i) t s.count tid = .ok true) (hp : poisonTrap sh (fldsOf i) t s.count tid = some tr) :
    issueEach i body s = .next { enterTrap tid t.pc (nextStart s t.core t.pc (fldsOf i).words) tr s with issue := [] } := by
  simp only [issueEach, ha, List.foldl_cons, List.foldl_nil, issueOne, ht, hs, hk, hp]
  rfl

theorem checksTrap : ChecksTrap := by
  intro i s tid t sh hplain ha ht hs f next
  obtain ⟨body, hexec⟩ := exec_plain hplain
  refine ⟨fun d hd => ?_, fun hd r hr => ?_, fun hk r hr => ?_⟩
  · rw [hexec, issueEach_checkIssue_error ha ht hs (checkIssue_of_detail hd)]
  · rw [hexec, issueEach_checkIssue_error ha ht hs (checkIssue_of_range hd hr)]
  · have hp : poisonTrap sh f t s.count tid = some { cause := 0x10, detail := 1, addr := BitVec.ofNat 64 r } := by
      simp only [poisonTrap, hr, Option.map_some]
    rw [hexec, issueEach_poisonTrap ha ht hs hk hp]

theorem guardFalse : GuardFalse := by
  intro i s tid c hplain hskip
  obtain ⟨body, hexec⟩ := exec_plain hplain
  rw [hexec, issueEach_skip hskip]

end Sys2Proof.Machine

open Sys2Proof.Machine

/-- Settles O4: every instruction of one thread issues through the same checks. -/
theorem issueRules : Obligations.IssueRules := ⟨issueChecks, checksTrap, guardFalse⟩
end

section
/-! PROOFS. Transfers of control (03 R74, 06 R129, R130): what the operation of an issue sees and leaves, and the two ends of a
transfer. -/

namespace Sys2Proof.Machine

open Sys2Proof

/-! The state in which an operation acts. -/

/-- Of a core an issue changes the counters alone. -/
theorem core_moved (s : State) (c : Ctx) (k : Nat) : ∃ x, (moved s c).core k = { s.core k with counters := x } := by
  by_cases h : k = c.t.core
  · subst h
    exact ⟨_, tget_tput_self _ _ _ _⟩
  · exact ⟨(s.core k).counters, tget_tput_ne _ _ _ _ _ h⟩

theorem storage_moved (s : State) (c : Ctx) (k : Nat) : storage k (moved s c) = storage k s := by
  obtain ⟨x, hx⟩ := core_moved s c k
  simp only [storage, hx]

/-- The operation of a set of one thread decides in the state in which its thread has moved on. -/
theorem issueEach_of_ok {s u : State} {tid : Nat} {i : Instr} {c : Ctx} {body : Body} (h : Issues s tid i c)
    (hb : body c (moved s c) = .ok u) : issueEach i body s = .next { u with issue := [] } :=
  issueEach_ok h (h.retired ▸ hb)

theorem issueEach_of_error {s : State} {tid : Nat} {i : Instr} {c : Ctx} {body : Body} {tr : Trap} (h : Issues s tid i c)
    (hb : body c (moved s c) = .error tr) : issueEach i body s = .next { enterTrap tid c.pc c.next tr s with issue := [] } :=
  issueEach_error h (h.retired ▸ hb)

theorem State.putThread_putThread (s : State) (k : Nat) (t v : Thread) : (s.putThread k t).putThread k v = s.putThread k v := by
  simp only [State.putThread, tput_tput]

/-- A result of the issuing thread is put in flight. -/
theorem write_putThread (c : Ctx) (ws : List (Nat × Word)) (s : State) (t : Thread) :
    c.write ws (s.putThread c.tid t) = s.putThread c.tid { t with flight := t.flight ++ [c.result ws] } := by
  rw [Ctx.write, Ctx.fly, State.modThread_some _ _ _ _ (State.thread?_putThread s c.tid t), State.putThread_putThread]
  rfl

/-! Operands of a transfer. -/

/-- The two's complement reading of a field (02 R34). -/
theorem signedOf_eq_toInt {w : Nat} (hw : 0 < w) (x : Nat) : signedOf w x = (BitVec.ofNat w x).toInt := by
  obtain ⟨n, rfl⟩ : ∃ n, w = n + 1 := ⟨w - 1, by omega⟩
  rw [BitVec.toInt_eq_toNat_cond, BitVec.toNat_ofNat, signedOf, Nat.add_sub_cancel, Nat.pow_succ]
  split <;> split <;> omega

theorem relTarget_eq (c : Ctx) : c.relTarget = BitVec.ofInt 56 (c.pc.toNat + 4 * (BitVec.ofNat 24 c.f.imm).toInt) := by
  rw [Ctx.relTarget, signedOf_eq_toInt (by decide)]

theorem lo32_addr64 (a : VAddr) : lo32 (addr64 a) = a.setWidth 32 := by
  simp [lo32, addr64]

theorem hi32_addr64 (a : VAddr) : hi32 (addr64 a) = (a >>> 32).setWidth 32 := by
  apply BitVec.eq_of_toNat_eq
  simp [hi32, addr64]
  omega

/-! The two ends of a transfer. -/

/-- A transfer to a target, with the pair that takes its link if it writes one. -/
def Ctx.goes (c : Ctx) (a : VAddr) (link : Option Nat) (s : State) : Except Trap State :=
  match link with
  | none => c.transfer a s
  | some k => c.call k a s

/-- The meaning of a transfer is to go to its target. -/
theorem exec_transfer {i : Instr} {c : Ctx} {a : VAddr} {link : Option Nat} (h : transferOf c i = some (a, link)) :
    ∃ body : Body, (∀ s, exec i s = issueEach i body s) ∧ body c = c.goes a link := by
  unfold transferOf at h
  split at h <;> cases h
  · exact ⟨_, fun _ => rfl, by rw [← relTarget_eq]; rfl⟩
  · exact ⟨_, fun _ => rfl, by rw [← relTarget_eq]; rfl⟩
  · exact ⟨_, fun _ => rfl, rfl⟩
  · exact ⟨_, fun _ => rfl, rfl⟩
  · exact ⟨_, fun _ => rfl, rfl⟩

/-- The state after a transfer's target has been checked and a loop loaded: its thread has still to jump. -/
def Ctx.arrived (c : Ctx) (a : VAddr) (s : State) : State := loadLoop c.t.core c.pc a (checkTarget c.t.core a s).2

theorem Blind.arrived {α : Type} {π : State → α} (h : Blind π) (c : Ctx) (a : VAddr) (s : State) : π (c.arrived a s) = π s :=
  (h.loadLoop _ _ _ _).trans (h.checkTarget _ _ _)

theorem transfer_ok {c : Ctx} {a : VAddr} {s : State} (h : (checkTarget c.t.core a s).1 = none) :
    c.transfer a s = .ok (c.jump a (c.arrived a s)) := by
  unfold Ctx.transfer Ctx.arrived
  generalize checkTarget c.t.core a s = r at h
  obtain ⟨o, u⟩ := r
  cases h
  rfl

theorem transfer_error {c : Ctx} {a : VAddr} {s : State} {tr : Trap} (h : (checkTarget c.t.core a s).1 = some tr) :
    c.transfer a s = .error tr := by
  unfold Ctx.transfer
  generalize checkTarget c.t.core a s = r at h
  obtain ⟨o, u⟩ := r
  cases h
  rfl

/-- A transfer whose target passes changes, apart from what the fetch does, the issuing thread alone. -/
theorem goes_ok {c : Ctx} {a : VAddr} {s : State} {t : Thread} (link : Option Nat) (h : (checkTarget c.t.core a s).1 = none)
    (ht : s.thread? c.tid = some t) : c.goes a link s = .ok ((c.arrived a s).putThread c.tid
      { t with pc := a, flight := t.flight ++ (link.map fun k => c.result (c.linkTo k)).toList }) := by
  have ha : (c.arrived a s).thread? c.tid = some t := by
    rw [State.thread?, blind_threads.arrived]
    exact ht
  have hj : c.jump a (c.arrived a s) = (c.arrived a s).putThread c.tid { t with pc := a } := State.modThread_some _ _ _ _ ha
  cases link with
  | none =>
    rw [Ctx.goes, transfer_ok h, hj, Option.map_none, Option.toList_none, List.append_nil]
  | some k =>
    simp only [Ctx.goes, Ctx.call, transfer_ok h, hj, Ctx.link, write_putThread, lo32_addr64, hi32_addr64]
    rfl

theorem goes_error {c : Ctx} {a : VAddr} {s : State} {tr : Trap} (link : Option Nat)
    (h : (checkTarget c.t.core a s).1 = some tr) : c.goes a link s = .error tr := by
  cases link with
  | none => exact transfer_error h
  | some k => simp only [Ctx.goes, Ctx.call, transfer_error h]

/-- A state that differs from another in a thread and in what fetches change. -/
theorem onlyThread_of {s u : State} {tid : Nat} {t : Thread} (hth : u.threads = tput s.threads tid t) (hte : u.teams = s.teams)
    (hg : u.grids = s.grids) (hi : u.issue = []) (hst : ∀ k, storage k u = storage k s) : OnlyThread s u tid t := by
  refine ⟨?_, fun k hk => ?_, hte, hg, hi, fun k => ?_⟩
  · rw [State.thread?, hth, tfind_tput_self]
  · rw [State.thread?, hth, tfind_tput_ne _ _ _ _ hk]
    rfl
  · have := hst k
    simp only [storage, Prod.mk.injEq] at this
    obtain ⟨hp, ht, hs, hb, -, hc⟩ := this
    exact ⟨hp, ht, hs, hb, hc⟩

theorem transfersTaken : TransfersTaken := by
  intro i s tid c a link hi ht hct
  obtain ⟨body, hexec, hbody⟩ := exec_transfer ht
  have hb := goes_ok link hct (moved_thread s c)
  rw [← hbody] at hb
  refine ⟨_, (hexec s).trans (issueEach_of_ok hi hb), onlyThread_of ?_ ?_ ?_ rfl fun k => ?_⟩
  · simp only [State.putThread, blind_threads.arrived, hi.tid_eq, moved, issued, tput_tput, Ctx.after, List.append_nil]
  · exact blind_teams.arrived _ _ _
  · exact blind_grids.arrived _ _ _
  · exact ((blind_storage k).arrived _ _ _).trans (storage_moved _ _ _)

theorem transfersTrapped : TransfersTrapped := by
  intro i s tid c a link tr hi ht hct
  obtain ⟨body, hexec, hbody⟩ := exec_transfer ht
  have hb := goes_error link hct
  rw [← hbody] at hb
  exact (hexec s).trans (issueEach_of_error hi hb)

end Sys2Proof.Machine

open Sys2Proof.Machine

/-- Settles O12: a transfer is the check of its target, a jump and a link. -/
theorem transfers : Obligations.Transfers := ⟨transfersTaken, transfersTrapped⟩
end

section
/-! PROOFS. Constant banks: C64 operands, constant loads and FENCES (03 R72, 08 R169, R173, 13 R308). -/

namespace Sys2Proof.Machine

open Sys2Proof

/-! The constants of the C64 forms. -/

theorem bankWord_moved (s : State) (c : Ctx) (core bank off : Nat) : bankWord (moved s c) core bank off = bankWord s core bank off := by
  obtain ⟨x, hx⟩ := core_moved s c core
  simp only [bankWord, hx]

theorem putK_of_poison {c : Ctx} {s : State} (g : Ctx → Word → Word)
    (h : (bankWord s c.t.core c.f.bank (4 * c.f.imm)).2 = true) : putK g c s = .error (bankPoisonTrap c.f.bank (4 * c.f.imm)) := by
  simp only [putK, Ctx.k, h, if_true]

theorem putK64_of_poison {c : Ctx} {s : State} (g : Ctx → DWord → DWord)
    (h : (bankWord s c.t.core c.f.bank (4 * c.f.imm)).2 = true) : putK64 g c s = .error (bankPoisonTrap c.f.bank (4 * c.f.imm)) := by
  simp only [putK64, Ctx.k64, h, if_true]

/-- A C64 form writes a result of its constant, of 32 or of 64 bits. -/
theorem exec_c64 {i : Instr} {g : FC64} (h : formOf i = some (.c64 g)) :
    (∃ r, ∀ s, exec i s = issueEach i (putK r) s) ∨ (∃ r, ∀ s, exec i s = issueEach i (putK64 r) s) := by
  cases i
  case daddC64 | dmulC64 | dfmaC64 => exact .inr ⟨_, fun _ => rfl⟩
  all_goals
    cases h <;>
    exact .inl ⟨_, fun _ => rfl⟩

theorem bankPoisonTraps : BankPoisonTraps := by
  intro i s tid c hi hbad hform
  obtain ⟨g, hform⟩ := hform
  rw [← bankWord_moved] at hbad
  obtain ⟨r, hexec⟩ | ⟨r, hexec⟩ := exec_c64 hform
  · exact (hexec s).trans (issueEach_of_error hi (putK_of_poison r hbad))
  · exact (hexec s).trans (issueEach_of_error hi (putK64_of_poison r hbad))

/-! Constant loads. -/

/-- The address of an M64 access, in the words of the statements (03 R73). -/
theorem addrM_eq (c : Ctx) : c.addrM = c.eaM := by
  have hw (x : Int) : wrapNat 32 x = (BitVec.ofInt 32 x).toNat := (BitVec.toNat_ofInt x).symm
  rw [Ctx.addrM, Ctx.eaM, signedOf_eq_toInt (by decide), hw, BitVec.ofInt_add, BitVec.ofInt_natCast, BitVec.ofNat_toNat,
    BitVec.setWidth_eq]
  rfl

theorem ldcWord_past {c : Ctx} {off : Nat} (s : State) (h : 65536 ≤ off) : c.ldcWord off s = .ok 0 := if_pos h

theorem ldcWord_of_clean {c : Ctx} {s : State} {off : Nat} (h : off < 65536)
    (hb : (bankWord s c.t.core (c.f.mod % 4) off).2 = false) :
    c.ldcWord off s = .ok (bankWord s c.t.core (c.f.mod % 4) off).1 := by
  simp only [Ctx.ldcWord, if_neg (Nat.not_le.mpr h), hb, Bool.false_eq_true, if_false]

/-- A meaning that, in the state in which it acts, writes registers and does nothing else. -/
theorem issueEach_write_moved {s : State} {tid : Nat} {i : Instr} {c : Ctx} {body : Body} {ws : List (Nat × Word)}
    (h : Issues s tid i c) (hb : body c (moved s c) = .ok (c.write ws (moved s c))) : issueEach i body s = .next (wrote s c ws) := by
  rw [issueEach_of_ok h hb, ← h.retired, write_retireIn s c c.raised ws (h.tid_eq ▸ h.there)]
  rfl

theorem ldc_loads (f : FM64) (s : State) (tid : Nat) (c : Ctx) (hi : Issues s tid (.ldc f) c) :
    let o := c.eaM / 4 * 4
    let w := bankWord s c.t.core (c.f.mod % 4) o
    (65536 ≤ o → exec (.ldc f) s = .next (wrote s c (c.to32 0))) ∧
    (o < 65536 → w.2 = false → exec (.ldc f) s = .next (wrote s c (c.to32 w.1))) := by
  intro o w
  refine ⟨fun ho => issueEach_write_moved hi ?_, fun ho hw => issueEach_write_moved hi ?_⟩ <;> simp only [addrM_eq]
  · rw [ldcWord_past _ ho]
    rfl
  · rw [ldcWord_of_clean ho (by rw [bankWord_moved]; exact hw), bankWord_moved]
    rfl

theorem ldcB64_loads (f : FM64) (s : State) (tid : Nat) (c : Ctx) (hi : Issues s tid (.ldcB64 f) c) :
    let o := c.eaM / 8 * 8
    let l := bankWord s c.t.core (c.f.mod % 4) o
    let h := bankWord s c.t.core (c.f.mod % 4) (o + 4)
    (65536 ≤ o → exec (.ldcB64 f) s = .next (wrote s c (c.to64 0))) ∧
    (o < 65536 → l.2 = false → h.2 = false → exec (.ldcB64 f) s = .next (wrote s c (c.to64 (h.1 ++ l.1)))) := by
  intro o l h
  refine ⟨fun ho => issueEach_write_moved hi ?_, fun ho hl hh => issueEach_write_moved hi ?_⟩ <;> simp only [addrM_eq]
  · rw [ldcWord_past _ ho, ldcWord_past _ (by omega)]
    rfl
  · rw [ldcWord_of_clean ho (by rw [bankWord_moved]; exact hl), ldcWord_of_clean (by omega) (by rw [bankWord_moved]; exact hh),
      bankWord_moved, bankWord_moved]
    rfl

/-! FENCES. -/

/-- A test of the entries of a table, after an entry is set to one that the test tells from neither what it replaces nor nothing. -/
theorem any_tput {α : Type} (m : List (Nat × α)) (k : Nat) (v d : α) (p : α → Bool) (hd : p d = false)
    (hv : p v = p (tget m k d)) : ((tput m k v).any fun e => p e.2) = m.any fun e => p e.2 := by
  induction m with
  | nil => simp [tput, hv, tget, tfind, hd]
  | cons e r ih =>
    obtain ⟨j, w⟩ := e
    unfold tput
    split
    case isTrue h1 => simp [hv, tget, tfind, h1]
    case isFalse h1 =>
      split
      case isTrue h2 => simp [hv, tget, tfind, h1, h2, hd]
      case isFalse h2 =>
        have : p v = p (tget r k d) := by simpa [tget, tfind, h1, h2] using hv
        simp [ih this]

theorem accPending_moved (s : State) (c : Ctx) (k : Nat) : accPending (moved s c) k = accPending s k :=
  any_tput s.cores c.t.core _ {} (fun x => (tfind x.accs k).isSome || x.tileOps.any fun o => o.key == k && o.pending) rfl rfl

theorem threadAccs_moved (s : State) (c : Ctx) (core tid : Nat) : threadAccs (moved s c) core tid = threadAccs s core tid := by
  obtain ⟨x, hx⟩ := core_moved s c core
  simp only [threadAccs, hx]

theorem fencedAccs_moved (s : State) (c : Ctx) : fencedAccs (moved s c) c.tid = c.t.before.filter (accPending s) := by
  simp only [fencedAccs, moved_thread, Ctx.after]
  congr 1
  exact funext (accPending_moved s c)

/-- The accesses `keys` of the issuing thread are put before its later ones, and a result waits for them. -/
def Ctx.orders (c : Ctx) (keys : List Nat) (s : State) : State :=
  c.fly (c.waiting (.fence keys)) (s.modThread c.tid fun t => { t with before := keys })

theorem exec_fences (f : FA96) (s : State) :
    exec (.fences f) s =
      issueEach (.fences f) (fun c s => .ok (c.orders (fencedAccs s c.tid ++ threadAccs s c.t.core c.tid) s)) s := rfl

theorem orders_moved (s : State) (c : Ctx) (keys : List Nat) :
    c.orders keys (moved s c) =
      (moved s c).putThread c.tid { c.after c.raised [c.waiting (.fence keys)] with before := keys } := by
  rw [Ctx.orders, State.modThread_some _ _ _ _ (moved_thread s c), Ctx.fly,
    State.modThread_some _ _ _ _ (State.thread?_putThread _ c.tid _), State.putThread_putThread]
  simp only [Ctx.after, List.append_nil]

/-- FENCES issues with a result on the way that waits for every access it orders. -/
theorem fences_issues (f : FA96) (s : State) (tid : Nat) (c : Ctx) (hi : Issues s tid (.fences f) c) :
    let keys := c.t.before.filter (accPending s) ++ threadAccs s c.t.core tid
    exec (.fences f) s = .next (issued s c { c.after c.raised [c.waiting (.fence keys)] with before := keys }) := by
  intro keys
  have hk : fencedAccs (moved s c) c.tid ++ threadAccs (moved s c) c.t.core c.tid = keys := by
    rw [fencedAccs_moved, threadAccs_moved, hi.tid_eq]
  rw [exec_fences, issueEach_of_ok hi rfl, hk, orders_moved]
  simp only [State.putThread, moved, issued, tput_tput]

/-! The completion of a result in flight (01 R24). -/

theorem tget_foldl_tput (ws : List (Nat × Word)) (m : Table Word) (r : Nat) :
    tget (ws.foldl (fun m (w : Nat × Word) => tput m w.1 w.2) m) r 0 =
      match ws.reverse.find? (fun w => w.1 == r) with | some w => w.2 | none => tget m r 0 := by
  induction ws generalizing m with
  | nil => rfl
  | cons w l ih =>
    rw [List.foldl_cons, ih, List.reverse_cons, List.find?_append]
    cases l.reverse.find? fun w => w.1 == r with
    | some x => rfl
    | none =>
      by_cases h : w.1 = r
      · simp [h]
      · simp [h, tget_tput_ne _ _ _ _ _ (Ne.symm h)]

/-- A result of a thread that becomes visible, its place in the flight apart. -/
theorem landed_commit (t : Thread) (e : InFlight) (fl : List InFlight) : Landed t ({ t with flight := fl }.commit e) e := by
  obtain ⟨cls, ready, flag, regs, poison, sreg, wait⟩ := e
  have hregs := tget_foldl_tput regs t.regs
  rcases sreg with _ | ⟨k, x⟩
  · exact ⟨hregs, rfl, by cases flag <;> rfl, rfl, rfl, rfl, rfl, rfl, rfl, rfl, rfl, rfl⟩
  · unfold Thread.commit Thread.setSreg
    simp only
    split
    case h_1 => contradiction
    case h_7 h10 h20 h40 h41 h42 h =>
      cases h
      refine ⟨hregs, rfl, by cases flag <;> rfl, ?_, ?_, ?_, ?_, ?_, rfl, rfl, rfl, rfl⟩ <;> split <;> simp_all
    all_goals
      rename_i h
      cases h
      exact ⟨hregs, rfl, by cases flag <;> rfl, rfl, rfl, rfl, rfl, rfl, rfl, rfl, rfl, rfl⟩

/-- A result that lands leaves the rest of what is in flight as it is. -/
@[simp] theorem commit_flight (t : Thread) (e : InFlight) : (t.commit e).flight = t.flight := by
  unfold Thread.commit Thread.setSreg
  split <;> rfl

/-- A result in flight lands with what it gathered at its issue. -/
theorem landFlight_nil (s : State) (tid k : Nat) (t : Thread) (e : InFlight) (ht : s.thread? tid = some t)
    (he : t.flight[k]? = some e) :
    landFlight tid k ([], []) s = s.putThread tid ({ t with flight := t.flight.eraseIdx k }.commit e) := by
  rw [landFlight, State.modThread_some _ _ _ _ ht, he]
  simp

/-- A result that comes in its turn may complete once its wait is over. -/
theorem Due.mayLand_eq {s : State} {tid k : Nat} {t : Thread} {e : InFlight} (h : Due s tid k t e) :
    mayLand s t k = waitOver s t.core e.wait := by
  have hb : setsBefore t k = false := by
    unfold setsBefore
    rw [h.place]
    obtain hs | hs := h.turn
    · simp [hs]
    · simp only [Bool.and_eq_false_iff, List.any_eq_false]
      exact .inr fun o ho => by simp [hs o ho]
  simp [mayLand, h.place, h.cls, hb, h.early]

/-- A fence's result stays in flight while an access that it orders is still to be performed, and lands once all have been. -/
theorem fence_completes (s : State) (tid k : Nat) (t : Thread) (e : InFlight) (keys : List Nat) (h : Due s tid k t e)
    (hw : e.wait = .fence keys) :
    ((∃ p ∈ keys, accPending s p = true) → exec (.instructionCompletion tid k) s = .next s) ∧
    ((∀ p ∈ keys, accPending s p = false) → ∃ v, Landed t v e ∧ v.flight = t.flight.eraseIdx k ∧
      exec (.instructionCompletion tid k) s = .next { s with threads := tput s.threads tid v }) := by
  have hexec : exec (.instructionCompletion tid k) s = .next (completeEntry tid k s) := rfl
  have hmay : mayLand s t k = keys.all fun p => !accPending s p := by rw [h.mayLand_eq, hw]; rfl
  refine ⟨fun ⟨p, hp, hpend⟩ => ?_, fun hdone => ?_⟩
  · have hno : mayLand s t k = false := by
      rw [hmay, List.all_eq_false]
      exact ⟨p, hp, by simp [hpend]⟩
    rw [hexec, completeEntry, h.there]
    simp [hno]
  · have hyes : mayLand s t k = true := by
      rw [hmay, List.all_eq_true]
      exact fun p hp => by simp [hdone p hp]
    refine ⟨{ t with flight := t.flight.eraseIdx k }.commit e, landed_commit t e _, ?_, ?_⟩
    · simp
    · have hland := landFlight_nil s tid k t e h.there h.place
      rw [hexec, completeEntry, h.there]
      simp [hyes, h.place, hw, hland, State.putThread]

theorem constantLoads : ConstantLoads := ⟨ldc_loads, ldcB64_loads, fences_issues, fence_completes⟩

end Sys2Proof.Machine

open Sys2Proof.Machine

/-- Settles O20: a constant is the bank word under its poison, and FENCES waits for the accesses it orders. -/
theorem constantBanks : Obligations.ConstantBanks := ⟨bankPoisonTraps, constantLoads⟩

end

section

namespace Sys2Proof.Machine

open Sys2Proof

/-- A move that a core is to make at its next step. -/
theorem step_of_agenda (s : State) (m : Move) (rest : List Move) (hon : s.off = false) (hag : s.agenda = m :: rest) :
    step s = runMove m { s with agenda := rest } := by
  simp [step, nextMove, hon, hag]

/-- A core runs the instruction of a set that nothing comes before. -/
theorem prepare_of_instr (s : State) (core : Nat) (set : IssueSet) (i : Instr) (n : Nat)
    (hstep : readyStep (settleCore core s) core = none) (harr : nextArrivals (settleCore core s) core = none)
    (hset : nextSet (settleCore core s) core = some set) (hwhat : set.what = .instr i n) :
    prepare core s = .run i (sampleSet core i set.members
      (openSet core set ((settleCore core s).modCore core fun c => { c with begun := true }))) := by
  simp only [prepare, hstep, harr, hset, hwhat]

/-- The members of a set that nothing comes before trap at words that are no instruction. -/
theorem prepare_of_illegal (s : State) (core : Nat) (set : IssueSet) (d : Nat)
    (hstep : readyStep (settleCore core s) core = none) (harr : nextArrivals (settleCore core s) core = none)
    (hset : nextSet (settleCore core s) core = some set) (hwhat : set.what = .illegal d) :
    prepare core s = .done { illegalSet d set.members
      (openSet core set ((settleCore core s).modCore core fun c => { c with begun := true })) with issue := [] } := by
  simp only [prepare, hstep, harr, hset, hwhat]

theorem step_runs_set (s : State) (core : Nat) (rest : List Move) (set : IssueSet) (hon : s.off = false)
    (hag : s.agenda = .issue core :: rest) :
    let r := settleCore core { s with agenda := rest }
    let u := r.modCore core fun c => { c with begun := true }
    readyStep r core = none → nextArrivals r core = none → nextSet r core = some set →
    (∀ i n, set.what = .instr i n → step s = exec i (sampleSet core i set.members (openSet core set u))) ∧
    (∀ d, set.what = .illegal d → step s = .next { illegalSet d set.members (openSet core set u) with issue := [] }) := by
  intro r u hstep harr hset
  rw [step_of_agenda s _ rest hon hag]
  refine ⟨fun i n hwhat => ?_, fun d hwhat => ?_⟩
  · simp only [runMove, prepare_of_instr _ core set i n hstep harr hset hwhat, r, u]
  · simp only [runMove, prepare_of_illegal _ core set d hstep harr hset hwhat, r, u]

/-- Sorting brings in no element. -/
theorem mem_of_mem_insertOn {α : Type} (key : α → Nat) (x y : α) (l : List α) (h : y ∈ insertOn key x l) : y = x ∨ y ∈ l := by
  induction l with
  | nil => simpa [insertOn] using h
  | cons z r ih =>
    unfold insertOn at h
    split at h <;> grind

theorem mem_of_mem_sortOn {α : Type} (key : α → Nat) (y : α) (l : List α) (h : y ∈ sortOn key l) : y ∈ l := by
  have hgen : ∀ (l acc : List α), y ∈ l.foldl (fun r x => insertOn key x r) acc → y ∈ l ∨ y ∈ acc := by
    intro l
    induction l with
    | nil => exact fun _ h => .inr h
    | cons x l ih =>
      intro acc h
      obtain h | h := ih _ h
      · exact .inl (List.mem_cons_of_mem _ h)
      · obtain rfl | h := mem_of_mem_insertOn key x y acc h
        · exact .inl List.mem_cons_self
        · exact .inr h
  simpa using hgen l [] h

/-- A fold that keeps its choice or takes the next element ends with an element of the list or with its start. -/
theorem mem_of_foldl_choice {α : Type} (f : Option α → α → Option α) (hf : ∀ b x, f b x = some x ∨ f b x = b) (l : List α)
    (b : Option α) (y : α) (h : l.foldl f b = some y) : y ∈ l ∨ b = some y := by
  induction l generalizing b with
  | nil => exact .inr h
  | cons x l ih =>
    obtain h | h := ih _ h
    · exact .inl (List.mem_cons_of_mem _ h)
    · obtain hx | hx := hf b x <;> grind

/-- The set that issues next is one of the sets that compete. -/
theorem nextSet_mem (s : State) (core : Nat) (set : IssueSet) (h : nextSet s core = some set) : set ∈ issueSets s core := by
  unfold nextSet at h
  split at h
  · contradiction
  · refine (List.mem_filter.mp ((mem_of_foldl_choice _ (fun b x => ?_) _ none set h).resolve_right nofun)).1
    cases b with
    | none => exact .inl rfl
    | some y =>
      dsimp only
      split
      · exact .inl rfl
      · exact .inr rfl

/-- A thread that stands ready at an instruction is a thread of the core, and one that no wait holds stands at what its fetch block
holds at its PC. -/
theorem readyThreads_mem (s : State) (core : Nat) (x : Nat × Thread × Decoded) (h : x ∈ readyThreads s core) :
    (x.1, x.2.1) ∈ s.threads ∧ x.2.1.core = core ∧ (x.2.1.released = false → decodedAt s core x.2.1.pc = some x.2.2) := by
  unfold readyThreads at h
  obtain ⟨⟨k, t⟩, ht, h⟩ := List.mem_filterMap.mp h
  have hst : t.released = false → standsAt s t = decodedAt s t.core t.pc := fun hr => by simp [standsAt, hr]
  grind

/-- An entry stands ready at the set's address and, unless its wait is over, at what the fetch block holds
there. -/
def StandsIn (s : State) (core : Nat) (set : IssueSet) (x : Nat × Thread × Decoded) : Prop :=
  x ∈ readyThreads s core ∧ x.2.1.pc = set.pc ∧ (x.2.1.released = false → x.2.2 = set.what)

theorem mem_setOf (det : Bool) (pc : VAddr) (d : Decoded) (ms : List (Nat × Thread × Decoded)) (tid : Nat)
    (h : tid ∈ (setOf det pc d ms).members) : ∃ x ∈ ms, x.1 = tid := by
  obtain ⟨x, hx, rfl⟩ := List.mem_map.mp h
  exact ⟨x, mem_of_mem_sortOn _ _ _ hx, rfl⟩

/-- The sets of an address hold its candidates. -/
theorem mem_setsOf (det : Bool) (pc : VAddr) (d : Decoded) (here : List (Nat × Thread × Decoded)) (set : IssueSet)
    (h : set ∈ setsOf det pc d here) :
    set.pc = pc ∧ set.what = d ∧ ∀ tid ∈ set.members, ∃ x ∈ here, x.1 = tid := by
  obtain ⟨j, -, rfl⟩ := List.mem_map.mp h
  refine ⟨rfl, rfl, fun tid htid => ?_⟩
  obtain ⟨x, hx, rfl⟩ := mem_setOf _ _ _ _ _ htid
  obtain ⟨q, hq, hxq⟩ := List.mem_filterMap.mp hx
  obtain ⟨l, -, rfl⟩ := List.mem_map.mp hq
  exact ⟨x, (List.mem_filter.mp (mem_of_mem_sortOn _ _ _ (List.mem_of_getElem? hxq))).1, rfl⟩

theorem mem_setsAt (det : Bool) (cs : List (Nat × Thread × Decoded)) (pc : VAddr) (set : IssueSet) (h : set ∈ setsAt det cs pc) :
    ∀ tid ∈ set.members, ∃ x ∈ cs, x.1 = tid ∧ x.2.1.pc = set.pc ∧ x.2.2 = set.what := by
  obtain ⟨d, -, h⟩ := List.mem_flatMap.mp h
  obtain ⟨hpc, hwhat, hmem⟩ := mem_setsOf _ _ _ _ _ h
  intro tid htid
  obtain ⟨x, hx, rfl⟩ := hmem tid htid
  simp only [List.mem_filter, beq_iff_eq] at hx
  obtain ⟨⟨hx, hxpc⟩, hxd⟩ := hx
  exact ⟨x, hx, rfl, hxpc.trans hpc.symm, hxd.trans hwhat.symm⟩

/-- The members of a released collective's set are released and stand at its address. -/
theorem mem_waveSets (s : State) (core : Nat) (set : IssueSet) (h : set ∈ waveSets s core) :
    ∀ tid ∈ set.members, ∃ x ∈ readyThreads s core, x.1 = tid ∧ x.2.1.pc = set.pc ∧ x.2.1.released = true := by
  obtain ⟨e, -, h⟩ := List.mem_filterMap.mp h
  simp only [Option.ite_none_right_eq_some, Option.some.injEq] at h
  obtain ⟨-, rfl⟩ := h
  intro tid htid
  obtain ⟨x, hx, rfl⟩ := mem_setOf _ _ _ _ _ htid
  simp only [List.mem_filter, Bool.and_eq_true, beq_iff_eq] at hx
  obtain ⟨⟨hready, hrel, -⟩, -, hpc⟩ := hx
  exact ⟨x, hready, rfl, hpc, hrel⟩

theorem mem_issueSets (s : State) (core : Nat) (set : IssueSet) (h : set ∈ issueSets s core) :
    ∀ tid ∈ set.members, ∃ x, x.1 = tid ∧ StandsIn s core set x := by
  intro tid htid
  obtain h | h := List.mem_append.mp h
  · obtain ⟨pc, -, h⟩ := List.mem_flatMap.mp h
    obtain ⟨x, hx, hid, hpc, hwhat⟩ := mem_setsAt _ _ _ _ h tid htid
    exact ⟨x, hid, (List.mem_filter.mp hx).1, hpc, fun _ => hwhat⟩
  · obtain ⟨x, hx, hid, hpc, hrel⟩ := mem_waveSets s core set h tid htid
    exact ⟨x, hid, hx, hpc, by simp [hrel]⟩

/-- What stands at an address is read from the words of its fetch block from that address on. -/
theorem decodedAt_eq_some (s : State) (core : Nat) (pc : VAddr) (d : Decoded) (h : decodedAt s core pc = some d) :
    ∃ ws, heldBlock s core (pc.toNat / 32) = some ws ∧ d = decodeWords (8 - pc.toNat % 32 / 4) (ws.drop (pc.toNat % 32 / 4)) := by
  obtain ⟨ws, hws, hd⟩ := Option.map_eq_some_iff.mp h
  exact ⟨ws, hws, hd.symm⟩

theorem nextSet_member (s : State) (core : Nat) (set : IssueSet) (h : nextSet s core = some set) :
    ∀ tid ∈ set.members, ∃ t, (tid, t) ∈ s.threads ∧ t.core = core ∧ t.pc = set.pc ∧
      (t.released = false → ∃ ws, heldBlock s core (set.pc.toNat / 32) = some ws ∧
        set.what = decodeWords (8 - set.pc.toNat % 32 / 4) (ws.drop (set.pc.toNat % 32 / 4))) := by
  intro tid htid
  obtain ⟨⟨k, t, d⟩, rfl, hready, hpc, hwhat⟩ := mem_issueSets s core set (nextSet_mem s core set h) tid htid
  obtain ⟨hmem, hcore, hdec⟩ := readyThreads_mem s core _ hready
  refine ⟨t, hmem, hcore, hpc, fun hrel => ?_⟩
  rw [← hpc, ← hwhat hrel]
  exact decodedAt_eq_some s core t.pc d (hdec hrel)

end Sys2Proof.Machine

open Sys2Proof.Machine

/-- Settles O5: the step is the set's `exec`, and the set stands where its members do. -/
theorem stepRunsDecoded : Obligations.StepRunsDecoded :=
  ⟨fun s core rest set hon hag => step_runs_set s core rest set hon hag, nextSet_member⟩

end

section
/-! PROOFS. Integer sums and products (04 R86 to R92), and the rules that the rows of every table of results share: what an
instruction writes that computes one value, and the legality of an instruction that issues. -/

namespace Sys2Proof.Machine

open Sys2Proof

/-! What a row of a table writes. -/

/-- An instruction that computes a 32-bit value of its operands. -/
theorem Issues.writes32 {s : State} {tid : Nat} {i : Instr} {c : Ctx} {g : Ctx → Word} {v : Word} {ws : List (Nat × Word)}
    (hi : Issues s tid i c) (he : exec i s = issueEach i (put32 g) s) (hw : some (c.to32 v) = some ws) (hv : g c = v) :
    exec i s = .next (wrote s c ws) := by
  obtain rfl := Option.some.inj hw
  rw [he, issueEach_put32 hi, hv]

/-- An instruction that computes a 64-bit value of its operands. -/
theorem Issues.writes64 {s : State} {tid : Nat} {i : Instr} {c : Ctx} {g : Ctx → DWord} {v : DWord} {ws : List (Nat × Word)}
    (hi : Issues s tid i c) (he : exec i s = issueEach i (put64 g) s) (hw : some (c.to64 v) = some ws) (hv : g c = v) :
    exec i s = .next (wrote s c ws) := by
  obtain rfl := Option.some.inj hw
  rw [he, issueEach_put64 hi, hv]

theorem putK_of_konst {s : State} {c : Ctx} {k : Word} (g : Ctx → Word → Word) (h : konst s c = some k) :
    putK g c s = .ok (c.put (g c k) s) := by
  unfold konst at h
  split at h
  case isTrue => contradiction
  case isFalse hp =>
    obtain rfl := Option.some.inj h
    simp only [putK, Ctx.k, if_neg hp]

theorem konst_moved (s : State) (c : Ctx) : konst (moved s c) c = konst s c := by
  simp only [konst, bankWord_moved]

/-- An instruction that computes a 32-bit value of its operands and its constant. -/
theorem Issues.writesK {s : State} {tid : Nat} {i : Instr} {c : Ctx} {g : Ctx → Word → Word} {r : Word → Word}
    {ws : List (Nat × Word)} (hi : Issues s tid i c) (he : exec i s = issueEach i (putK g) s)
    (hw : (konst s c).map (fun k => c.to32 (r k)) = some ws) (hv : ∀ k, g c k = r k) : exec i s = .next (wrote s c ws) := by
  obtain ⟨k, hk, rfl⟩ := Option.map_eq_some_iff.mp hw
  rw [he, ← hv]
  exact issueEach_write_moved hi (putK_of_konst g ((konst_moved s c).trans hk))

/-! Operands and results as integers (04 R86). -/

theorem ofInt_intOf {w : Nat} (u : Bool) (x : BitVec w) : BitVec.ofInt w (intOf u x) = x := by
  cases u
  case false => exact BitVec.ofInt_toInt
  case true => simp [intOf]

theorem satU_eq (w : Nat) (x : Int) : satU w x = max 0 (min (2 ^ w - 1) x) := by
  have hw : (0 : Int) < 2 ^ w := Int.pow_pos (by decide)
  unfold satU
  split
  case isTrue h => omega
  case isFalse h => split <;> omega

theorem satS_eq (w : Nat) (x : Int) : satS w x = max (-2 ^ (w - 1)) (min (2 ^ (w - 1) - 1) x) := by
  have hw : (0 : Int) < 2 ^ (w - 1) := Int.pow_pos (by decide)
  unfold satS
  split
  case isTrue h => omega
  case isFalse h => split <;> omega

theorem narrow_eq_fits (w : Nat) (sat u : Bool) (x : Int) : narrow w sat u x = fits w sat u x := by
  simp only [narrow, fits, satU_eq, satS_eq]

theorem bool32_decide (p : Prop) [Decidable p] : bool32 (decide p) = one32 p := by
  simp only [bool32, one32, decide_eq_true_eq]

/-- The I64 immediate is sign-extended (03 R71). -/
theorem Ctx.k20_eq (c : Ctx) : c.k20 = BitVec.signExtend 32 (BitVec.ofNat 20 c.f.imm) :=
  congrArg (BitVec.ofInt 32) (signedOf_eq_toInt (by decide) _)

/-! Bits of a number. -/

theorem bitAt_eq_testBit (x k : Nat) : bitAt x k = x.testBit k := by
  rw [Nat.testBit_eq_decide_div_mod_eq, bitAt]
  rfl

theorem bitAt_toNat {w : Nat} (x : BitVec w) (k : Nat) : bitAt x.toNat k = x.getLsbD k := by
  rw [bitAt_eq_testBit, BitVec.testBit_toNat]

theorem b2n_getLsbD {w : Nat} (x : BitVec w) (k : Nat) : b2n (x.getLsbD k) = x.toNat / 2 ^ k % 2 := by
  rw [← bitAt_toNat, bitAt, b2n]
  split <;> simp_all

/-! Sums. -/

theorem carryOut_eq (a b d : Word) (p : Bool) :
    carryOut a b (p && d.getLsbD 0) = one32 (a.toNat + b.toNat + (if p then d.toNat % 2 else 0) ≥ 2 ^ 32) := by
  rw [carryOut, bool32_decide]
  cases p
  case false => rfl
  case true => rw [Bool.true_and, b2n_getLsbD, Nat.pow_zero, Nat.div_one, if_pos rfl]

theorem zero_sub_word (x : Word) : 0 - x = -x := BitVec.zero_sub x

theorem negIf_eq (n : Bool) (x : Word) : negIf n x = if n then 0 - x else x := by
  rw [negIf, zero_sub_word]

/-- The negation of a word, of which the least alone does not fit (04 R90). -/
theorem narrow_neg (sat : Bool) (x : Word) :
    narrow 32 sat false (-x.toInt) =
      if x = 0x80000000#32 then (if sat then 0x7FFFFFFF#32 else 0x80000000#32) else 0 - x := by
  by_cases hx : x = 0x80000000#32
  case pos =>
    subst hx
    cases sat <;> decide
  case neg =>
    have hlo := x.le_toInt
    have hhi := x.toInt_lt
    have hne : x.toInt ≠ -2 ^ 31 := fun h => hx (BitVec.eq_of_toInt_eq h)
    have hsat : satS 32 (-x.toInt) = -x.toInt := by
      rw [satS_eq]
      omega
    simp only [narrow, hsat, if_neg hx, Bool.false_eq_true, if_false, ite_self, BitVec.ofInt_neg, BitVec.ofInt_toInt,
      zero_sub_word]

theorem narrow_abs (sat : Bool) (x : Word) :
    narrow 32 sat false (x.toInt.natAbs : Int) =
      if x = 0x80000000#32 then (if sat then 0x7FFFFFFF#32 else 0x80000000#32) else if x.msb then 0 - x else x := by
  have hsign : x.msb = decide (x.toInt < 0) := BitVec.msb_eq_toInt
  by_cases hneg : x.toInt < 0
  case pos => simp only [Int.ofNat_natAbs_of_nonpos (Int.le_of_lt hneg), narrow_neg, hsign, hneg, decide_true, if_true]
  case neg =>
    have hx : x ≠ 0x80000000#32 := fun h => hneg (by subst h; decide)
    have hhi := x.toInt_lt
    have hsat : satS 32 x.toInt = x.toInt := by
      rw [satS_eq]
      omega
    simp only [Int.natAbs_of_nonneg (Int.not_lt.mp hneg), narrow, hsat, if_neg hx, hsign, hneg, decide_false, Bool.false_eq_true,
      if_false, ite_self, BitVec.ofInt_toInt]

theorem addSubtractResults : AddSubtractResults := by
  intro i s tid c ws hi h
  cases i
  case iaddA64 f => exact hi.writes32 rfl h (narrow_eq_fits _ _ _ _)
  case iaddI64 f => exact hi.writes32 rfl h (congrArg (c.va + ·) c.k20_eq)
  case iaddC64 f => exact hi.writesK rfl h fun _ => narrow_eq_fits _ _ _ _
  case iaddI96 f => exact hi.writes32 rfl h rfl
  case isub f => exact hi.writes32 rfl h (narrow_eq_fits _ _ _ _)
  case iaddc f => exact hi.writes32 rfl h (carryOut_eq _ _ _ _)
  case iadd3 f => exact hi.writes32 rfl h (by simp only [negIf_eq])
  case iadd64 f | isub64 f => exact hi.writes64 rfl h (narrow_eq_fits _ _ _ _)
  case iabs f => exact hi.writes32 rfl h (narrow_abs _ _)
  case ineg f => exact hi.writes32 rfl h (narrow_neg _ _)
  all_goals contradiction

/-! Products. -/

/-- The high word of an integer is that of its quotient by 2^32. -/
theorem hi32_ofInt (x : Int) : hi32 (BitVec.ofInt 64 x) = wrap32 (x / 2 ^ 32) := by
  apply BitVec.eq_of_toNat_eq
  simp only [hi32, wrap32, BitVec.toNat_setWidth, BitVec.toNat_ushiftRight, BitVec.toNat_ofInt, Nat.shiftRight_eq_div_pow]
  omega

theorem productResults : ProductResults := by
  intro i s tid c ws hi h
  cases i
  case imulA64 f | imulI96 f | imadA96 f | imadI96 f => exact hi.writes32 rfl h rfl
  case imulI64 f => exact hi.writes32 rfl h (congrArg (c.va * ·) c.k20_eq)
  case imulC64 f | imadC64 f => exact hi.writesK rfl h fun _ => rfl
  case imulh f => exact hi.writes32 rfl h (hi32_ofInt _).symm
  case imulw f => exact hi.writes64 rfl h rfl
  case imadI64 f => exact hi.writes32 rfl h (congrArg (c.vd * c.va + ·) c.k20_eq)
  case imadw f => exact hi.writes64 rfl h ((BitVec.ofInt_add _ _).trans (congrArg (_ + ·) (ofInt_intOf _ _)))
  all_goals contradiction

end Sys2Proof.Machine

open Sys2Proof.Machine

/-- Settles O6: each row of the two tables is the exact integer of the operands, narrowed as 04 R86 narrows it. -/
theorem sumsAndProducts : Obligations.SumsAndProducts := ⟨addSubtractResults, productResults⟩
end

section
/-! PROOFS. Choices, logic, shifts, fields, counts, moves, dot products and conversions of integers (04 R93 to R103): each function
of a register's value is what its rule computes, and LUT3, BREV and BSEL bit by bit. -/

namespace Sys2Proof.Machine

open Sys2Proof

/-! The encoding of an instruction that issues. -/

theorem ite_some_eq_none_iff {α : Type} {p : Prop} [Decidable p] {a : α} {o : Option α} :
    (if p then some a else o) = none ↔ ¬p ∧ o = none := by
  split
  case isTrue hp => exact ⟨nofun, fun h => absurd hp h.1⟩
  case isFalse hp => exact ⟨fun h => ⟨hp, h⟩, fun h => h.2⟩

theorem Shape.bad8_of_detail {sh : Shape} {f : Flds} (h : sh.detail f = none) : sh.bad8 = false := by
  simp only [Shape.detail, ite_some_eq_none_iff] at h
  obtain ⟨-, -, -, -, h8, -⟩ := h
  exact eq_false_of_ne_true h8

/-- An instruction that issues holds no reserved value (03 R77). -/
theorem Issues.bad8_eq_false {s : State} {tid : Nat} {i : Instr} {c : Ctx} {sh : Shape} (hi : Issues s tid i c)
    (hs : ∀ tm, shapeOf tm i = some sh) : sh.bad8 = false := by
  obtain ⟨-, -, sh', hs', -, hk, -⟩ := hi
  obtain rfl := Option.some.inj ((hs _).symm.trans hs')
  obtain ⟨hd, -⟩ := (issueChecks _ _ _ _ _ _ _).mp hk
  exact Shape.bad8_of_detail hd

/-- An instruction that writes a value of 64 or of 32 bits. -/
theorem Issues.writesEither {s : State} {tid : Nat} {i : Instr} {c : Ctx} {body : Body} {p : Prop} [Decidable p] {a a' : DWord}
    {b b' : Word} {ws : List (Nat × Word)} (hi : Issues s tid i c) (he : exec i s = issueEach i body s)
    (hbody : ∀ u, body c u = .ok (if p then c.putP a u else c.put b u))
    (hw : some (if p then c.to64 a' else c.to32 b') = some ws) (ha : a = a') (hb : b = b') :
    exec i s = .next (wrote s c ws) := by
  obtain rfl := Option.some.inj hw
  subst ha hb
  refine he.trans (issueEach_write hi fun u => (hbody u).trans ?_)
  split <;> rfl

/-! Fields and bits of a number. -/

theorem bitsAt_zero (x n : Nat) : bitsAt x 0 n = x % 2 ^ n := by
  rw [bitsAt, Nat.pow_zero, Nat.div_one]

theorem bitsAt_zero_two (x : Nat) : bitsAt x 0 2 = x % 4 := bitsAt_zero x 2
theorem bitsAt_zero_three (x : Nat) : bitsAt x 0 3 = x % 8 := bitsAt_zero x 3
theorem bitsAt_zero_four (x : Nat) : bitsAt x 0 4 = x % 16 := bitsAt_zero x 4

theorem natCast_two_pow (n : Nat) : ((2 ^ n : Nat) : Int) = 2 ^ n := Int.natCast_pow 2 n

theorem testBit_bitsAt {x lo n j : Nat} (hj : j < n) : (bitsAt x lo n).testBit j = x.testBit (lo + j) := by
  simp only [bitsAt, Nat.testBit_mod_two_pow, hj, decide_true, Bool.true_and, Nat.testBit_div_two_pow, Nat.add_comm]

/-- The sum that `bitsOf` forms holds the predicate's bits. -/
theorem foldl_two_pow (p : Nat → Bool) (n : Nat) :
    let r := (List.range n).foldl (fun m i => if p i then m + 2 ^ i else m) 0
    r < 2 ^ n ∧ ∀ k, r.testBit k = (decide (k < n) && p k) := by
  induction n with
  | zero => simp
  | succ n ih =>
    obtain ⟨hlt, hbits⟩ := ih
    rw [List.range_succ, List.foldl_append, List.foldl_cons, List.foldl_nil]
    generalize (List.range n).foldl (fun m i => if p i then m + 2 ^ i else m) 0 = r at hlt hbits
    have hor : r + 2 ^ n = 2 ^ n ||| r := by
      rw [Nat.add_comm]
      simpa using Nat.two_pow_add_eq_or_of_lt hlt 1
    have hpow : 2 ^ (n + 1) = 2 ^ n + 2 ^ n := by omega
    split
    case isTrue hp =>
      refine ⟨by omega, fun k => ?_⟩
      rw [hor, Nat.testBit_or, Nat.testBit_two_pow, hbits]
      by_cases hk : n = k
      · subst hk; simp [hp]
      · simp [hk, show k < n + 1 ↔ k < n by omega]
    case isFalse hp =>
      refine ⟨by omega, fun k => ?_⟩
      rw [hbits]
      by_cases hk : k = n
      · subst hk; simp [hp]
      · simp [show k < n + 1 ↔ k < n by omega]

theorem getLsbD_bitsOf {w k : Nat} (p : Nat → Bool) (hk : k < w) : (bitsOf w p).getLsbD k = p k := by
  obtain ⟨-, hbits⟩ := foldl_two_pow p w
  simp only [bitsOf, BitVec.getLsbD_ofNat, hbits, hk, decide_true, Bool.true_and]

theorem getLsbD_brev {w k : Nat} (x : BitVec w) (hk : k < w) : (brev x).getLsbD k = x.getLsbD (w - 1 - k) := getLsbD_bitsOf _ hk

theorem toNat_pair (hi lo : Word) : (hi ++ lo : DWord).toNat = hi.toNat * 2 ^ 32 + lo.toNat := by
  rw [BitVec.toNat_append, ← Nat.shiftLeft_add_eq_or_of_lt lo.isLt, Nat.shiftLeft_eq]

/-! Choices (04 R93). -/

theorem min_intOf {w : Nat} (u : Bool) (a b : BitVec w) :
    min (intOf u a) (intOf u b) = intOf u (if intOf u a ≤ intOf u b then a else b) := by
  rw [Int.min_def, apply_ite (intOf u)]

theorem max_intOf {w : Nat} (u : Bool) (a b : BitVec w) :
    max (intOf u a) (intOf u b) = intOf u (if intOf u a ≤ intOf u b then b else a) := by
  rw [Int.max_def, apply_ite (intOf u)]

theorem wrap32_min (u : Bool) (a b : Word) :
    wrap32 (min (intOf u a) (intOf u b)) = if intOf u a ≤ intOf u b then a else b := by
  rw [min_intOf, wrap32, ofInt_intOf]

theorem wrap32_max (u : Bool) (a b : Word) :
    wrap32 (max (intOf u a) (intOf u b)) = if intOf u a ≤ intOf u b then b else a := by
  rw [max_intOf, wrap32, ofInt_intOf]

theorem wrap32_clamp (u : Bool) (a b x : Word) :
    wrap32 (min (max (intOf u a) (intOf u b)) (intOf u x)) =
      let top := if intOf u a ≤ intOf u b then b else a
      if intOf u top ≤ intOf u x then top else x := by
  rw [max_intOf, wrap32_min]

theorem bool32_eq_one32 (b : Bool) : bool32 b = one32 (b = true) := rfl

theorem cmpInt_eq {n : Nat} (h : n < 6) (a b : Int) : cmpInt n a b = holdsCc n a b := by
  match n, h with
  | 0, _ | 1, _ | 2, _ | 3, _ | 4, _ | 5, _ => simp [cmpInt, holdsCc]

/-- The truth value of an ICMP whose condition is not reserved. -/
theorem bool32_cmpInt {m : Nat} (h : decide (bitsAt m 0 3 ≥ 6) = false) (a b : Int) :
    bool32 (cmpInt (bitsAt m 0 3) a b) = one32 (holdsCc (m % 8) a b) := by
  rw [cmpInt_eq (Nat.not_le.mp (of_decide_eq_false h)), bitsAt_zero_three]
  exact bool32_eq_one32 _

theorem choiceResults : ChoiceResults := by
  intro i s tid c ws hi h
  have hf := hi.f_eq
  cases i
  case iminA64 f => exact hi.writes32 rfl h (wrap32_min _ _ _)
  case iminI64 f => exact hi.writes32 rfl h (c.k20_eq ▸ wrap32_min _ _ _)
  case imaxA64 f => exact hi.writes32 rfl h (wrap32_max _ _ _)
  case imaxI64 f => exact hi.writes32 rfl h (c.k20_eq ▸ wrap32_max _ _ _)
  case iclamp f => exact hi.writes32 rfl h (wrap32_clamp _ _ _ _)
  case icmpA64 f | icmp64 f =>
    exact hi.writes32 rfl h (bool32_cmpInt (hf ▸ hi.bad8_eq_false fun _ => rfl) _ _)
  case icmpC64 f => exact hi.writesK rfl h fun _ => bool32_cmpInt (hf ▸ hi.bad8_eq_false fun _ => rfl) _ _
  case sel f => exact hi.writes32 rfl h rfl
  all_goals contradiction

/-! Logic and shifts (04 R94 to R96). -/

theorem logic_eq_lop (n : Nat) (a b : Word) : logic n a b = lop n a b := by
  unfold logic
  split
  case h_1 | h_2 | h_3 => rfl
  case h_4 h0 h1 h2 =>
    rw [lop, if_neg h0, if_neg h1, if_neg h2, BitVec.not_def]
    rfl

theorem logic_bitsAt (m : Nat) (a b : Word) : logic (bitsAt m 0 2) a b = lop (m % 4) a b := by
  rw [logic_eq_lop, bitsAt_zero_two]

theorem shiftLeft_eq_shl (a : Word) (n : Nat) : a <<< n = shl a n := by
  apply BitVec.eq_of_toNat_eq
  rw [BitVec.toNat_shiftLeft, Nat.shiftLeft_eq, shl, BitVec.toNat_ofNat]

theorem ushiftRight_eq_shr (a : Word) (n : Nat) : a >>> n = shr a n := by
  apply BitVec.eq_of_toNat_eq
  rw [BitVec.toNat_ushiftRight, Nat.shiftRight_eq_div_pow, shr, BitVec.toNat_ofNat,
    Nat.mod_eq_of_lt (Nat.lt_of_le_of_lt (Nat.div_le_self _ _) a.isLt)]

theorem shlW_eq (a : Word) (n : Nat) : shlW a n = shl a n := by
  rw [← shiftLeft_eq_shl, shlW]
  split
  case isTrue h => exact (BitVec.shiftLeft_eq_zero h).symm
  case isFalse => rfl

theorem shrU_eq (a : Word) (n : Nat) : shrU a n = shr a n := by
  rw [← ushiftRight_eq_shr, shrU]
  split
  case isTrue h => exact (BitVec.ushiftRight_eq_zero h).symm
  case isFalse => rfl

theorem shrS_eq (a : Word) (n : Nat) : shrS a n = sar a n := by
  rw [shrS, sar, natCast_two_pow]

/-- Two shifts that bring a word's two parts to each other's place share no bit. -/
theorem shiftLeft_or_ushiftRight (a : Word) {k : Nat} (hk : k ≤ 32) : a <<< k ||| a >>> (32 - k) = shl a k + shr a (32 - k) := by
  rw [← shiftLeft_eq_shl, ← ushiftRight_eq_shr, BitVec.add_eq_or_of_and_eq_zero]
  apply BitVec.eq_of_getLsbD_eq
  intro j _
  rw [BitVec.getLsbD_and, BitVec.getLsbD_shiftLeft, BitVec.getLsbD_ushiftRight, BitVec.getLsbD_zero]
  by_cases hj : j < k
  · simp [hj]
  · simp [BitVec.getLsbD_of_ge a (32 - k + j) (by omega)]

theorem rolW_eq (a : Word) (n : Nat) : rolW a n = rol a n := by
  have hn : n % 32 < 32 := Nat.mod_lt _ (by decide)
  rw [rolW, BitVec.rotateLeft_def, Nat.mod_mod, shiftLeft_or_ushiftRight a (Nat.le_of_lt hn), rol, BitVec.ofNat_add]
  rfl

theorem rorW_eq (a : Word) (n : Nat) : rorW a n = ror a n := by
  have hn : n % 32 < 32 := Nat.mod_lt _ (by decide)
  have h := shiftLeft_or_ushiftRight a (Nat.sub_le 32 (n % 32))
  rw [Nat.sub_sub_self (Nat.le_of_lt hn)] at h
  rw [rorW, BitVec.rotateRight_def, Nat.mod_mod, BitVec.or_comm, h, ror, BitVec.ofNat_add, BitVec.add_comm]
  rfl

theorem fshl_eq (a b : Word) (n : Nat) : fshl a b n = (((a ++ b : DWord) <<< n) >>> 32).setWidth 32 := by
  apply BitVec.eq_of_toNat_eq
  simp only [fshl, BitVec.toNat_setWidth, BitVec.toNat_ushiftRight, BitVec.toNat_shiftLeft, toNat_pair, BitVec.toNat_ofNat,
    Nat.shiftRight_eq_div_pow, Nat.shiftLeft_eq]
  omega

theorem fshr_eq (a b : Word) (n : Nat) : fshr a b n = ((a ++ b : DWord) >>> n).setWidth 32 := by
  apply BitVec.eq_of_toNat_eq
  simp only [fshr, BitVec.toNat_setWidth, BitVec.toNat_ushiftRight, toNat_pair, BitVec.toNat_ofNat, Nat.shiftRight_eq_div_pow]

theorem logicShiftResults : LogicShiftResults := by
  intro i s tid c ws hi h
  cases i
  case lopA64 f | lopI96 f => exact hi.writes32 rfl h (logic_bitsAt _ _ _)
  case lopI64 f => exact hi.writes32 rfl h (c.k20_eq ▸ logic_bitsAt _ _ _)
  case lopC64 f => exact hi.writesK rfl h fun _ => logic_bitsAt _ _ _
  case shlA64 f | shlI64 f => exact hi.writes32 rfl h (shlW_eq _ _)
  case shrA64 f | shrI64 f => exact hi.writes32 rfl h (ite_congr rfl (fun _ => shrU_eq _ _) fun _ => shrS_eq _ _)
  case rolA64 f | rolI64 f => exact hi.writes32 rfl h (rolW_eq _ _)
  case rorA64 f | rorI64 f => exact hi.writes32 rfl h (rorW_eq _ _)
  case fshl f => exact hi.writes32 rfl h (fshl_eq _ _ _)
  case fshr f => exact hi.writes32 rfl h (fshr_eq _ _ _)
  all_goals contradiction

/-! Fields (04 R97). -/

theorem bfe_eq (u : Bool) (a : Word) (p l : Nat) :
    bfe u a p l =
      let f := intOf u a / 2 ^ p % 2 ^ l
      if l = 0 then 0 else BitVec.ofInt 32 (if !u && decide (f ≥ 2 ^ (l - 1)) then f - 2 ^ l else f) := by
  simp only [bfe, natCast_two_pow]

theorem bfi_eq (a b : Word) (p l : Nat) :
    bfi a b p l = (a &&& (0xFFFFFFFF#32 ^^^ fieldMask p l)) ||| (shl b p &&& fieldMask p l) := by
  simp only [bfi, BitVec.not_def]
  rfl

theorem fieldMask_eq (p : Nat) {l : Nat} (hl : l ≤ 32) : fieldMask p l = shl (BitVec.ofNat 32 (2 ^ l - 1)) p := by
  have hpow : 2 ^ l ≤ 2 ^ 32 := Nat.pow_le_pow_right (by decide) hl
  rw [shl, BitVec.toNat_ofNat, Nat.mod_eq_of_lt (by omega), fieldMask]

/-! Counts (04 R98): a number's bits as a list, and the place of its first one. -/

theorem reverse_bitsDown {w : Nat} (x : BitVec w) : (bitsDown x).reverse = (List.range w).map x.getLsbD := by
  apply List.ext_getElem
  · simp [bitsDown]
  · intro k hk _
    simp only [bitsDown, List.length_reverse, List.length_map, List.length_range] at hk
    simp [bitsDown, show w - 1 - (w - 1 - k) = k by omega]

theorem foldl_b2n (b : Nat → Bool) (l : List Nat) (n : Nat) :
    l.foldl (fun n k => n + b2n (b k)) n = n + (l.map b).count true := by
  induction l generalizing n with
  | nil => rfl
  | cons k l ih =>
    rw [List.foldl_cons, ih, List.map_cons, List.count_cons]
    cases b k
    case false => rfl
    case true => simp only [b2n, if_true, beq_self_eq_true]; omega

theorem popcount_eq {w : Nat} (x : BitVec w) : popcount w x.toNat = (bitsDown x).count true := by
  rw [← List.count_reverse, reverse_bitsDown]
  simp only [popcount, bitAt_toNat, foldl_b2n, Nat.zero_add]

/-- A list of `n` bits begins with `m` zeros when the first one, if any, stands at `m`. -/
theorem length_zeros {n m : Nat} {b : Nat → Bool} (hm : m ≤ n) (hz : ∀ k < m, b k = false) (ho : m < n → b m = true) :
    (((List.range n).map b).takeWhile (! ·)).length = m := by
  have hfind : ((List.range n).map b).findIdx (fun x => x) = m := by
    obtain hlt | rfl := Nat.lt_or_eq_of_le hm
    · rw [List.findIdx_eq (by simpa using hlt)]
      simpa using ⟨ho hlt, hz⟩
    · have hnone : ∀ x ∈ (List.range m).map b, x = false := by simpa using hz
      rw [List.findIdx_eq_length.mpr hnone, List.length_map, List.length_range]
  simpa only [List.takeWhile_eq_take_findIdx_not, Bool.not_not, hfind, List.length_take, List.length_map, List.length_range]
    using Nat.min_eq_left hm

theorem clz_eq {w : Nat} (x : BitVec w) : clz w x.toNat = ((bitsDown x).takeWhile (! ·)).length := by
  unfold clz bitsDown
  split
  case isTrue hx =>
    obtain rfl : x = 0#w := BitVec.eq_of_toNat_eq hx
    exact (length_zeros (Nat.le_refl _) (fun _ _ => BitVec.getLsbD_zero) fun h => absurd h (Nat.lt_irrefl _)).symm
  case isFalse hx =>
    have hlog : x.toNat.log2 < w := (Nat.log2_lt hx).mpr x.isLt
    refine (length_zeros (by omega) (fun k hk => ?_) fun _ => ?_).symm
    · have : x.toNat < 2 ^ (w - 1 - k) := (Nat.log2_lt hx).mp (by omega)
      rw [← BitVec.testBit_toNat, Nat.testBit_lt_two_pow this]
    · rw [← BitVec.testBit_toNat, show w - 1 - (w - 1 - x.toNat.log2) = x.toNat.log2 by omega]
      exact Nat.testBit_log2 hx

theorem ctz_eq {w : Nat} (x : BitVec w) : ctz w x.toNat = ((bitsDown x).reverse.takeWhile (! ·)).length := by
  rw [reverse_bitsDown]
  simp only [ctz, bitAt_toNat]
  cases hfind : (List.range w).find? fun k => x.getLsbD k with
  | none =>
    rw [List.find?_range_eq_none] at hfind
    exact (length_zeros (Nat.le_refl _) (by simpa using hfind) fun h => absurd h (Nat.lt_irrefl _)).symm
  | some m =>
    obtain ⟨hone, hm, hzero⟩ := List.find?_range_eq_some.mp hfind
    exact (length_zeros (Nat.le_of_lt (List.mem_range.mp hm)) (by simpa using hzero) fun _ => hone).symm

/-- A count of the bits of VA or of its pair. -/
theorem count_wide {f : Nat → Nat → Nat} {g : List Bool → Nat} (h : ∀ {w : Nat} (x : BitVec w), f w x.toNat = g (bitsDown x))
    (c : Ctx) : f c.wide.1 c.wide.2 = g (if c.m 7 then bitsDown (c.p c.f.va) else bitsDown c.va) := by
  unfold Ctx.wide
  split <;> exact h _

/-! Sums over elements (04 R101). -/

theorem elemOf_eq (u : Bool) {w : Nat} (hw : 0 < w) (i : Nat) (x : Word) : elemOf u w i x = intOf u (x.extractLsb' (w * i) w) := by
  have hbits : (x.extractLsb' (w * i) w).toNat = bitsAt x.toNat (w * i) w := by
    rw [BitVec.extractLsb'_toNat, Nat.shiftRight_eq_div_pow, bitsAt]
  cases u
  case true => simp only [elemOf, intOf, if_true, hbits]
  case false =>
    simp only [elemOf, intOf, Bool.false_eq_true, if_false, signedOf_eq_toInt hw, ← hbits, BitVec.ofNat_toNat,
      BitVec.setWidth_eq]

theorem foldl_add_eq_sum (f : Nat → Int) (l : List Nat) (a : Int) : l.foldl (fun x k => x + f k) a = a + (l.map f).sum := by
  induction l generalizing a with
  | nil => simp
  | cons k l ih => rw [List.foldl_cons, ih, List.map_cons, List.sum_cons, Int.add_assoc]

/-- The number of elements of a shape, whose width is 32 bits over it (04 R101). -/
def dotCount (fn : Nat) : Nat := if fn = 0 then 4 else if fn = 1 then 2 else 8

theorem dotShape_eq (fn : Nat) : dotShape fn = (dotCount fn, 32 / dotCount fn) := by
  unfold dotShape
  split
  case h_1 | h_2 => rfl
  case h_3 h0 h1 => rw [dotCount, if_neg h0, if_neg h1]

theorem dotWidth_pos (fn : Nat) : 0 < 32 / dotCount fn := by
  unfold dotCount
  split
  case isTrue => decide
  case isFalse => split <;> decide

theorem idot_eq (fn : Nat) (ua ub : Bool) (a b c : Word) :
    idot fn ua ub a b c = c.toInt + ((List.range (dotCount fn)).map fun i =>
      intOf ua (a.extractLsb' (32 / dotCount fn * i) (32 / dotCount fn)) *
        intOf ub (b.extractLsb' (32 / dotCount fn * i) (32 / dotCount fn))).sum := by
  simp only [idot, dotShape_eq, foldl_add_eq_sum, elemOf_eq _ (dotWidth_pos fn)]

theorem sad_eq (fn : Nat) (u : Bool) (a b c : Word) :
    sad fn u a b c = c.toNat + ((List.range (dotCount fn)).map fun i =>
      ((intOf u (a.extractLsb' (32 / dotCount fn * i) (32 / dotCount fn)) -
        intOf u (b.extractLsb' (32 / dotCount fn * i) (32 / dotCount fn))).natAbs : Int)).sum := by
  simp only [sad, dotShape_eq, foldl_add_eq_sum, elemOf_eq _ (dotWidth_pos fn)]

/-- The shapes of SAD that are not reserved. -/
theorem dotCount_of_lt {fn : Nat} (h : fn < 2) : dotCount fn = if fn = 0 then 4 else 2 := by
  match fn, h with
  | 0, _ | 1, _ => rfl

theorem wrap_add_toNat {w : Nat} (x : BitVec w) (k : Int) : BitVec.ofInt w (x.toNat + k) = x + BitVec.ofInt w k := by
  rw [BitVec.ofInt_add, BitVec.ofInt_natCast, BitVec.ofNat_toNat, BitVec.setWidth_eq]

/-- ICVT's result, whose source is a pair in the 64-bit formats, before it is written at its width (04 R103). -/
def Ctx.icvtValue (c : Ctx) : Int :=
  let src := bitsAt c.f.mod 4 4
  intEncode (bitsAt c.f.mod 0 4) (c.m 8) (if 9 ≤ src then intDecode src (c.p c.f.va).toNat else intDecode src c.va.toNat)

theorem icvtValue_eq (c : Ctx) :
    c.icvtValue = intEncode (c.f.mod % 16) (c.m 8) (intDecode (c.f.mod / 16 % 16)
      (if c.f.mod / 16 % 16 ≥ 9 then (c.p c.f.va).toNat else c.va.toNat)) := by
  rw [Ctx.icvtValue, bitsAt_zero_four, apply_ite (intDecode _)]
  rfl

theorem fieldResults : FieldResults := by
  intro i s tid c ws hi h
  cases i
  case bfe f => exact hi.writes32 rfl h (bfe_eq _ _ _ _)
  case bfi f => exact hi.writes32 rfl h (bfi_eq _ _ _ _)
  case bmsk f => exact hi.writes32 rfl h (fieldMask_eq _ (Nat.min_le_right _ _))
  case popc f =>
    have hc := count_wide (g := fun l => l.count true) popcount_eq c
    exact hi.writes32 rfl h (congrArg (BitVec.ofNat 32) hc)
  case clz f =>
    have hc := count_wide (g := fun l => (l.takeWhile (! ·)).length) clz_eq c
    exact hi.writes32 rfl h (congrArg (BitVec.ofNat 32) hc)
  case ctz f =>
    have hc := count_wide (g := fun l => (l.reverse.takeWhile (! ·)).length) ctz_eq c
    exact hi.writes32 rfl h (congrArg (BitVec.ofNat 32) hc)
  case lea f =>
    have hk : ((2 ^ bitsAt c.f.mod 0 3 : Nat) : Int) = 2 ^ (c.f.mod % 8) := by rw [natCast_two_pow, bitsAt_zero_three]
    exact hi.writesEither rfl (fun _ => rfl) h (hk ▸ wrap_add_toNat _ _) (hk ▸ wrap_add_toNat _ _)
  case movA64 f => exact hi.writesEither rfl (fun _ => rfl) h rfl rfl
  case movI64 f => exact hi.writes32 rfl h c.k20_eq
  case movC64 f => exact hi.writesK rfl h fun _ => rfl
  case movI96 f => exact hi.writes32 rfl h rfl
  case icvt f =>
    refine hi.writesEither (p := 9 ≤ bitsAt c.f.mod 0 4) rfl (fun _ => rfl) ?_ (congrArg wrap64 (icvtValue_eq c))
      (congrArg wrap32 (icvtValue_eq c))
    rw [bitsAt_zero_four]
    exact h
  case idot f =>
    refine hi.writes32 rfl h ?_
    rw [narrow_eq_fits, idot_eq, bitsAt_zero_three]
    rfl
  case sad f =>
    have hlt : bitsAt c.f.mod 0 3 < 2 := Nat.not_le.mp (of_decide_eq_false (hi.f_eq ▸ hi.bad8_eq_false fun _ => rfl))
    refine hi.writes32 rfl h ?_
    rw [sad_eq, dotCount_of_lt hlt, bitsAt_zero_three]
    rfl
  all_goals contradiction

/-! Bitwise instructions (04 R94, R98, R99). -/

/-- A byte of the sign of another, if asked for. -/
theorem filledByte (p : Bool) {b : Nat} (hb : b < 2 ^ 8) :
    let r := if p then (if bitAt b 7 then 0xFF else 0) else b
    r < 2 ^ 8 ∧ ∀ j < 8, r.testBit j = b.testBit (if p then 7 else j) := by
  cases p
  case false => exact ⟨hb, fun _ _ => rfl⟩
  case true =>
    simp only [if_true, ← bitAt_eq_testBit b]
    cases bitAt b 7
    case false => exact ⟨by decide, fun j _ => Nat.zero_testBit j⟩
    case true => exact ⟨by decide, by decide⟩

/-- A byte with its bits in reverse order, if asked for. -/
theorem reversedByte (p : Bool) {b : Nat} (hb : b < 2 ^ 8) :
    let r := if p then (brev (BitVec.ofNat 8 b)).toNat else b
    r < 2 ^ 8 ∧ ∀ j < 8, r.testBit j = b.testBit (if p then 7 - j else j) := by
  cases p
  case false => exact ⟨hb, fun _ _ => rfl⟩
  case true =>
    refine ⟨BitVec.isLt _, fun j hj => ?_⟩
    have hj' : 7 - j < 8 := by omega
    simp only [if_true, BitVec.testBit_toNat, getLsbD_brev _ hj, BitVec.getLsbD_ofNat, hj', decide_true, Bool.true_and,
      Nat.add_one_sub_one]

theorem testBit_complement {b j : Nat} (hb : b < 2 ^ 8) (hj : j < 8) : (0xFF - b).testBit j = !b.testBit j := by
  rw [show 0xFF - b = 2 ^ 8 - (b + 1) by omega, Nat.testBit_two_pow_sub_succ hb, decide_eq_true hj, Bool.true_and]

/-- Bit `j` of a byte of BSEL before its complement: zero, or one of the selected byte's by the sign and reversal steps (04 R99). -/
def bselBit (src k j : Nat) : Bool :=
  if bitAt k 3 then false else if bitAt k 5 then src.testBit (8 * (k % 8) + 7)
    else if bitAt k 6 then src.testBit (8 * (k % 8) + (7 - j)) else src.testBit (8 * (k % 8) + j)

theorem bselByte_eq (src k : Nat) : ∃ b < 2 ^ 8, bselByte src k = (if bitAt k 4 then 0xFF - b else b) ∧ ∀ j < 8, b.testBit j = bselBit src k j := by
  unfold bselByte bselBit
  cases bitAt k 3
  case true => exact ⟨0, by decide, rfl, fun j _ => Nat.zero_testBit j⟩
  case false =>
    obtain ⟨hf, hfill⟩ := filledByte (bitAt k 5) (b := bitsAt src (8 * (k % 8)) 8) (Nat.mod_lt _ (by decide))
    obtain ⟨hr, hrev⟩ := reversedByte (bitAt k 6) hf
    refine ⟨_, hr, rfl, fun j hj => ?_⟩
    have hrevj : (if bitAt k 6 then 7 - j else j) < 8 := by split <;> omega
    have hfillj : (if bitAt k 5 then 7 else if bitAt k 6 then 7 - j else j) < 8 := by split <;> omega
    rw [hrev j hj, hfill _ hrevj, testBit_bitsAt hfillj]
    cases bitAt k 5 <;> cases bitAt k 6 <;> rfl

theorem testBit_bselByte (src k : Nat) {j : Nat} (hj : j < 8) :
    (bselByte src k).testBit j = (bitAt k 4 ^^ bselBit src k j) := by
  obtain ⟨b, hb, hbyte, hbits⟩ := bselByte_eq src k
  rw [hbyte, ← hbits j hj]
  cases bitAt k 4
  case false => exact (Bool.false_xor _).symm
  case true => exact (testBit_complement hb hj).trans (Bool.true_xor _).symm

theorem bselByte_lt (src k : Nat) : bselByte src k < 2 ^ 8 := by
  obtain ⟨b, hb, hbyte, -⟩ := bselByte_eq src k
  rw [hbyte]
  split <;> omega

/-- A sum over four indices, spelled out for any summand. -/
theorem foldl_range_four (g : Nat → Nat) : (List.range 4).foldl (fun n i => n + g i) 0 = g 0 + g 1 + g 2 + g 3 := by
  simp [List.range_succ]

/-- A byte of a word that is given by its four bytes. -/
theorem byte_of_foldl {b : Nat → Nat} (hb : ∀ i, b i < 256) {k : Nat} (hk : k < 4) :
    (List.range 4).foldl (fun n i => n + b i * 2 ^ (8 * i)) 0 % 2 ^ 32 / 2 ^ (8 * k) % 2 ^ 8 = b k := by
  have h0 := hb 0
  have h1 := hb 1
  have h2 := hb 2
  have h3 := hb 3
  rw [foldl_range_four fun i => b i * 2 ^ (8 * i)]
  match k, hk with
  | 0, _ | 1, _ | 2, _ | 3, _ => omega

/-- Byte `k` of BSEL's result comes from byte `k` of its control register. -/
theorem bsel_byte (a b c : Word) {k : Nat} (hk : k < 4) :
    (bsel a b c).toNat / 2 ^ (8 * k) % 2 ^ 8 = bselByte (b ++ a : DWord).toNat (c.toNat / 2 ^ (8 * k) % 256) := by
  have hsrc : a.toNat + 2 ^ 32 * b.toNat = (b ++ a : DWord).toNat := by rw [toNat_pair, Nat.add_comm, Nat.mul_comm]
  rw [bsel, BitVec.toNat_ofNat, byte_of_foldl (fun _ => bselByte_lt _ _) hk, hsrc]
  rfl

theorem getLsbD_bsel (a b c : Word) {k j : Nat} (hk : k < 4) (hj : j < 8) :
    (bsel a b c).getLsbD (8 * k + j) = (bselByte (b ++ a : DWord).toNat (c.toNat / 2 ^ (8 * k) % 256)).testBit j := by
  rw [← bsel_byte a b c hk, Nat.testBit_mod_two_pow, decide_eq_true hj, Bool.true_and, Nat.testBit_div_two_pow, Nat.add_comm,
    BitVec.testBit_toNat]

theorem getLsbD_lut3 (t : Nat) (a b c : Word) {k : Nat} (hk : k < 32) : (lut3 t a b c).getLsbD k =
    bitAt t (a.toNat / 2 ^ k % 2 + 2 * (b.toNat / 2 ^ k % 2) + 4 * (c.toNat / 2 ^ k % 2)) := by
  rw [lut3, getLsbD_bitsOf _ hk, b2n_getLsbD, b2n_getLsbD, b2n_getLsbD]

/-- BREV writes the reversed bits of VA or of its pair. -/
theorem exec_brev {f : FA64} {s : State} {tid : Nat} {c : Ctx} (hi : Issues s tid (.brev f) c) :
    exec (.brev f) s = .next (wrote s c (if c.m 7 then c.to64 (brev (c.p c.f.va)) else c.to32 (brev c.va))) :=
  hi.writesEither rfl (fun _ => rfl) rfl rfl rfl

theorem bitwiseResults : BitwiseResults := by
  intro i s tid c hi
  refine ⟨?lut3, ?brev32, ?brev64, ?bsel⟩
  case lut3 =>
    rintro f rfl
    exact ⟨_, issueEach_put32 hi, fun k hk => getLsbD_lut3 _ _ _ _ hk⟩
  case brev32 =>
    rintro f rfl hw
    exact ⟨_, by simpa only [hw, Bool.false_eq_true, if_false] using exec_brev hi, fun k hk => getLsbD_brev _ hk⟩
  case brev64 =>
    rintro f rfl hw
    exact ⟨_, by simpa only [hw, if_true] using exec_brev hi, fun k hk => getLsbD_brev _ hk⟩
  case bsel =>
    rintro f rfl
    refine ⟨_, issueEach_put32 hi, fun k hk j hj => ?_⟩
    rw [getLsbD_bsel _ _ _ hk hj, testBit_bselByte _ _ hj]
    simp only [bselBit, BitVec.testBit_toNat]

end Sys2Proof.Machine

open Sys2Proof.Machine

/-- Settles O7: each row of the tables is a lemma about its function, and a bit of LUT3, BREV and BSEL is one of their sources. -/
theorem choicesLogicAndFields : Obligations.ChoicesLogicAndFields :=
  ⟨choiceResults, logicShiftResults, fieldResults, bitwiseResults⟩
end

section
/-! PROOFS. The matrix engine's runs, checksums and completions, and the engine reset (09 R197 to R203, 12 R281): what the updates of
the state leave of a core, then one lemma for each event. -/

namespace Sys2Proof.Machine

open Sys2Proof

/-! A core after an update, and threads and teams after one. -/

theorem State.core_congr {s u : State} (h : u.cores = s.cores) (k : Nat) : u.core k = s.core k := by
  rw [State.core, h, State.core]

@[simp] theorem State.core_modCore (s : State) (k : Nat) (f : Core → Core) : (s.modCore k f).core k = f (s.core k) :=
  State.core_putCore_self _ _ _

@[simp] theorem State.core_bumpCore (s : State) (k o n : Nat) :
    (s.bumpCore k o n).core k = { s.core k with counters := bumpAt (s.core k).counters o n } := State.core_modCore _ _ _

@[simp] theorem State.core_modThread (s : State) (k n : Nat) (f : Thread → Thread) : (s.modThread n f).core k = s.core k :=
  State.core_congr (State.modThread_cores s n f) k

@[simp] theorem State.core_modTeam (s : State) (k n : Nat) (f : Team → Team) : (s.modTeam n f).core k = s.core k :=
  State.core_congr (State.modTeam_cores s n f) k

@[simp] theorem State.core_modGrid (s : State) (k n : Nat) (f : Grid → Grid) : (s.modGrid n f).core k = s.core k :=
  State.core_congr (State.modGrid_cores s n f) k

theorem State.thread?_congr {s u : State} (h : u.threads = s.threads) (k : Nat) : u.thread? k = s.thread? k := by
  rw [State.thread?, h, State.thread?]

theorem State.thread?_modThread_ne (s : State) {k j : Nat} (f : Thread → Thread) (h : j ≠ k) :
    (s.modThread k f).thread? j = s.thread? j := by
  unfold State.modThread
  split
  · exact State.thread?_putThread_ne s k j _ h
  · rfl

@[simp] theorem State.thread?_modCore (s : State) (c k : Nat) (f : Core → Core) : (s.modCore c f).thread? k = s.thread? k := rfl

@[simp] theorem State.thread?_bumpCore (s : State) (c o n k : Nat) : (s.bumpCore c o n).thread? k = s.thread? k := rfl

/-- The threads of a list updated. -/
def State.modThreads (s : State) (l : List Nat) (f : Thread → Thread) : State := l.foldl (fun s k => s.modThread k f) s

@[simp] theorem State.modThreads_teams (s : State) (l : List Nat) (f : Thread → Thread) : (s.modThreads l f).teams = s.teams :=
  Blind.fold (fun s k => s.modThread k f) (fun s k => State.modThread_teams s k f) l s

@[simp] theorem State.modThreads_dev (s : State) (l : List Nat) (f : Thread → Thread) : (s.modThreads l f).dev = s.dev :=
  Blind.fold (fun s k => s.modThread k f) (fun s k => State.modThread_dev s k f) l s

@[simp] theorem State.core_modThreads (s : State) (l : List Nat) (f : Thread → Thread) (c : Nat) :
    (s.modThreads l f).core c = s.core c :=
  Blind.fold (π := fun s => s.core c) (fun s k => s.modThread k f) (fun s k => State.core_modThread s c k f) l s

theorem State.thread?_modThreads_not_mem (s : State) {l : List Nat} (f : Thread → Thread) {k : Nat} (h : k ∉ l) :
    (s.modThreads l f).thread? k = s.thread? k := by
  unfold State.modThreads
  induction l generalizing s with
  | nil => rfl
  | cons j r ih =>
    obtain ⟨hj, hr⟩ := List.ne_and_not_mem_of_not_mem_cons h
    rw [List.foldl_cons, ih _ hr, State.thread?_modThread_ne s f hj]

theorem State.thread?_modThreads_singleton {s : State} {k : Nat} {t : Thread} (f : Thread → Thread) (h : s.thread? k = some t) :
    (s.modThreads [k] f).thread? k = some (f t) := by
  rw [State.modThreads, List.foldl_cons, List.foldl_nil, State.modThread_some s k t f h, State.thread?_putThread]

theorem State.team?_congr {s u : State} (h : u.teams = s.teams) (k : Nat) : u.team? k = s.team? k := by
  rw [State.team?, h, State.team?]

theorem State.team?_modTeam (s : State) (k : Nat) (t : Team) (f : Team → Team) (h : s.team? k = some t) :
    (s.modTeam k f).team? k = some (f t) := by
  rw [State.modTeam, h]
  exact tfind_tput_self _ _ _

/-! Records and the PERTURB flag leave the cores. -/

@[simp] theorem postFault_cores (p : Nat) (ws : List DWord) (s : State) : (postFault p ws s).cores = s.cores := by
  simp [postFault, sendRecord, sendMsg]

@[simp] theorem perturb_cores (p : Option Nat) (s : State) : (perturb p s).cores = s.cores := by
  cases p <;> rfl

/-! The queue: its first step, and the run that starts next (09 R197, R202). -/

section
variable {c : Core} {x : EngStep} {more : List EngStep}

theorem memberAt_head (hs : c.steps = x :: more) {k : Nat} {m : StepMember} (hm : x.members[k]? = some m) :
    memberAt c x.key k = some (x, m) := by
  simp [memberAt, hs, hm]

theorem putStep_head (hs : c.steps = x :: more) {y : EngStep} (hy : y.key = x.key) (hne : ∀ z ∈ more, z.key ≠ x.key) :
    putStep c y = { c with steps := y :: more } := by
  have hmore : more.map (fun z => if z.key = x.key then y else z) = more :=
    (List.map_congr_left fun z hz => by simp [hne z hz]).trans (List.map_id more)
  simp [putStep, hs, hy, hmore]

theorem nextRun_rerun {e : Nat × Nat} {others : List (Nat × Nat)} (h : c.reruns = e :: others) (clk : Nat) :
    nextRun c clk = some (e.1, e.2, true) := by
  simp [nextRun, h]

/-- The condition under which the first step's next member starts. -/
def MayStart (c : Core) (clk : Nat) (x : EngStep) : Prop :=
  x.todo.length < x.members.length ∨ x.ready ≤ clk ∧ ∀ y ∈ x.members, startBlocked c y = false

theorem nextRun_of_mayStart (hs : c.steps = x :: more) (hr : c.reruns = []) {k clk : Nat} {rest : List Nat} (ht : x.todo = k :: rest)
    (h : MayStart c clk x) : nextRun c clk = some (x.key, k, false) := by
  by_cases hl : rest.length + 1 < x.members.length
  · simp [nextRun, hr, hs, ht, hl]
  · obtain ⟨hc, hb⟩ := h.resolve_left (by simpa [ht] using hl)
    simpa [nextRun, hr, hs, ht, hl, hc] using hb

theorem nextRun_of_early (hs : c.steps = x :: more) (hr : c.reruns = []) {k clk : Nat} {rest : List Nat} (ht : x.todo = k :: rest)
    (hl : x.todo.length = x.members.length) (h : clk < x.ready) : nextRun c clk = none := by
  simp [nextRun, hr, hs, ht, ← hl, Nat.not_le.2 h]

end

/-! STEP_START and STEP_RUN_END (09 R197). -/

theorem startRun_of_none {s : State} {core : Nat} (h : nextRun (s.core core) (s.clkOf core) = none) : startRun core s = s := by
  simp [startRun, h]

section
variable {s : State} {core : Nat} {x : EngStep} {more : List EngStep} {k : Nat} {m : StepMember}

/-- The run of a member that starts now. -/
def runFrom (clk key k : Nat) (m : StepMember) (again : Bool) : EngRun :=
  { step := key, member := k, start := clk, stop := clk + m.run, rerun := again }

variable (ha : (s.core core).onArray = none) (hs : (s.core core).steps = x :: more) (hm : x.members[k]? = some m)
include ha hs hm

theorem startRun_rerun {others : List (Nat × Nat)} (hr : (s.core core).reruns = (x.key, k) :: others) :
    startRun core s = s.putCore core { s.core core with
      reruns := others, onArray := some (runFrom (s.clkOf core) x.key k m true) } := by
  simp [startRun, ha, nextRun_rerun hr, memberAt_head hs hm, hr, runFrom]

theorem startRun_next {rest : List Nat} (hr : (s.core core).reruns = []) (ht : x.todo = k :: rest) (hne : ∀ y ∈ more, y.key ≠ x.key)
    (h : MayStart (s.core core) (s.clkOf core) x) :
    startRun core s = s.putCore core { s.core core with
      steps := { x with todo := rest } :: more, onArray := some (runFrom (s.clkOf core) x.key k m false) } := by
  simp [startRun, ha, nextRun_of_mayStart hs hr ht h, memberAt_head hs hm, ht, putStep_head hs (y := { x with todo := rest }) rfl hne,
    runFrom]

end

/-- STEP_START of an idle array. -/
theorem stepStarts (s : State) (core k : Nat) (x : EngStep) (more : List EngStep) (rest : List Nat) (m : StepMember)
    (ha : (s.core core).onArray = none) (hs : (s.core core).steps = x :: more) (hm : x.members[k]? = some m) :
    (∀ others, (s.core core).reruns = (x.key, k) :: others → exec (.stepStart core) s = .next (s.putCore core { s.core core with
      reruns := others, onArray := some (runFrom (s.clkOf core) x.key k m true) })) ∧
    ((s.core core).reruns = [] → x.todo = k :: rest → (∀ y ∈ more, y.key ≠ x.key) →
      (x.todo.length = x.members.length → s.clkOf core < x.ready → exec (.stepStart core) s = .next s) ∧
      (MayStart (s.core core) (s.clkOf core) x → exec (.stepStart core) s = .next (s.putCore core { s.core core with
        steps := { x with todo := rest } :: more, onArray := some (runFrom (s.clkOf core) x.key k m false) }))) := by
  refine ⟨fun others hr => ?_, fun hr ht hne => ⟨fun hl hc => ?_, fun h => ?_⟩⟩
  · exact congrArg Host.Outcome.next (startRun_rerun ha hs hm hr)
  · exact congrArg Host.Outcome.next (startRun_of_none (nextRun_of_early hs hr ht hl hc))
  · exact congrArg Host.Outcome.next (startRun_next ha hs hm hr ht hne h)

/-- A step after a run of one of its members. -/
def EngStep.ran (x : EngStep) (r : EngRun) (m : StepMember) : EngStep :=
  { x with members := x.members.set r.member { m with runs := m.runs + 1 }, ended := if x.todo.isEmpty then some r.stop else none }

section
variable {s : State} {core : Nat} {r : EngRun} {x : EngStep} {more : List EngStep} {m : StepMember}

theorem endRun_of_running (ha : (s.core core).onArray = some r) (h : s.clkOf core < r.stop) : endRun core s = s := by
  simp [endRun, ha, h]

theorem endRun_of_stopped (ha : (s.core core).onArray = some r) (hs : (s.core core).steps = x :: more) (hk : x.key = r.step)
    (hm : x.members[r.member]? = some m) (h : r.stop ≤ s.clkOf core) :
    endRun core s = (s.putCore core { putStep (s.core core) (x.ran r m) with
      onArray := none, ended := (s.core core).ended ++ [r] }).bumpCore core 0x0120 m.idle := by
  simp [endRun, ha, Nat.not_lt.2 h, ← hk, memberAt_head hs hm, EngStep.ran]

/-- STEP_RUN_END. -/
theorem stepRunEnds (ha : (s.core core).onArray = some r) (hs : (s.core core).steps = x :: more) (hk : x.key = r.step)
    (hm : x.members[r.member]? = some m) :
    (s.clkOf core < r.stop → exec (.stepRunEnd core) s = .next s) ∧
    (r.stop ≤ s.clkOf core → ∃ u, exec (.stepRunEnd core) s = .next u ∧ (u.core core).onArray = none ∧
      (u.core core).ended = (s.core core).ended ++ [r] ∧ (u.core core).tileOps = (s.core core).tileOps ∧ u.threads = s.threads ∧
      u.teams = s.teams ∧ ∃ y rest, (u.core core).steps = y :: rest ∧ y.todo = x.todo ∧
        y.members[r.member]? = some { m with runs := m.runs + 1 } ∧ y.ended = if x.todo = [] then some r.stop else none) := by
  refine ⟨fun h => congrArg Host.Outcome.next (endRun_of_running ha h), fun h =>
    ⟨_, congrArg Host.Outcome.next (endRun_of_stopped ha hs hk hm h), ?_⟩⟩
  have hlt : r.member < x.members.length := (List.getElem?_eq_some_iff.1 hm).1
  simp [State.core_putCore_self, putStep, hs, EngStep.ran, List.getElem?_set_self hlt]

end

/-! CHECKSUM_COMPARE (09 R201 to R203). -/

/-- A tile operation that is poisoned where its key is among those given. -/
def TileOp.spoiledBy (keys : List Nat) (o : TileOp) : TileOp := if keys.contains o.key then { o with poi := true } else o

@[simp] theorem TileOp.spoiledBy_data (keys : List Nat) (o : TileOp) : (o.spoiledBy keys).data = o.data := by
  unfold TileOp.spoiledBy
  split <;> rfl

theorem TileOp.spoiledBy_poi {keys : List Nat} {o : TileOp} (h : o.key ∈ keys) : (o.spoiledBy keys).poi = true := by
  simp [TileOp.spoiledBy, h]

/-- A core after a lasting mismatch of a member: what rests on the member is poisoned and the core withdrawn (09 R203, 23 R443). -/
def Core.struck (c : Core) (m : StepMember) : Core :=
  { c with tileOps := c.tileOps.map (TileOp.spoiledBy (m.op :: dependents c m.op)), withdrawn := true }

/-- Every tile operation stands in its place with its data, and the member's own is poisoned. -/
theorem struck_tileOp {c : Core} (m : StepMember) {i : Nat} {o : TileOp} (h : c.tileOps[i]? = some o) :
    ∃ p : TileOp, (c.struck m).tileOps[i]? = some p ∧ p.data = o.data ∧ (o.key = m.op → p.poi = true) := by
  refine ⟨o.spoiledBy (m.op :: dependents c m.op), by simp [Core.struck, h], TileOp.spoiledBy_data _ o, fun hop => ?_⟩
  exact TileOp.spoiledBy_poi (List.mem_cons.2 (.inl hop))

/-- A lasting mismatch strikes the core and counts it, and the partition that owns the core is sent a record. -/
theorem lastingMismatch_cases (core : Nat) (r : EngRun) (m : StepMember) (s : State) :
    let v := (s.putCore core ((s.core core).struck m)).bumpCore core 0x0130 1
    lastingMismatch core r m s = v ∨ ∃ p ws, lastingMismatch core r m s = postFault p ws v := by
  unfold lastingMismatch
  simp only
  split
  · exact .inl rfl
  · exact .inr ⟨_, _, rfl⟩

theorem lastingMismatch_threads (core : Nat) (r : EngRun) (m : StepMember) (s : State) :
    (lastingMismatch core r m s).threads = s.threads := by
  rcases lastingMismatch_cases core r m s with h | ⟨p, ws, h⟩ <;> rw [h]
  · rfl
  · exact blind_threads.postFault p ws _

theorem lastingMismatch_teams (core : Nat) (r : EngRun) (m : StepMember) (s : State) :
    (lastingMismatch core r m s).teams = s.teams := by
  rcases lastingMismatch_cases core r m s with h | ⟨p, ws, h⟩ <;> rw [h]
  · rfl
  · exact blind_teams.postFault p ws _

theorem lastingMismatch_core (core : Nat) (r : EngRun) (m : StepMember) (s : State) :
    (lastingMismatch core r m s).core core =
      { (s.core core).struck m with counters := bumpAt (s.core core).counters 0x0130 1 } := by
  rcases lastingMismatch_cases core r m s with h | ⟨p, ws, h⟩ <;> rw [h]
  · simp [State.core_putCore_self, Core.struck]
  · rw [State.core_congr (postFault_cores _ _ _)]
    simp [State.core_putCore_self, Core.struck]

/-- The runs that a mismatch of a first run asks for: the member's own, and those of the members that rest on it (09 R202). -/
def againAfter (c : Core) (r : EngRun) (m : StepMember) : List (Nat × Nat) :=
  ((r.step, r.member) :: (dependents c m.op).filterMap (runOf c)).filter fun y => !c.reruns.contains y

theorem mem_reruns_append_againAfter (c : Core) (r : EngRun) (m : StepMember) :
    (r.step, r.member) ∈ c.reruns ++ againAfter c r m := by
  by_cases h : (r.step, r.member) ∈ c.reruns
  · exact List.mem_append_left _ h
  · exact List.mem_append_right _ (List.mem_filter.2 ⟨List.mem_cons_self, by simpa using h⟩)

section
variable {s : State} {core : Nat} {r : EngRun} {rest : List EngRun} {x : EngStep} {more : List EngStep} {m : StepMember}

/-- The core once its oldest ended run is taken for the comparison. -/
def Core.taken (c : Core) (rest : List EngRun) : Core := { c with ended := rest }

variable (he : (s.core core).ended = r :: rest)
include he

theorem compareRun_of_early (b : Bool) (h : s.clkOf core < r.stop + 8) : compareRun core b s = s := by
  simp [compareRun, he, h]

theorem compareRun_of_match (h : r.stop + 8 ≤ s.clkOf core) :
    compareRun core false s = s.putCore core ((s.core core).taken rest) := by
  simp [compareRun, he, Nat.not_lt.2 h, Core.taken]

variable (hs : (s.core core).steps = x :: more) (hk : x.key = r.step) (hm : x.members[r.member]? = some m)
  (h : r.stop + 8 ≤ s.clkOf core)
include hs hk hm h

/-- A mismatch of any rerun is lasting (log 140). -/
theorem compareRun_of_lasting (hr : r.rerun = true) :
    compareRun core true s = lastingMismatch core r m (s.putCore core ((s.core core).taken rest)) := by
  have hat : memberAt ((s.core core).taken rest) r.step r.member = some (x, m) := hk ▸ memberAt_head hs hm
  rw [Core.taken] at hat ⊢
  simp [compareRun, he, Nat.not_lt.2 h, hat, hr]

theorem compareRun_of_first (hr : r.rerun = false) :
    let c := (s.core core).taken rest
    compareRun core true s = perturb (partOfCore s core)
      ((s.putCore core { c with reruns := c.reruns ++ againAfter c r m }).bumpCore core 0x0128 (againAfter c r m).length) := by
  have hat : memberAt ((s.core core).taken rest) r.step r.member = some (x, m) := hk ▸ memberAt_head hs hm
  simp only [Core.taken] at hat ⊢
  simp [compareRun, he, Nat.not_lt.2 h, hat, hr, againAfter]

end

/-- CHECKSUM_COMPARE. -/
theorem checksumsCompared (s : State) (core : Nat) (b : Bool) (r : EngRun) (rest : List EngRun) (x : EngStep) (more : List EngStep)
    (m : StepMember) (he : (s.core core).ended = r :: rest) (hs : (s.core core).steps = x :: more) (hk : x.key = r.step)
    (hm : x.members[r.member]? = some m) :
    (s.clkOf core < r.stop + 8 → exec (.checksumCompare core b) s = .next s) ∧
    (r.stop + 8 ≤ s.clkOf core →
      exec (.checksumCompare core false) s = .next (s.putCore core ((s.core core).taken rest)) ∧
      ∃ u, exec (.checksumCompare core true) s = .next u ∧ (u.core core).ended = rest ∧ u.threads = s.threads ∧ u.teams = s.teams ∧
        (r.rerun = false → (r.step, r.member) ∈ (u.core core).reruns ∧ (∀ y ∈ (s.core core).reruns, y ∈ (u.core core).reruns) ∧
          (u.core core).tileOps = (s.core core).tileOps ∧ (u.core core).withdrawn = (s.core core).withdrawn) ∧
        (r.rerun = true → (u.core core).withdrawn = true ∧ (u.core core).reruns = (s.core core).reruns ∧
          ∀ (i : Nat) (o : TileOp), (s.core core).tileOps[i]? = some o →
            ∃ p : TileOp, (u.core core).tileOps[i]? = some p ∧ p.data = o.data ∧ (o.key = m.op → p.poi = true))) := by
  refine ⟨fun h => congrArg Host.Outcome.next (compareRun_of_early he b h), fun h =>
    ⟨congrArg Host.Outcome.next (compareRun_of_match he h), compareRun core true s, rfl, ?_⟩⟩
  cases hr : r.rerun with
  | true =>
    rw [compareRun_of_lasting he hs hk hm h hr, lastingMismatch_core, lastingMismatch_threads, lastingMismatch_teams]
    simp only [State.core_putCore_self]
    exact ⟨rfl, rfl, rfl, fun h => absurd h (by simp), fun _ => ⟨rfl, rfl, fun i o ho => struck_tileOp m ho⟩⟩
  | false =>
    rw [compareRun_of_first he hs hk hm h hr, State.core_congr (perturb_cores _ _), State.core_bumpCore, State.core_putCore_self]
    exact ⟨rfl, blind_threads.perturb _ _, blind_teams.perturb _ _, fun _ => ⟨mem_reruns_append_againAfter _ r m, fun y hy =>
      List.mem_append_left _ hy, rfl, rfl⟩, fun h => absurd h (by simp)⟩

/-! STEP_COMPLETION (09 R197, R199, R200). -/

/-- What a tile operation's writes to scratchpad leave: everything but the pool and its poison. -/
structure PoolOnly (core : Nat) (s u : State) : Prop where
  threads : u.threads = s.threads
  teams : u.teams = s.teams
  dev : u.dev = s.dev
  core : ∃ p q, u.core core = { s.core core with pool := p, poolPoison := q }

theorem PoolOnly.refl (core : Nat) (s : State) : PoolOnly core s s := ⟨rfl, rfl, rfl, _, _, rfl⟩

theorem PoolOnly.trans {core : Nat} {s u v : State} (h : PoolOnly core s u) (h' : PoolOnly core u v) : PoolOnly core s v := by
  obtain ⟨ht, hm, hd, _, _, hc⟩ := h
  obtain ⟨ht', hm', hd', p, q, hc'⟩ := h'
  exact ⟨ht'.trans ht, hm'.trans hm, hd'.trans hd, p, q, by rw [hc', hc]⟩

theorem putScratch_poolOnly (core off : Nat) (bs : List Byte) (bad : Bool) (s : State) :
    PoolOnly core s (putScratch core off bs bad s) := by
  unfold putScratch poolPoison poolWriteBytes
  split
  · split
    · exact ⟨rfl, rfl, rfl, _, _, State.core_modCore _ _ _⟩
    · exact ⟨rfl, rfl, rfl, _, _, (State.core_modCore _ _ _).trans (by rw [State.core_modCore])⟩
  · exact ⟨rfl, rfl, rfl, _, _, State.core_modCore _ _ _⟩

theorem stores_poolOnly (core : Nat) (bad : Bool) (ws : List (Nat × List Byte)) (s : State) :
    PoolOnly core s (ws.foldl (fun s w => putScratch core w.1 w.2 bad s) s) := by
  induction ws generalizing s with
  | nil => exact PoolOnly.refl core s
  | cons w r ih => exact (putScratch_poolOnly core w.1 w.2 bad s).trans (ih _)

/-- A core after its oldest tile operation, one without poison, has taken effect. -/
def Core.landed (c : Core) (o : TileOp) (ops : List TileOp) : Core :=
  { c with tiles := applyPatches c.tiles o.data, sideBand := applyPatches c.sideBand o.side, tileOps := ops }

theorem tileView_landed {c : Core} {o : TileOp} {ops : List TileOp} (h : c.tileOps = o :: ops) :
    (c.landed o ops).tileView = c.tileView := by
  simp [Core.tileView, Core.landed, h]

section
variable {s : State} {core : Nat} {o : TileOp} {ops : List TileOp}

/-- The oldest tile operation, without poison and read already, takes effect: its writes, and those to scratchpad. -/
theorem landTileOp_head (h : (s.core core).tileOps = o :: ops) (hp : o.poi = false) (hl : o.load = none)
    (hne : ∀ y ∈ ops, y.key ≠ o.key) :
    PoolOnly core (s.putCore core ((s.core core).landed o ops)) (landTileOp core o.key s) := by
  have hload : o.loaded (s.core core) = o := by rw [TileOp.loaded, hl]
  have hops : ops.filter (fun x => x.key != o.key) = ops := List.filter_eq_self.2 fun y hy => by simpa using hne y hy
  have hland : landTileOp core o.key s =
      o.stores.foldl (fun s w => putScratch core w.1 w.2 false s) (s.putCore core ((s.core core).landed o ops)) := by
    simp [landTileOp, h, hload, hp, hops, State.modCore, Core.landed]
  rw [hland]
  exact stores_poolOnly core false o.stores _

theorem tileTurn_head {c : Core} (h : c.tileOps = o :: ops) : tileTurn c o.key = true := by
  simp [tileTurn, h]

end

/-- A thread after a step in which it took part (09 R199). -/
def Thread.counted (t : Thread) (m : StepMember) : Thread :=
  { t with terms := t.terms + BitVec.ofNat 64 m.terms, termCyc := t.termCyc + BitVec.ofNat 64 (m.runs * m.run),
           termSkew := t.termSkew + BitVec.ofNat 64 (m.runs * m.skew) }

/-- A thread after what waits for something completes (01 R24). -/
def Thread.landWaits (t : Thread) (w : FlightWait) : Thread :=
  (t.flight.filter fun e => e.wait == w).foldl Thread.commit { t with flight := t.flight.filter fun e => e.wait != w }

/-- The one result in flight that a step's end brings: its flag falls. -/
theorem Thread.landWaits_of_flag {t : Thread} {f : InFlight} (hf : t.flight = [f]) (hs : f.sreg = none) (hr : f.regs = []) :
    t.landWaits f.wait = { t with flight := [], flags := decFlag t.flags f.flag } := by
  simp [Thread.landWaits, hf, Thread.commit, hs, hr, Thread.setSreg]

theorem countMember_eq (core : Nat) (m : StepMember) (s : State) : countMember core m s =
    ((s.modThreads m.parts fun t => t.counted m).bumpCore core 0x0110 m.terms).bumpCore core 0x0118 (m.runs * m.skew) := rfl

theorem foldl_landWaits (w : FlightWait) (l : List Nat) (s : State) :
    l.foldl (fun s k => landWaits w k s) s = s.modThreads l fun t => t.landWaits w := rfl

/-- The end of a step of one member: its result, its counts, what waits for it, and its place in the queue. -/
def finishStep (core : Nat) (x : EngStep) (m : StepMember) (s : State) : State :=
  (((((landTileOp core m.op s).modThreads m.parts fun t => t.counted m).bumpCore core 0x0110 m.terms).bumpCore core 0x0118
    (m.runs * m.skew)).modThreads m.parts fun t => t.landWaits (.step x.key)).bumpCore core 0x0100 1
    |>.modCore core fun c => { c with steps := c.steps.filter fun y => y.key != x.key }

/-- The oldest step of a core, of one member, is to complete: 16 clk have passed since its last run, nothing of it is under way,
and its tile operation is the oldest, has read and is not poisoned. -/
structure StepEnds (s : State) (core : Nat) (x : EngStep) (more : List EngStep) (m : StepMember) (o : TileOp) (ops : List TileOp) :
    Prop where
  step : (s.core core).steps = x :: more ∧ x.members = [m] ∧ ∀ y ∈ more, y.key ≠ x.key
  last : ∃ e, x.ended = some e ∧ e + 16 ≤ s.clkOf core
  idle : (s.core core).onArray = none ∧ (s.core core).ended = [] ∧ (s.core core).reruns = [] ∧ (s.core core).begun = false
  op : (s.core core).tileOps = o :: ops ∧ o.key = m.op ∧ ∀ y ∈ ops, y.key ≠ o.key
  clean : o.poi = false ∧ o.load = none

section
variable {s : State} {core : Nat} {x : EngStep} {more : List EngStep} {m : StepMember} {o : TileOp} {ops : List TileOp}
  (h : StepEnds s core x more m o ops)
include h

theorem StepEnds.isDone : stepDone (s.core core) (s.clkOf core) x = true := by
  obtain ⟨⟨-, hm, -⟩, ⟨e, he, hclk⟩, ⟨ha, hc, hr, -⟩, ⟨hops, hk, -⟩, -⟩ := h
  simp [stepDone, hm, he, hclk, ha, hc, hr, ← hk, tileTurn_head hops]

theorem StepEnds.completes : completeStep core s = finishStep core x m s := by
  obtain ⟨hs, hm, -⟩ := h.step
  obtain ⟨-, -, -, hb⟩ := h.idle
  have hfind : (s.core core).steps.find? (stepDone (s.core core) (s.clkOf core)) = some x := by simp [hs, h.isDone]
  simp only [completeStep, hb, Bool.false_eq_true, if_false, hfind, hm, List.flatMap_cons, List.flatMap_nil, List.append_nil,
    List.foldl_cons, List.foldl_nil, countMember_eq, foldl_landWaits, finishStep]

theorem StepEnds.landed : PoolOnly core (s.putCore core ((s.core core).landed o ops)) (landTileOp core m.op s) := by
  obtain ⟨hops, hk, hne⟩ := h.op
  obtain ⟨hp, hl⟩ := h.clean
  exact hk ▸ landTileOp_head hops hp hl hne

theorem StepEnds.finish_core :
    let c := (finishStep core x m s).core core
    c.steps = more ∧ c.tileOps = ops ∧ c.tileView = (s.core core).tileView ∧ c.tags = (s.core core).tags := by
  obtain ⟨p, q, hc⟩ := h.landed.core
  obtain ⟨hs, -, hx⟩ := h.step
  obtain ⟨hops, -⟩ := h.op
  have hmore : more.filter (fun y => y.key != x.key) = more := List.filter_eq_self.2 fun y hy => by simpa using hx y hy
  rw [State.core_putCore_self] at hc
  simp only [finishStep, State.core_modCore, State.core_bumpCore, State.core_modThreads, hc]
  refine ⟨?_, rfl, tileView_landed hops, rfl⟩
  simp [Core.landed, hs, hmore]

theorem StepEnds.finish_teams : (finishStep core x m s).teams = s.teams := by
  simp [finishStep, h.landed.teams]

theorem StepEnds.finish_dev : (finishStep core x m s).dev = s.dev := by
  simp [finishStep, h.landed.dev]

theorem StepEnds.finish_thread?_of_not_mem {k : Nat} (hk : k ∉ m.parts) : (finishStep core x m s).thread? k = s.thread? k := by
  simp only [finishStep, State.thread?_modCore, State.thread?_bumpCore, State.thread?_modThreads_not_mem _ _ hk]
  exact State.thread?_congr h.landed.threads k

theorem StepEnds.finish_thread? {k : Nat} {t : Thread} (hm : m.parts = [k]) (ht : s.thread? k = some t) :
    (finishStep core x m s).thread? k = some ((t.counted m).landWaits (.step x.key)) := by
  have hland : (landTileOp core m.op s).thread? k = some t := (State.thread?_congr h.landed.threads k).trans ht
  simp only [finishStep, State.thread?_modCore, State.thread?_bumpCore, hm]
  exact State.thread?_modThreads_singleton _ (State.thread?_modThreads_singleton (Thread.counted · m) hland)

/-- STEP_COMPLETION. -/
theorem StepEnds.stepCompletes :
    ∃ u, exec (.stepCompletion core) s = .next u ∧ (u.core core).steps = more ∧ (u.core core).tileOps = ops ∧
      u.teams = s.teams ∧ u.dev = s.dev ∧ (∀ t b, dataAt u core t b = dataAt s core t b ∧ tagAt u core t = tagAt s core t) ∧
      (∀ k, k ∉ m.parts → u.thread? k = s.thread? k) ∧
      ∀ k t f, m.parts = [k] → s.thread? k = some t → t.flight = [f] → f.wait = .step x.key → f.sreg = none → f.regs = [] →
        u.thread? k = some { t.counted m with flight := [], flags := decFlag t.flags f.flag } := by
  obtain ⟨hsteps, hops, hview, htags⟩ := h.finish_core
  refine ⟨_, congrArg Host.Outcome.next h.completes, hsteps, hops, h.finish_teams, h.finish_dev, fun t b =>
    ⟨by rw [dataAt, hview, dataAt], by rw [tagAt, htags, tagAt]⟩, fun k hk => h.finish_thread?_of_not_mem hk,
    fun k t f hpart ht hf hw hsr hfr => ?_⟩
  rw [h.finish_thread? hpart ht, ← hw]
  exact congrArg some (Thread.landWaits_of_flag (t := t.counted m) hf hsr hfr)

end

/-! ENGINE_RESET (11 R258, 12 R281). -/

/-- A team whose open bracket an event aborts. -/
def Team.aborted (x : Team) (reason code : Nat) : Team :=
  { x with tx := { x.tx with aborted := true, reason := reason, code := code, held := [], lines := [] } }

/-- The abort of a bracket without commands (12 R281). -/
theorem abortTx_of_unbracketed {s : State} {k : Nat} {x : Team} (h : s.team? k = some x) (hd : 0 < x.tx.depth)
    (ha : x.tx.aborted = false) (hu : ∀ e ∈ (s.core x.core).cmds, e.2.bracketed = false) (reason code : Nat) :
    abortTx k reason code s = s.putTeam k (x.aborted reason code) := by
  have hnone : ((teamCmds (s.putTeam k (x.aborted reason code)) x.core k).filter fun e => e.2.bracketed) = [] :=
    List.filter_eq_nil_iff.2 fun e he => by simp only [hu e (List.mem_filter.1 he).1, Bool.false_eq_true, not_false_iff]
  have hmod : s.modTeam k (fun t => t.aborted reason code) = s.putTeam k (x.aborted reason code) := by rw [State.modTeam, h]
  simp only [Team.aborted] at hnone hmod ⊢
  simp [abortTx, h, Nat.pos_iff_ne_zero.1 hd, ha, hmod, hnone]

theorem fillContexts_of_idle {s : State} {core : Nat} (h : (s.core core).cmds = []) (n : Nat) : fillContexts core n s = s := by
  cases n with
  | zero => rfl
  | succ n => simp [fillContexts, h, sortOn]

@[simp] theorem State.countCore_threads (s : State) (core off n : Nat) : (s.countCore core off n).threads = s.threads := by
  unfold State.countCore
  split <;> rfl

@[simp] theorem State.countCore_teams (s : State) (core off n : Nat) : (s.countCore core off n).teams = s.teams := by
  unfold State.countCore
  split <;> rfl

@[simp] theorem State.countCore_dev (s : State) (core off n : Nat) : (s.countCore core off n).dev = s.dev := by
  unfold State.countCore
  split <;> rfl

@[simp] theorem State.countCore_cmds (s : State) (core off n : Nat) : ((s.countCore core off n).core core).cmds = (s.core core).cmds := by
  unfold State.countCore
  split
  · rfl
  · rw [State.core_bumpCore]

theorem getLast?_addFail (l : List FailEntry) (e : FailEntry) : (addFail l e).getLast? = some e := by
  have hlen : ¬(l ++ [e]).length ≤ (l ++ [e]).length - 16 := by
    rw [List.length_append, List.length_singleton]
    omega
  change ((l ++ [e]).drop ((l ++ [e]).length - 16)).getLast? = some e
  rw [List.getLast?_drop, if_neg hlen, List.getLast?_concat]

/-- A team after one of its unbracketed commands has failed with a reason (11 R259). -/
def Team.failed (x : Team) (y : Command) (reason : Nat) : Team :=
  { x with fails := addFail x.fails { ticket := y.ticket, st := 4, reason := reason, c := y.c } }

section
variable {s : State} {core k : Nat} {y : Command} {x : Team}

/-- The failure of a core's only command, one of no bracket, ring, buoy or route. -/
theorem failCmd_of_alone (hc : (s.core core).cmds = [(k, y)]) (ht : s.team? y.team = some x) (hb : y.bracketed = false)
    (hr : y.isRing = false) (hbuoy : y.buoy = none) (hroute : ∀ f, y.instr ≠ .drainRoute f) (reason : Nat) :
    failCmd core k reason s = (((s.dropCmd core k).modTeam y.team fun t => t.failed y reason).modGrid x.grid fun g =>
      { g with fails := g.fails + 1 }).countCore core 0x0228 1 := by
  have hy : s.cmd? core k = some y := by simp [State.cmd?, hc, tfind]
  have hnone : (((((s.dropCmd core k).modTeam y.team fun t => t.failed y reason).modGrid x.grid fun g =>
      { g with fails := g.fails + 1 }).countCore core 0x0228 1).core core).cmds = [] := by
    simp [State.dropCmd, hc, tdel]
  rw [← fillContexts_of_idle hnone 16]
  simp only [failCmd, endCmd, hy, ht, hr, hbuoy, hb, Nat.reduceEqDiff, Bool.false_eq_true, if_false, if_true]
  rfl

end

/-- The state in which a reset's failures happen: the team's bracket is aborted with reason RESET (12 R281). -/
def resetTeam (s : State) (k : Nat) (x : Team) : State := s.putTeam k (x.aborted 4 0)

section
variable {s : State} {core k : Nat} {y : Command} {x : Team} (hon : s.teamsOn core = [(y.team, x)])
  (hc : (s.core core).cmds = [(k, y)]) (hst : x.state = .live ∨ x.state = .turning) (hd : 0 < x.tx.depth) (ha : x.tx.aborted = false)
  (hb : y.bracketed = false) (ht : s.team? y.team = some x)
include hon hc hst hd ha hb ht

/-- A reset aborts the bracket of the core's only team and fails the core's only command unless it is queued (log 100). -/
theorem engineReset_eq : exec (.engineReset core) s =
    .next (if y.state = .queued then resetTeam s y.team x else failCmd core k 4 (resetTeam s y.team x)) := by
  have hcore : x.core = core := by
    have hmem : (y.team, x) ∈ s.teamsOn core := by simp [hon]
    simpa using (List.mem_filter.1 hmem).2
  have hres : x.resident = true := by rcases hst with h | h <;> simp [Team.resident, h]
  have habort : abortTx y.team 4 0 s = resetTeam s y.team x := abortTx_of_unbracketed ht hd ha (by simp [hcore, hc, hb]) 4 0
  have hcmds : ((resetTeam s y.team x).core core).cmds = [(k, y)] := hc
  refine congrArg Host.Outcome.next ?_
  by_cases hq : y.state = .queued <;> simp [hon, hres, habort, hcmds, hq]

/-- ENGINE_RESET of a core with one team, in an open bracket, and one command, which is not bracketed. -/
theorem engineResets (hr : y.isRing = false) (hbuoy : y.buoy = none) (hroute : ∀ f, y.instr ≠ .drainRoute f) :
    ∃ u z, exec (.engineReset core) s = .next u ∧ u.team? y.team = some z ∧ z.tx.aborted = true ∧ z.tx.reason = 4 ∧ z.tx.held = [] ∧
      u.threads = s.threads ∧ u.dev = s.dev ∧ (y.state = .queued → (u.core core).cmds = [(k, y)] ∧ z.fails = x.fails) ∧
      (y.state ≠ .queued → (u.core core).cmds = [] ∧ z.fails.getLast? = some { ticket := y.ticket, st := 4, reason := 4, c := y.c }) := by
  rw [engineReset_eq hon hc hst hd ha hb ht]
  have hteam : (resetTeam s y.team x).team? y.team = some (x.aborted 4 0) := tfind_tput_self _ _ _
  have hcmds : ((resetTeam s y.team x).core core).cmds = [(k, y)] := hc
  by_cases hq : y.state = .queued
  · rw [if_pos hq]
    exact ⟨_, _, rfl, hteam, rfl, rfl, rfl, rfl, rfl, fun _ => ⟨hc, rfl⟩, fun h => absurd hq h⟩
  · rw [if_neg hq, failCmd_of_alone hcmds hteam hb hr hbuoy hroute]
    refine ⟨_, (x.aborted 4 0).failed y 4, rfl, ?_, rfl, rfl, rfl, ?_, ?_, fun h => absurd h hq, fun _ => ⟨?_, getLast?_addFail _ _⟩⟩
    · rw [State.team?_congr (State.countCore_teams _ _ _ _), State.team?_congr (State.modGrid_teams _ _ _)]
      exact State.team?_modTeam _ _ _ _ hteam
    · simp [State.dropCmd, resetTeam]
    · simp [State.dropCmd, resetTeam]
    · simp [State.dropCmd, hcmds, tdel]

end

end Sys2Proof.Machine

open Sys2Proof.Machine

/-- Settles O41: each event by its own lemma; a step that is to complete is one of `StepEnds`. -/
theorem matrixEngine : Obligations.MatrixEngine := by
  refine ⟨stepStarts, fun s core r x more m => stepRunEnds, checksumsCompared, ?completion, ?reset⟩
  case completion =>
    intro s core e x more m o ops c hs hm _ he hclk ha hc hr hops hk hp hl hb hne hx
    have h : StepEnds s core x more m o ops :=
      ⟨⟨hs, hm, hx⟩, ⟨e, he, hclk⟩, ⟨ha, hc, hr, hb⟩, ⟨hops, hk, hne⟩, ⟨hp, hl⟩⟩
    obtain ⟨u, hu, hsteps, htile, hteams, hdev, hdata, hothers, hthread⟩ := h.stepCompletes
    refine ⟨u, hu, hsteps, htile, hteams, hdev, hdata, hothers, fun k t f hpart ht hf hw hsr hfr => ?_⟩
    rw [hthread k t f hpart ht hf hw hsr hfr]
    cases f.flag <;> rfl
  case reset =>
    intro s core k y x hon hc hst hd ha hb hr hbuoy hroute ht _
    exact engineResets hon hc hst hd ha hb ht hr hbuoy hroute
end
